-- ==== Sys2Proof/Word.lean ====
section
/-! DEFINITION. The word types of the part and the names of its numbered units. -/

namespace Sys2Proof

/-- One byte, the unit of memory (R2). -/
abbrev Byte := BitVec 8
/-- The 64-bit value of a register or a scalar register. -/
abbrev Dword := BitVec 64
/-- The 40-bit value of one lane (R119). -/
abbrev Cell := BitVec 40
/-- The 80-bit value of a lane pair or of an accumulator lane (R121, R147). -/
abbrev Wide := BitVec 80
/-- A 16-bit lane mask: a predicate or a validity mask. -/
abbrev Mask := BitVec 16
/-- One Sirto instruction word (R95). -/
abbrev InstrWord := BitVec 32

/-- Engine ID (R13). -/
abbrev Eng := Fin 256
/-- Tile index of a square (R11); also its slice, mezzanine and router. -/
abbrev Tile := Fin 64
/-- DRAM channel and sieve number (R17). -/
abbrev Chan := Fin 16
/-- Partition number. -/
abbrev Part := Fin 64
/-- Hart ID (R12). -/
abbrev Hart := Fin 128
/-- CAM bank number (R14). -/
abbrev Bank := Fin 256
/-- Codec number. -/
abbrev CodecId := Fin 8
/-- Digest slot number. -/
abbrev SlotId := Fin 16
/-- Streamer number within an engine (R86). -/
abbrev StreamNo := Fin 4
/-- Queue number within a partition; queue 0 is the ADMIN queue. -/
abbrev QueueId := Fin 16384
/-- Ledger stack number. -/
abbrev StackId := Fin 4
/-- Root port number 4r + s (R536). -/
abbrev RootPort := Fin 32

end Sys2Proof
end

