-- ==== Sys2Proof/Syntax.lean ====
section
/-! DEFINITION. The commands of the part: one constructor of `Instr` per row of spec/opcode_table.json.
The rows give no bits, so a command is its name and its operands.
An engine instruction carries its engine and the raw fields of its format (R95), so that every word of
its opcode and function value, the illegal ones among them, can be written.
An event carries what the part cannot decide itself: the outcome of an error check, a sample, a pin. -/

namespace Sys2Proof

/-- S format: three register fields (R95). -/
structure SForm where
  rd : BitVec 5
  rs1 : BitVec 5
  rs2 : BitVec 5
  deriving DecidableEq, Repr

/-- I format with its 16-bit immediate (R95). -/
structure IForm where
  rd : BitVec 5
  rs1 : BitVec 5
  imm : BitVec 16
  deriving DecidableEq, Repr

/-- I format of the immediate shifts: imm16 without its selector bits [7:6] (R100). -/
structure ShForm where
  rd : BitVec 5
  rs1 : BitVec 5
  hi : BitVec 8
  sh : BitVec 6
  deriving DecidableEq, Repr

/-- I format of EXT and EXTS: imm16 without its selector bit [12] (R100). -/
structure ExtForm where
  rd : BitVec 5
  rs1 : BitVec 5
  hi : BitVec 3
  len : BitVec 6
  pos : BitVec 6
  deriving DecidableEq, Repr

/-- M format: loads and stores (R95). -/
structure MForm where
  rt : BitVec 5
  rs1 : BitVec 5
  imm : BitVec 12
  deriving DecidableEq, Repr

/-- C format: system, stream and CAM instructions (R95). -/
structure CForm where
  rd : BitVec 5
  rs1 : BitVec 5
  rs2 : BitVec 5
  aux : BitVec 6
  deriving DecidableEq, Repr

/-- B format: bits [25:21], bits [20:16] and off16 (R95). -/
structure BForm where
  a : BitVec 5
  b : BitVec 5
  off : BitVec 16
  deriving DecidableEq, Repr

/-- B format of the predicate branches: bits [25:21] and off16; the condition is the instruction's (R103). -/
structure PForm where
  a : BitVec 5
  off : BitVec 16
  deriving DecidableEq, Repr

/-- V format without its funct9 (R95). -/
structure VForm where
  vd : BitVec 4
  vs1 : BitVec 4
  src2 : BitVec 5
  pm : BitVec 3
  f : Bool
  deriving DecidableEq, Repr

/-- VW format without its funct4 (R95). -/
structure VWForm where
  vd : BitVec 4
  rs1 : BitVec 5
  width : BitVec 6
  sx : Bool
  conv : BitVec 3
  pm : BitVec 3
  deriving DecidableEq, Repr

/-- The bits S, D and I of a sort or merge (R144). -/
structure SortMode where
  s : Bool
  d : Bool
  i : Bool
  deriving DecidableEq, Repr

/-- The size, sign and scale bits of VGATHER (R154). -/
structure GatherMode where
  size : BitVec 2
  sx : Bool
  sc : Bool
  deriving DecidableEq, Repr

/-- The agent an access of the control window is attributed to (R545). -/
inductive Agent where
  | manager
  | guest (p : Part)
  | warden
  | bmc
  deriving DecidableEq, Repr

/-- How much of a register an access reaches (R541). -/
inductive AccPart where
  | whole
  | low
  | high
  deriving DecidableEq, Repr

/-- A write of a register: who writes, which half and what. -/
structure RegAccess where
  agent : Agent
  part : AccPart
  value : BitVec 64
  deriving DecidableEq, Repr

/-- The error interrupts that can reach an engine (R116). -/
inductive ErrKind where
  | csParity
  | l1Parity
  | mezParity
  | poison
  deriving DecidableEq, Repr

/-- Bits of a CAM unit, and of the valid flag of its entry, that have flipped since its bank last acted: the unit
address, what the unit holds now, whether its parity bit has flipped, and of the entry's valid flag and its parity bit
the ones that have (bits 0 and 1). -/
structure Flip where
  unit : Nat
  cell : Cell
  par : Bool
  flag : BitVec 2
  deriving DecidableEq, Repr

/-- A landing store that the tick or an error finds between its halves (R82): its engine's register fields and
its size. -/
structure SplitCut where
  e : Eng
  f : MForm
  size : Nat
  deriving DecidableEq, Repr

/-- What an error interrupt finds: the value that EVAL shows, and the landing store that it cuts between its halves, if
any (R70, R82). -/
structure ErrorFound where
  val : BitVec 64
  cut : Option SplitCut
  deriving DecidableEq, Repr

/-- A copy of a sieve job's descriptor: its streamer, and for each unit of 16 bytes whether it is taken as it stands
after the stores since SOPEN (R189). -/
structure JobCopy where
  stream : StreamNo
  late : BitVec 16
  deriving DecidableEq, Repr

/-- Bits of a line of memory or of the gallery that have flipped: its address, and how many its worst word has. -/
structure LineFlip where
  line : Nat
  bits : Nat
  deriving DecidableEq, Repr

/-- What the model does not decide about a tick: the split stores that it cuts, the lines of DRAM and of the gallery in
which bits have flipped since the last one (R341, R396), and whether health flights run in the new beat (R505). -/
structure TickChoice where
  cuts : List SplitCut
  dram : List LineFlip
  gal : List LineFlip
  health : Bool
  deriving DecidableEq, Repr

/-- A service unit of the Foyer, by the system-class threads it runs (R242). -/
inductive ServiceUnit where
  | pager
  | ledgerDrain
  | warden
  | flowPublisher
  deriving DecidableEq, Repr

/-- What an error check finds in a line: nothing, an error it corrects, an error that a retry overcomes, or an
uncorrectable error. -/
inductive EccOutcome where
  | clean
  | corrected
  | retryOk
  | bad
  deriving DecidableEq, Repr

/-- What a turn of a sieve meets: a parity error in the job's state (R203), and the outcome of its read (R202). -/
structure TurnOutcome where
  parity : Bool
  ecc : EccOutcome
  deriving DecidableEq, Repr

/-- An element of a vector load or store (R351): its number, and whether it is the last. -/
structure VecElem where
  k : Nat
  last : Bool
  deriving DecidableEq, Repr

/-- A core access: its virtual address and size in bytes, the physical addresses of its lower piece and of the one
above a 16-byte boundary, the exception cause that the translation and protection checks of each piece raise, if any
(R348), and a store's data or none for a load. The rest is what the model does not decide: how many entries of the
store buffer are performed with it, what the error check of its line finds, and what a device answers to a load.
`elem` says that the access is an element of a vector access, and `failed` names the root port of a device that has
failed (R357). -/
structure CoreAccess where
  va : Nat
  size : Nat
  pa : Nat
  pa2 : Nat
  fault : Option Nat
  fault2 : Option Nat
  store : Option (BitVec 64)
  drain : Nat
  ecc : EccOutcome
  dev : BitVec 64
  elem : Option VecElem
  failed : Option RootPort
  deriving DecidableEq, Repr

/-- The predecessor or successor set of a core FENCE. -/
structure FenceSet where
  i : Bool
  o : Bool
  r : Bool
  w : Bool
  deriving DecidableEq, Repr

/-- The operations of a core AMO (R350). -/
inductive AmoOp where
  | swap
  | add
  | xor
  | and
  | or
  | min
  | max
  | minu
  | maxu
  deriving DecidableEq, Repr

/-- How link retraining ends: well, well only at DDR5-6400, or not at all (R408). -/
inductive RetrainOutcome where
  | good
  | slower
  | failed
  deriving DecidableEq, Repr

/-- What ALERT_n reports (R407). -/
inductive AlertKind where
  | caParity
  | writeCrc
  deriving DecidableEq, Repr

/-- What a ledger stack does wrong: it stops answering, or has lost this many of its members within 24 hours (R414). -/
inductive StackFault where
  | silent
  | members (n : Nat)
  deriving DecidableEq, Repr

/-- A ledger member that fails its stack's internal code as block `off` of a command or copy is read: the stack,
and whether the block cannot be rebuilt (R412, R413). -/
structure MemberFail where
  off : Nat
  stack : StackId
  lost : Bool
  deriving DecidableEq, Repr

/-- What the model does not decide about a drain (R409, R443, R445): the pages copied before the energy ran out (none
where it lasted), the channels whose retraining failed, its duration in milliseconds, and the power in watts and rate in
MB/s it measured. -/
structure DrainEnv where
  copied : Option Nat
  lost : List Chan
  ms : Nat
  pMeas : Nat
  rateMeas : Nat
  deriving DecidableEq, Repr

/-- What the model does not decide about a start-up (R555 to R563): whether PWROK rises, or RESET_N in PERSISTED; the
straps; what the SPD of each channel's DIMMs says, laid out as DRC_CFG shows it and 0 where the channel is empty; a
channel whose DIMMs are not supported for another reason, and one that fails training at DDR5-6400; channels that
train at DDR5-6400 only; rows that post-package repair has replaced, by channel and entry of the repair list; harts
and routers whose self-test fails; and whether the system area's lifetime log is unreadable. -/
structure BootEnv where
  pwrok : Bool
  straps : BitVec 24
  spd : Vector (BitVec 18) 16
  badPop : Option Chan
  badTrain : Option Chan
  slow : List Chan
  repaired : List (Chan × Nat)
  badHarts : List Hart
  badRouters : List Tile
  logBad : Bool
  deriving DecidableEq, Repr

/-- What the model does not decide about the end of a long command: whether the boot flash took what was written, and
the start-up that a recovery boot leads to. -/
structure EndEnv where
  flash : Bool
  boot : BootEnv
  deriving DecidableEq, Repr

/-- The halls. -/
inductive Hall where
  | west
  | east
  deriving DecidableEq, Repr

/-- A link of a square: to the next or last rank, to the next or last file. -/
inductive LinkDir where
  | rankUp
  | rankDown
  | fileUp
  | fileDown
  | foyer
  deriving DecidableEq, Repr

/-- A count of the last 24 hours that an event leaves: halts of an engine, dirty errors charged to it, a healing of a
granule, a mismatch of a codec (R67, R312, R334, R460). -/
inductive ChargeKind where
  | halt (e : Eng)
  | dirty (e : Eng)
  | heal (granule : Nat)
  | mismatch (k : CodecId)
  deriving DecidableEq, Repr

/-- A TAP operation: the instruction register's value and whether RESET_N is low (R571). -/
structure JtagIns where
  ir : BitVec 5
  resetLow : Bool
  deriving DecidableEq, Repr

/-- A link comes up as PCIe or as CXL by Flex Bus negotiation, or goes down (R559). -/
inductive LinkEvent where
  | upPcie
  | upCxl
  | down
  deriving DecidableEq, Repr

/-- What a PCIe or CXL.io function asks for: a memory access, one with an address that ATS has translated, an ATS
translation (of a read only, or of a write too), or a page by PRI, with the access it wants, whether it is the last of
its group, and the group (R379). -/
inductive ReqKind where
  | memory
  | translated
  | translate (readOnly : Bool)
  | page (rd wr last : Bool) (group : BitVec 9)
  deriving DecidableEq, Repr

/-- A request of a PCIe or CXL.io function: Requester ID, PASID if it carries one, what it asks for, address, size in
bytes, and a write's data or none for a read (R356, R378, R379). -/
structure DeviceReq where
  rid : BitVec 16
  pasid : Option (BitVec 20)
  kind : ReqKind
  addr : Nat
  size : Nat
  store : Option Nat
  deriving DecidableEq, Repr

/-- The commands of the part, one constructor per row of spec/opcode_table.json. -/
inductive Instr where
  /-- BEAT_TICK (R48). -/
  | beatTick (sel : TickChoice)
  /-- THREAD_PROMOTION (R240). -/
  | threadPromotion (th : Nat)
  /-- BEAT_PERIOD_WRITE (R27). -/
  | beatPeriodWrite (w : RegAccess)
  /-- BEAT_PHASE_WRITE (R46). -/
  | beatPhaseWrite (w : RegAccess)
  /-- BEAT_CTL_WRITE (R47). -/
  | beatCtlWrite (w : RegAccess)
  /-- BEAT_IN_EDGE (R46). -/
  | beatInEdge (tm : Nat)
  /-- BEAT_IN_FREERUN (R46). -/
  | beatInFreerun (tm : Nat)
  /-- QUIET_WINDOW_STEP (R405). -/
  | quietWindowStep (c : Chan) (drift : BitVec 16)
  /-- HANDLER_ENTRY (R68). -/
  | handlerEntry (e : Eng)
  /-- ERROR_INTERRUPT_RAISE (R68). -/
  | errorInterruptRaise (e : Eng) (k : ErrKind) (x : ErrorFound)
  /-- SYNC_EXCEPTION_RAISE (R115). -/
  | syncExceptionRaise (e : Eng)
  /-- ENGINE_KERNEL_RELOAD (R67). -/
  | engineKernelReload (e : Eng)
  /-- ENG_CTL_WRITE (R89). -/
  | engCtlWrite (e : Eng) (w : RegAccess)
  /-- ENG_CS_DATA_WRITE (R89). -/
  | engCsDataWrite (e : Eng) (w : RegAccess)
  /-- ENG_CS_DATA_READ (R542). -/
  | engCsDataRead (e : Eng) (ag : Agent)
  /-- STORE_BUFFER_DRAIN (R77). -/
  | storeBufferDrain (e : Eng)
  /-- DISCARD_END (R329). -/
  | discardEnd (e : Eng)
  /-- ADD (R98). -/
  | add (e : Eng) (f : SForm)
  /-- SUB (R98). -/
  | sub (e : Eng) (f : SForm)
  /-- AND (R98). -/
  | andOp (e : Eng) (f : SForm)
  /-- OR (R98). -/
  | orOp (e : Eng) (f : SForm)
  /-- XOR (R98). -/
  | xor (e : Eng) (f : SForm)
  /-- ANDN (R98). -/
  | andn (e : Eng) (f : SForm)
  /-- SLL (R98). -/
  | sll (e : Eng) (f : SForm)
  /-- SRL (R98). -/
  | srl (e : Eng) (f : SForm)
  /-- SRA (R98). -/
  | sra (e : Eng) (f : SForm)
  /-- SLT (R98). -/
  | slt (e : Eng) (f : SForm)
  /-- SLTU (R98). -/
  | sltu (e : Eng) (f : SForm)
  /-- MIN (R98). -/
  | min (e : Eng) (f : SForm)
  /-- MAX (R98). -/
  | max (e : Eng) (f : SForm)
  /-- MINU (R98). -/
  | minu (e : Eng) (f : SForm)
  /-- MAXU (R98). -/
  | maxu (e : Eng) (f : SForm)
  /-- CLZ (R98). -/
  | clz (e : Eng) (f : SForm)
  /-- CTZ (R98). -/
  | ctz (e : Eng) (f : SForm)
  /-- POPC (R98). -/
  | popc (e : Eng) (f : SForm)
  /-- MUL (R98). -/
  | mul (e : Eng) (f : SForm)
  /-- MULH (R98). -/
  | mulh (e : Eng) (f : SForm)
  /-- MULHU (R98). -/
  | mulhu (e : Eng) (f : SForm)
  /-- DIV (R99). -/
  | div (e : Eng) (f : SForm)
  /-- DIVU (R99). -/
  | divu (e : Eng) (f : SForm)
  /-- REM (R99). -/
  | rem (e : Eng) (f : SForm)
  /-- REMU (R99). -/
  | remu (e : Eng) (f : SForm)
  /-- ADDI (R100). -/
  | addi (e : Eng) (f : IForm)
  /-- ANDI (R100). -/
  | andi (e : Eng) (f : IForm)
  /-- ORI (R100). -/
  | ori (e : Eng) (f : IForm)
  /-- XORI (R100). -/
  | xori (e : Eng) (f : IForm)
  /-- SLTI (R100). -/
  | slti (e : Eng) (f : IForm)
  /-- SLTIU (R100). -/
  | sltiu (e : Eng) (f : IForm)
  /-- LUI (R100). -/
  | lui (e : Eng) (f : IForm)
  /-- SLLI (R100). -/
  | slli (e : Eng) (f : ShForm)
  /-- SRLI (R100). -/
  | srli (e : Eng) (f : ShForm)
  /-- SRAI (R100). -/
  | srai (e : Eng) (f : ShForm)
  /-- EXT (R100). -/
  | ext (e : Eng) (f : ExtForm)
  /-- EXTS (R100). -/
  | exts (e : Eng) (f : ExtForm)
  /-- LB (R101). -/
  | lb (e : Eng) (f : MForm)
  /-- LH (R101). -/
  | lh (e : Eng) (f : MForm)
  /-- LW (R101). -/
  | lw (e : Eng) (f : MForm)
  /-- LD (R101). -/
  | ld (e : Eng) (f : MForm)
  /-- LBU (R101). -/
  | lbu (e : Eng) (f : MForm)
  /-- LHU (R101). -/
  | lhu (e : Eng) (f : MForm)
  /-- LWU (R101). -/
  | lwu (e : Eng) (f : MForm)
  /-- LC (R101). -/
  | lc (e : Eng) (f : MForm)
  /-- LCU (R101). -/
  | lcu (e : Eng) (f : MForm)
  /-- SB (R101). -/
  | sb (e : Eng) (f : MForm)
  /-- SH (R101). -/
  | sh (e : Eng) (f : MForm)
  /-- SW (R101). -/
  | sw (e : Eng) (f : MForm)
  /-- SD (R101). -/
  | sd (e : Eng) (f : MForm)
  /-- SC (R101). -/
  | sc (e : Eng) (f : MForm)
  /-- BEQ (R103). -/
  | beq (e : Eng) (f : BForm)
  /-- BNE (R103). -/
  | bne (e : Eng) (f : BForm)
  /-- BLT (R103). -/
  | blt (e : Eng) (f : BForm)
  /-- BGE (R103). -/
  | bge (e : Eng) (f : BForm)
  /-- BLTU (R103). -/
  | bltu (e : Eng) (f : BForm)
  /-- BGEU (R103). -/
  | bgeu (e : Eng) (f : BForm)
  /-- JAL (R103). -/
  | jal (e : Eng) (f : BForm)
  /-- JALR (R103). -/
  | jalr (e : Eng) (f : IForm)
  /-- BPANY (R103). -/
  | bpany (e : Eng) (f : PForm)
  /-- BPNONE (R103). -/
  | bpnone (e : Eng) (f : PForm)
  /-- BPALL (R103). -/
  | bpall (e : Eng) (f : PForm)
  /-- FENCE (R104). -/
  | fence (e : Eng) (f : CForm)
  /-- IFLUSH (R62). -/
  | iflush (e : Eng) (f : CForm)
  /-- YIELD (R105). -/
  | yield (e : Eng) (f : CForm)
  /-- BEATWAIT (R106). -/
  | beatwait (e : Eng) (f : CForm)
  /-- ERET (R107). -/
  | eret (e : Eng) (f : CForm)
  /-- CRR (R93). -/
  | crr (e : Eng) (f : CForm)
  /-- CRW (R93). -/
  | crw (e : Eng) (f : CForm)
  /-- CLEAN (R325). -/
  | clean (e : Eng) (f : CForm)
  /-- INV (R325). -/
  | inv (e : Eng) (f : CForm)
  /-- CLINV (R325). -/
  | clinv (e : Eng) (f : CForm)
  /-- SOPEN (R109). -/
  | sopen (e : Eng) (f : CForm)
  /-- SWAIT (R110). -/
  | swait (e : Eng) (f : CForm)
  /-- SCLOSE (R109). -/
  | sclose (e : Eng) (f : CForm)
  /-- CSRCH (R113). -/
  | csrch (e : Eng) (f : CForm)
  /-- CINS (R113). -/
  | cins (e : Eng) (f : CForm)
  /-- CSRCHINS (R113). -/
  | csrchins (e : Eng) (f : CForm)
  /-- CDEL (R113). -/
  | cdel (e : Eng) (f : CForm)
  /-- CRD (R113). -/
  | crd (e : Eng) (f : CForm)
  /-- CWR (R113). -/
  | cwr (e : Eng) (f : CForm)
  /-- CAM_REPLY (R74). -/
  | camReply (e : Eng)
  /-- VADD (R138). -/
  | vadd (e : Eng) (f : VForm)
  /-- VSUB (R138). -/
  | vsub (e : Eng) (f : VForm)
  /-- VMUL (R138). -/
  | vmul (e : Eng) (f : VForm)
  /-- VMULH (R138). -/
  | vmulh (e : Eng) (f : VForm)
  /-- VMULHU (R138). -/
  | vmulhu (e : Eng) (f : VForm)
  /-- VMIN (R138). -/
  | vmin (e : Eng) (f : VForm)
  /-- VMAX (R138). -/
  | vmax (e : Eng) (f : VForm)
  /-- VMINU (R138). -/
  | vminu (e : Eng) (f : VForm)
  /-- VMAXU (R138). -/
  | vmaxu (e : Eng) (f : VForm)
  /-- VAND (R138). -/
  | vand (e : Eng) (f : VForm)
  /-- VOR (R138). -/
  | vor (e : Eng) (f : VForm)
  /-- VXOR (R138). -/
  | vxor (e : Eng) (f : VForm)
  /-- VANDN (R138). -/
  | vandn (e : Eng) (f : VForm)
  /-- VSLL (R138). -/
  | vsll (e : Eng) (f : VForm)
  /-- VSRL (R138). -/
  | vsrl (e : Eng) (f : VForm)
  /-- VSRA (R138). -/
  | vsra (e : Eng) (f : VForm)
  /-- VABS (R138). -/
  | vabs (e : Eng) (f : VForm)
  /-- VHASH (R139). -/
  | vhash (e : Eng) (f : VForm)
  /-- VPOPC (R138). -/
  | vpopc (e : Eng) (f : VForm)
  /-- VCLZ (R138). -/
  | vclz (e : Eng) (f : VForm)
  /-- VCTZ (R138). -/
  | vctz (e : Eng) (f : VForm)
  /-- VADDP (R140). -/
  | vaddp (e : Eng) (f : VForm)
  /-- VSUBP (R140). -/
  | vsubp (e : Eng) (f : VForm)
  /-- VMULP (R140). -/
  | vmulp (e : Eng) (f : VForm)
  /-- VMINP (R140). -/
  | vminp (e : Eng) (f : VForm)
  /-- VMAXP (R140). -/
  | vmaxp (e : Eng) (f : VForm)
  /-- VMINUP (R140). -/
  | vminup (e : Eng) (f : VForm)
  /-- VMAXUP (R140). -/
  | vmaxup (e : Eng) (f : VForm)
  /-- VCMPEQ (R141). -/
  | vcmpeq (e : Eng) (f : VForm) (pair : Bool)
  /-- VCMPNE (R141). -/
  | vcmpne (e : Eng) (f : VForm) (pair : Bool)
  /-- VCMPLT (R141). -/
  | vcmplt (e : Eng) (f : VForm) (pair : Bool)
  /-- VCMPGE (R141). -/
  | vcmpge (e : Eng) (f : VForm) (pair : Bool)
  /-- VCMPLTU (R141). -/
  | vcmpltu (e : Eng) (f : VForm) (pair : Bool)
  /-- VCMPGEU (R141). -/
  | vcmpgeu (e : Eng) (f : VForm) (pair : Bool)
  /-- VCMPLE (R141). -/
  | vcmple (e : Eng) (f : VForm) (pair : Bool)
  /-- VCMPGT (R141). -/
  | vcmpgt (e : Eng) (f : VForm) (pair : Bool)
  /-- VCMPLEU (R141). -/
  | vcmpleu (e : Eng) (f : VForm) (pair : Bool)
  /-- VCMPGTU (R141). -/
  | vcmpgtu (e : Eng) (f : VForm) (pair : Bool)
  /-- PAND (R142). -/
  | pand (e : Eng) (f : VForm)
  /-- POR (R142). -/
  | por (e : Eng) (f : VForm)
  /-- PXOR (R142). -/
  | pxor (e : Eng) (f : VForm)
  /-- PANDN (R142). -/
  | pandn (e : Eng) (f : VForm)
  /-- PNOT (R142). -/
  | pnot (e : Eng) (f : VForm)
  /-- PMOVS (R142). -/
  | pmovs (e : Eng) (f : VForm)
  /-- PSET (R142). -/
  | pset (e : Eng) (f : VForm)
  /-- PPOPC (R142). -/
  | ppopc (e : Eng) (f : VForm)
  /-- PFIRST (R142). -/
  | pfirst (e : Eng) (f : VForm)
  /-- VMTOP (R142). -/
  | vmtop (e : Eng) (f : VForm)
  /-- PTOVM (R142). -/
  | ptovm (e : Eng) (f : VForm)
  /-- VMAND (R142). -/
  | vmand (e : Eng) (f : VForm)
  /-- VMOV (R143). -/
  | vmov (e : Eng) (f : VForm)
  /-- VSPLAT (R143). -/
  | vsplat (e : Eng) (f : VForm)
  /-- VIOTA (R143). -/
  | viota (e : Eng) (f : VForm)
  /-- VSEL (R143). -/
  | vsel (e : Eng) (f : VForm)
  /-- VCOMPRESS (R143). -/
  | vcompress (e : Eng) (f : VForm)
  /-- VEXPAND (R143). -/
  | vexpand (e : Eng) (f : VForm)
  /-- VPERM (R143). -/
  | vperm (e : Eng) (f : VForm)
  /-- VMOVS (R143). -/
  | vmovs (e : Eng) (f : VForm) (lane : BitVec 4)
  /-- VMOVV (R143). -/
  | vmovv (e : Eng) (f : VForm) (lane : BitVec 4)
  /-- VSORT (R145). -/
  | vsort (e : Eng) (f : VForm) (m : SortMode)
  /-- VMERGE (R146). -/
  | vmerge (e : Eng) (f : VForm) (m : SortMode)
  /-- VSCAN (R147). -/
  | vscan (e : Eng) (f : VForm)
  /-- VSCANX (R147). -/
  | vscanx (e : Eng) (f : VForm)
  /-- VRSUM (R147). -/
  | vrsum (e : Eng) (f : VForm)
  /-- VRSUMU (R147). -/
  | vrsumu (e : Eng) (f : VForm)
  /-- VRMIN (R147). -/
  | vrmin (e : Eng) (f : VForm)
  /-- VRMAX (R147). -/
  | vrmax (e : Eng) (f : VForm)
  /-- VRMINU (R147). -/
  | vrminu (e : Eng) (f : VForm)
  /-- VRMAXU (R147). -/
  | vrmaxu (e : Eng) (f : VForm)
  /-- VRCNT (R147). -/
  | vrcnt (e : Eng) (f : VForm)
  /-- VRASUM (R147). -/
  | vrasum (e : Eng) (f : VForm)
  /-- VACC (R147). -/
  | vacc (e : Eng) (f : VForm)
  /-- VACCU (R147). -/
  | vaccu (e : Eng) (f : VForm)
  /-- VACCM (R147). -/
  | vaccm (e : Eng) (f : VForm)
  /-- VACCMU (R147). -/
  | vaccmu (e : Eng) (f : VForm)
  /-- VACLR (R147). -/
  | vaclr (e : Eng) (f : VForm)
  /-- VAMOV (R147). -/
  | vamov (e : Eng) (f : VForm)
  /-- VFADD (R150). -/
  | vfadd (e : Eng) (f : VForm) (dbl : Bool)
  /-- VFSUB (R150). -/
  | vfsub (e : Eng) (f : VForm) (dbl : Bool)
  /-- VFMUL (R150). -/
  | vfmul (e : Eng) (f : VForm) (dbl : Bool)
  /-- VFDIV (R150). -/
  | vfdiv (e : Eng) (f : VForm) (dbl : Bool)
  /-- VFSQRT (R150). -/
  | vfsqrt (e : Eng) (f : VForm) (dbl : Bool)
  /-- VFMIN (R151). -/
  | vfmin (e : Eng) (f : VForm) (dbl : Bool)
  /-- VFMAX (R151). -/
  | vfmax (e : Eng) (f : VForm) (dbl : Bool)
  /-- VFEQ (R151). -/
  | vfeq (e : Eng) (f : VForm) (dbl : Bool)
  /-- VFLT (R151). -/
  | vflt (e : Eng) (f : VForm) (dbl : Bool)
  /-- VFLE (R151). -/
  | vfle (e : Eng) (f : VForm) (dbl : Bool)
  /-- VCVTFI (R153). -/
  | vcvtfi (e : Eng) (f : VForm)
  /-- VCVTFU (R153). -/
  | vcvtfu (e : Eng) (f : VForm)
  /-- VCVTIF (R153). -/
  | vcvtif (e : Eng) (f : VForm)
  /-- VCVTUF (R153). -/
  | vcvtuf (e : Eng) (f : VForm)
  /-- VWIDENI (R153). -/
  | vwideni (e : Eng) (f : VForm) (h : Bool)
  /-- VWIDENU (R153). -/
  | vwidenu (e : Eng) (f : VForm) (h : Bool)
  /-- VWIDENF (R153). -/
  | vwidenf (e : Eng) (f : VForm) (h : Bool)
  /-- VNARROWI (R153). -/
  | vnarrowi (e : Eng) (f : VForm) (h : Bool)
  /-- VNARROWF (R153). -/
  | vnarrowf (e : Eng) (f : VForm) (h : Bool)
  /-- VCVTDI (R153). -/
  | vcvtdi (e : Eng) (f : VForm)
  /-- VCVTID (R153). -/
  | vcvtid (e : Eng) (f : VForm)
  /-- VGATHER (R154). -/
  | vgather (e : Eng) (f : VForm) (g : GatherMode)
  /-- VACCT (R155). -/
  | vacct (e : Eng) (f : VForm)
  /-- VLD (R137). -/
  | vld (e : Eng) (f : VWForm) (pair : Bool)
  /-- VST (R137). -/
  | vst (e : Eng) (f : VWForm) (pair : Bool)
  /-- PLD (R137). -/
  | pld (e : Eng) (f : VWForm)
  /-- PST (R137). -/
  | pst (e : Eng) (f : VWForm)
  /-- VMLD (R137). -/
  | vmld (e : Eng) (f : VWForm)
  /-- VMST (R137). -/
  | vmst (e : Eng) (f : VWForm)
  /-- STREAM_HEADER_ARRIVAL (R167). -/
  | streamHeaderArrival (e : Eng) (k : StreamNo)
  /-- STREAM_LINE_ARRIVAL (R174). -/
  | streamLineArrival (e : Eng) (k : StreamNo) (line : Nat)
  /-- STREAM_UNIT_WRITE (R170). -/
  | streamUnitWrite (e : Eng) (k : StreamNo)
  /-- STREAM_CONSUMED_POLL (R176). -/
  | streamConsumedPoll (e : Eng) (k : StreamNo)
  /-- SIEVE_JOB_COPY (R189). -/
  | sieveJobCopy (e : Eng) (k : JobCopy)
  /-- SIEVE_JOB_ARRIVAL (R197). -/
  | sieveJobArrival (c : Chan) (e : Eng) (k : StreamNo)
  /-- SIEVE_TURN (R197). -/
  | sieveTurn (c : Chan) (o : TurnOutcome)
  /-- SIEVE_RESULT_ARRIVAL (R195). -/
  | sieveResultArrival (e : Eng) (k : StreamNo) (c : Chan)
  /-- SIEVE_JOB_AGED (R197). -/
  | sieveJobAged (c : Chan) (e : Eng) (k : StreamNo)
  /-- CAM_PORT_SEND (R220). -/
  | camPortSend (t : Tile)
  /-- CAM_SEARCH_SERVE (R211). -/
  | camSearchServe (e : Eng) (fl : List Flip)
  /-- CAM_SEARCH_INSERT_SERVE (R213). -/
  | camSearchInsertServe (e : Eng) (fl : List Flip)
  /-- CAM_INSERT_SERVE (R214). -/
  | camInsertServe (e : Eng) (fl : List Flip)
  /-- CAM_DELETE_SERVE (R217). -/
  | camDeleteServe (e : Eng) (fl : List Flip)
  /-- CAM_WRITE_SERVE (R217). -/
  | camWriteServe (e : Eng) (fl : List Flip)
  /-- CAM_READ_SERVE (R217). -/
  | camReadServe (e : Eng) (fl : List Flip)
  /-- RESPACER_MOVE (R218). -/
  | respacerMove (b : Bank) (off : Nat) (up : Bool)
  /-- CAM_PARITY_SCAN_READ (R225). -/
  | camParityScanRead (b : Bank) (fl : List Flip)
  /-- SHADOW_QUEUE_WRITE (R224). -/
  | shadowQueueWrite (t : Tile)
  /-- CAM_CFG_WRITE (R206). -/
  | camCfgWrite (b : Bank) (w : RegAccess)
  /-- CAM_CLEAR (R206). -/
  | camClear (b : Bank) (w : RegAccess)
  /-- FLIGHT_RUN (R284). -/
  | flightRun (p : Part) (q : QueueId) (i : Nat) (pick : Nat)
  /-- FLOW_RELEASE (R252). -/
  | flowRelease (p : Part) (flow : Nat)
  /-- SYSTEM_THREAD_DISPATCH (R242). -/
  | systemThreadDispatch (u : ServiceUnit)
  /-- DOORBELL (R263). -/
  | doorbell (p : Part) (q : QueueId) (w : RegAccess)
  /-- QUEUE_ENTRY_READ (R263). -/
  | queueEntryRead (p : Part) (q : QueueId)
  /-- ENTRY_COMPLETION (R265). -/
  | entryCompletion (p : Part) (q : QueueId) (i : Nat)
  /-- MSI_TIMER_EXPIRY (R279). -/
  | msiTimerExpiry (p : Part) (q : QueueId)
  /-- CREATE_QUEUE (R283). -/
  | createQueue (p : Part) (i : Nat)
  /-- DELETE_QUEUE (R283). -/
  | deleteQueue (p : Part) (i : Nat)
  /-- RESET_QUEUE (R275). -/
  | resetQueue (p : Part) (i : Nat)
  /-- ABORT (R276). -/
  | abortEntry (p : Part) (i : Nat)
  /-- GET_QUEUE (R282). -/
  | getQueue (p : Part) (i : Nat)
  /-- SET_MODERATION (R283). -/
  | setModeration (p : Part) (i : Nat)
  /-- CAM_CONFIG (R283). -/
  | camConfig (p : Part) (i : Nat)
  /-- GET_PARTITION (R481). -/
  | getPartition (p : Part) (i : Nat)
  /-- ADMIN_RESET_ABORT (R275). -/
  | adminResetAbort (p : Part) (w : RegAccess)
  /-- ADMIN_RESET_RESUME (R275). -/
  | adminResetResume (p : Part) (w : RegAccess)
  /-- PRT_ADMIN_CFG_WRITE (R291). -/
  | prtAdminCfgWrite (p : Part) (w : RegAccess)
  /-- PRT_ADMIN_MOD_WRITE (R283). -/
  | prtAdminModWrite (p : Part) (w : RegAccess)
  /-- ALLOC (R301). -/
  | alloc (p : Part) (q : QueueId) (i : Nat) (pick : Nat) (blk : Nat)
  /-- FREE (R302). -/
  | free (p : Part) (q : QueueId) (i : Nat)
  /-- PIN (R302). -/
  | pin (p : Part) (q : QueueId) (i : Nat)
  /-- UNPIN (R302). -/
  | unpin (p : Part) (q : QueueId) (i : Nat)
  /-- QUERY (R286). -/
  | query (p : Part) (q : QueueId) (i : Nat)
  /-- PAGE_IN (R302). -/
  | pageIn (p : Part) (q : QueueId) (i : Nat)
  /-- SEGMENT_FREE_RELEASE (R302). -/
  | segmentFreeRelease (h : Nat)
  /-- COMPRESS (R456). -/
  | compress (p : Part) (q : QueueId) (i : Nat) (mis : Bool)
  /-- DECOMPRESS (R458). -/
  | decompress (p : Part) (q : QueueId) (i : Nat)
  /-- CODEC_DISPATCH (R477). -/
  | codecDispatch (k : CodecId)
  /-- LOAD_KEY (R466). -/
  | loadKey (p : Part) (q : QueueId) (i : Nat)
  /-- HASH (R466). -/
  | hash (p : Part) (q : QueueId) (i : Nat)
  /-- RELEASE (R463). -/
  | release (p : Part) (q : QueueId) (i : Nat)
  /-- DONATE (R292). -/
  | donate (w : RegAccess)
  /-- RECLAIM (R295). -/
  | reclaim (w : RegAccess)
  /-- PGR_CTL_WRITE (R313). -/
  | pgrCtlWrite (w : RegAccess)
  /-- PAGE_OUT (R308). -/
  | pageOut (h : Nat) (k : CodecId) (k2 : CodecId) (mis : Nat)
  /-- PAGER_PAGE_IN (R310). -/
  | pagerPageIn (h : Nat) (k : CodecId) (pick : Nat) (fl : List MemberFail)
  /-- CXL_TIER_MOVE (R309). -/
  | cxlTierMove (h : Nat) (k : CodecId) (k2 : CodecId) (mis : Nat)
  /-- L1_FILL_COMPLETE (R318). -/
  | l1FillComplete (e : Eng)
  /-- MEZZANINE_SECTOR_ARRIVAL (R321). -/
  | mezzanineSectorArrival (t : Tile) (pa : Nat)
  /-- VICTIM_WRITE_START (R575). -/
  | victimWriteStart (t : Tile)
  /-- VICTIM_WRITE_ACCEPT (R324). -/
  | victimWriteAccept (t : Tile)
  /-- GALLERY_REQUEST (R336). -/
  | galleryRequest (t : Tile) (o : EccOutcome)
  /-- GALLERY_VICTIM_WRITEBACK (R340). -/
  | galleryVictimWriteback (t : Tile)
  /-- CORE_FENCE (R345). -/
  | coreFence (h : Hart) (pred : FenceSet) (succ : FenceSet)
  /-- CBO_CLEAN (R346). -/
  | cboClean (h : Hart) (acc : CoreAccess)
  /-- CBO_FLUSH (R346). -/
  | cboFlush (h : Hart) (acc : CoreAccess)
  /-- CBO_INVAL (R346). -/
  | cboInval (h : Hart) (acc : CoreAccess)
  /-- CBO_ZERO (R346). -/
  | cboZero (h : Hart) (acc : CoreAccess)
  /-- CORE_MISALIGNED_ACCESS (R347). -/
  | coreMisalignedAccess (h : Hart) (acc : CoreAccess)
  /-- CORE_LR (R352). -/
  | coreLr (h : Hart) (acc : CoreAccess)
  /-- CORE_SC (R352). -/
  | coreSc (h : Hart) (acc : CoreAccess) (v : BitVec 64) (spurious : Bool)
  /-- CORE_AMO (R350). -/
  | coreAmo (h : Hart) (acc : CoreAccess) (op : AmoOp) (v : BitVec 64)
  /-- CONTROL_WINDOW_LOAD (R354). -/
  | controlWindowLoad (h : Hart) (ag : Agent) (off : Nat) (size : Nat)
  /-- CONTROL_WINDOW_STORE (R354). -/
  | controlWindowStore (h : Hart) (ag : Agent) (off : Nat) (size : Nat) (v : BitVec 64)
  /-- WFI (R384). -/
  | wfi (h : Hart)
  /-- DEEP_IDLE_ENTRY (R384). -/
  | deepIdleEntry (h : Hart)
  /-- PACKAGE_DEEP_IDLE_ENTRY (R384). -/
  | packageDeepIdleEntry
  /-- HART_WAKE (R385). -/
  | hartWake (h : Hart)
  /-- IMSIC_WRITE (R377). -/
  | imsicWrite (addr : Nat) (data : BitVec 32)
  /-- DRAM_READ_ISSUE (R394). -/
  | dramReadIssue (c : Chan) (o : EccOutcome)
  /-- WRITE_QUEUE_DRAIN (R395). -/
  | writeQueueDrain (c : Chan)
  /-- DRAM_REQUEST_PROMOTION (R394). -/
  | dramRequestPromotion (c : Chan) (i : Nat)
  /-- REFRESH_WINDOW_START (R403). -/
  | refreshWindowStart (c : Chan)
  /-- DQS_OSCILLATOR_READ (R404). -/
  | dqsOscillatorRead (c : Chan) (drift : BitVec 16)
  /-- LINK_RETRAINING (R406). -/
  | linkRetraining (c : Chan) (o : RetrainOutcome)
  /-- DRAM_ALERT (R407). -/
  | dramAlert (c : Chan) (sub : Bool) (k : AlertKind)
  /-- PATROL_SCRUB_READ (R402). -/
  | patrolScrubRead (c : Chan) (o : EccOutcome)
  /-- CE_WINDOW_EXPIRY (R400). -/
  | ceWindowExpiry (c : Chan)
  /-- LEDGER_READ (R419). -/
  | ledgerRead (p : Part) (q : QueueId) (i : Nat) (fl : List MemberFail)
  /-- LEDGER_WRITE (R422). -/
  | ledgerWrite (p : Part) (q : QueueId) (i : Nat)
  /-- LEDGER_FLUSH (R426). -/
  | ledgerFlush (p : Part) (q : QueueId) (i : Nat)
  /-- DEALLOCATE (R431). -/
  | deallocate (p : Part) (q : QueueId) (i : Nat)
  /-- WRITE_ZEROES (R431). -/
  | writeZeroes (p : Part) (q : QueueId) (i : Nat)
  /-- LEDGER_ABORT (R430). -/
  | ledgerAbort (p : Part) (q : QueueId) (i : Nat)
  /-- WRITE_BUFFER_DRAIN (R427). -/
  | writeBufferDrain (sp : Option (StackId × Nat))
  /-- STACK_FAILURE (R414). -/
  | stackFailure (k : StackId) (o : StackFault)
  /-- SELFTEST_SHORT_START (R432). -/
  | selftestShortStart (w : RegAccess)
  /-- SELFTEST_EXTENDED_START (R432). -/
  | selftestExtendedStart (w : RegAccess)
  /-- SELFTEST_ABORT (R432). -/
  | selftestAbort (w : RegAccess)
  /-- SELFTEST_RESUME (R432). -/
  | selftestResume
  /-- SELFTEST_COMPLETE (R432). -/
  | selftestComplete (fail : Option StackId) (fl : List MemberFail)
  /-- ADC_SAMPLE (R438). -/
  | adcSample (v : BitVec 16) (i : BitVec 16) (t : BitVec 16)
  /-- HOLDUP_LOOP (R440). -/
  | holdupLoop
  /-- CHARGE_TERMINATION (R439). -/
  | chargeTermination
  /-- PAGE_DIRTY (R435). -/
  | pageDirty (pg : Nat)
  /-- DIRTY_MAP_RECORD_COMPLETE (R435). -/
  | dirtyMapRecordComplete (pg : Nat)
  /-- CLEANER_PAGE_CLEAN (R436). -/
  | cleanerPageClean
  /-- HELD_WRITE_RELEASE (R441). -/
  | heldWriteRelease (i : Nat)
  /-- PWRFAIL_ACCEPT (R442). -/
  | pwrfailAccept (o : DrainEnv)
  /-- DGST_START (R464). -/
  | dgstStart (s : SlotId) (w : RegAccess)
  /-- DGST_SQUEEZE (R464). -/
  | dgstSqueeze (s : SlotId) (w : RegAccess)
  /-- DGST_SAVE (R464). -/
  | dgstSave (s : SlotId) (w : RegAccess)
  /-- DGST_COMPARE (R468). -/
  | dgstCompare (s : SlotId) (w : RegAccess)
  /-- DGST_RELEASE (R463). -/
  | dgstRelease (s : SlotId) (w : RegAccess)
  /-- DGST_DATA_WRITE (R464). -/
  | dgstDataWrite (s : SlotId) (w : RegAccess)
  /-- PERMUTATION_COMPLETE (R461). -/
  | permutationComplete (s : SlotId)
  /-- DGST_SLOT_ASSIGN (R462). -/
  | dgstSlotAssign (s : SlotId) (w : RegAccess)
  /-- PART_CREATE (R473). -/
  | partCreate
  /-- PART_DESTROY (R478). -/
  | partDestroy
  /-- PART_ENGINES (R475). -/
  | partEngines
  /-- PART_FREEZE (R482). -/
  | partFreeze
  /-- PART_RESUME (R489). -/
  | partResume
  /-- PART_SAVE (R485). -/
  | partSave
  /-- PART_RESTORE (R488). -/
  | partRestore
  /-- PART_LOG (R484). -/
  | partLog
  /-- MAILBOX_DOORBELL (R490). -/
  | mailboxDoorbell (w : RegAccess)
  /-- FW_INFO (R496). -/
  | fwInfo
  /-- FW_STAGE (R502). -/
  | fwStage
  /-- FW_ACTIVATE (R503). -/
  | fwActivate
  /-- ACTIVATION_PAUSE (R503). -/
  | activationPause
  /-- SETTINGS_GET (R496). -/
  | settingsGet
  /-- SETTINGS_SET (R510). -/
  | settingsSet
  /-- NS_CREATE (R417). -/
  | nsCreate
  /-- NS_DELETE (R417). -/
  | nsDelete
  /-- LDG_SELFTEST (R432). -/
  | ldgSelftest
  /-- NS_ATTACH (R418). -/
  | nsAttach
  /-- PWR_CEILING (R383). -/
  | pwrCeiling
  /-- PWR_INFO (R496). -/
  | pwrInfo
  /-- BEAT_SET (R496). -/
  | beatSet
  /-- HUP_CONFIG (R496). -/
  | hupConfig
  /-- HUP_WINDOW (R434). -/
  | hupWindow
  /-- HUP_DISCARD (R496). -/
  | hupDiscard
  /-- SNAP_TRIGGER (R525). -/
  | snapTrigger
  /-- SNAP_READ (R496). -/
  | snapRead
  /-- LIFE_READ (R496). -/
  | lifeRead
  /-- LIFE_MIRROR (R530). -/
  | lifeMirror
  /-- INJECT (R524). -/
  | inject
  /-- ID_CERTS (R513). -/
  | idCerts
  /-- ATTEST (R513). -/
  | attest
  /-- REC_INFO (R509). -/
  | recInfo
  /-- REC_LOAD (R509). -/
  | recLoad (flash : Bool)
  /-- REC_BOOT (R509). -/
  | recBoot
  /-- RESULT_GET (R496). -/
  | resultGet
  /-- LONG_COMMAND_END (R495). -/
  | longCommandEnd (i : Nat) (o : EndEnv)
  /-- EVENT_POP (R495). -/
  | eventPop (w : RegAccess)
  /-- HEALTH_CONFIRMATION (R505). -/
  | healthConfirmation (ok : Bool)
  /-- TRIAL_TIMER_EXPIRY (R506). -/
  | trialTimerExpiry
  /-- MESH_LINK_FAILURE (R516). -/
  | meshLinkFailure (t : Tile) (d : LinkDir)
  /-- ROUTER_FAILURE (R516). -/
  | routerFailure (t : Tile)
  /-- EVENT_RECORD_WRITE (R521). -/
  | eventRecordWrite
  /-- COALESCE_WINDOW_EXPIRY (R520). -/
  | coalesceWindowExpiry (cls : BitVec 8) (inst : BitVec 16)
  /-- EVENT_RING_MSI_TIMER (R521). -/
  | eventRingMsiTimer
  /-- FATAL_EVENT (R523). -/
  | fatalEvent (t : Tile) (cause : BitVec 32)
  /-- SNAP_N_EDGE (R525). -/
  | snapNEdge
  /-- SNAP_RELEASE (R525). -/
  | snapRelease (w : RegAccess)
  /-- LIFETIME_LOG_WRITE (R529). -/
  | lifetimeLogWrite
  /-- LIFETIME_LOG_MIRROR (R530). -/
  | lifetimeLogMirror (ok : Bool)
  /-- REGISTER_WRITE (R4). -/
  | registerWrite (off : Nat) (w : RegAccess)
  /-- COLD_RESET (R560). -/
  | coldReset (o : BootEnv)
  /-- WARM_RESET (R561). -/
  | warmReset
  /-- WARM_RESET_RELEASE (R563). -/
  | warmResetRelease (o : BootEnv)
  /-- PWROK_FALL (R557). -/
  | pwrokFall (o : DrainEnv)
  /-- REFCLK_LOSS (R558). -/
  | refclkLoss
  /-- VR_TIMEOUT (R565). -/
  | vrTimeout (hall : Hall) (ms100 : Bool)
  /-- POWER_LOOP (R566). -/
  | powerLoop (watts : Nat)
  /-- HALL_POWER_CHECK (R567). -/
  | hallPowerCheck (hall : Hall) (watts : Nat)
  /-- THERMAL_SENSOR_READ (R568). -/
  | thermalSensorRead (tw : Nat) (te : Nat) (tf : Nat) (o : DrainEnv)
  /-- PROCHOT_IN (R569). -/
  | prochotIn (low : Bool)
  /-- UART_TX_GO (R573). -/
  | uartTxGo (w : RegAccess)
  /-- UART_RX_POP (R573). -/
  | uartRxPop (w : RegAccess)
  /-- UART_RX_BYTE (R573). -/
  | uartRxByte (b : Byte)
  /-- DMI_ACCESS (R571). -/
  | dmiAccess (addr : BitVec 32) (data : BitVec 32) (wr : Bool)
  /-- I3C_GETSTATUS (R572). -/
  | i3cGetstatus
  /-- DISCHARGE_DISABLE (R443). -/
  | dischargeDisable
  /-- ERROR_CHARGE_EXPIRY (R334). -/
  | errorChargeExpiry (k : ChargeKind)
  /-- UART_TX_BYTE_SENT (R573). -/
  | uartTxByteSent
  /-- JTAG_INSTRUCTION (R571). -/
  | jtagInstruction (ins : JtagIns)
  /-- DRAM_REFRESH_COMMAND (R403). -/
  | dramRefreshCommand (c : Chan)
  /-- ROOT_PORT_LINK_CHANGE (R559). -/
  | rootPortLinkChange (rp : RootPort) (ev : LinkEvent)
  /-- INBOUND_DEVICE_REQUEST (R356). -/
  | inboundDeviceRequest (rp : RootPort) (req : DeviceReq)
  /-- DEVICE_COMPLETION_TIMEOUT (R357). -/
  | deviceCompletionTimeout (rp : RootPort) (h : Hart)
  /-- CORE_LOAD_STORE (R344). -/
  | coreLoadStore (h : Hart) (acc : CoreAccess)
  /-- VOLTAGE_SET_POINT_REACHED (R564). -/
  | voltageSetPointReached (hall : Hall) (mv : Nat)
  /-- IOMMU_COMMAND (R381). -/
  | iommuCommand
  deriving DecidableEq, Repr

end Sys2Proof
end

