-- ==== Sys2Proof/Machine/Encoding.lean ====
section
/-! DEFINITION. The encoding of Sirto instructions: word formats, the word of an instruction and the
legality of its fields (R95 to R97, R126, R128, R131 to R133, R144). -/

namespace Sys2Proof.Machine

open Sys2Proof

/-- S format (R95). -/
def wordS (op : BitVec 6) (f : SForm) (funct : BitVec 11) : InstrWord :=
  op ++ f.rd ++ f.rs1 ++ f.rs2 ++ funct

/-- I format (R95). -/
def wordI (op : BitVec 6) (f : IForm) : InstrWord :=
  op ++ f.rd ++ f.rs1 ++ f.imm

/-- The immediate shifts: imm16[7:6] selects the shift (R100). -/
def wordSh (f : ShForm) (sel : BitVec 2) : InstrWord :=
  (0x09 : BitVec 6) ++ f.rd ++ f.rs1 ++ f.hi ++ sel ++ f.sh

/-- The extracts: imm16[12] selects the sign (R100). -/
def wordExt (f : ExtForm) (sel : BitVec 1) : InstrWord :=
  (0x0a : BitVec 6) ++ f.rd ++ f.rs1 ++ f.hi ++ sel ++ f.len ++ f.pos

/-- M format (R95). -/
def wordM (op : BitVec 6) (f : MForm) (funct : BitVec 4) : InstrWord :=
  op ++ f.rt ++ f.rs1 ++ funct ++ f.imm

/-- C format (R95). -/
def wordC (op : BitVec 6) (f : CForm) (funct : BitVec 5) : InstrWord :=
  op ++ f.rd ++ f.rs1 ++ f.rs2 ++ funct ++ f.aux

/-- B format (R95). -/
def wordB (op : BitVec 6) (f : BForm) : InstrWord :=
  op ++ f.a ++ f.b ++ f.off

/-- The predicate branches with their condition field (R103). -/
def wordP (f : PForm) (cond : BitVec 5) : InstrWord :=
  (0x1f : BitVec 6) ++ f.a ++ cond ++ f.off

/-- V format (R95). -/
def wordV (op : BitVec 6) (f : VForm) (funct : BitVec 9) : InstrWord :=
  op ++ f.vd ++ f.vs1 ++ f.src2 ++ f.pm ++ BitVec.ofBool f.f ++ funct

/-- VW format (R95). -/
def wordVW (op : BitVec 6) (f : VWForm) (funct : BitVec 4) : InstrWord :=
  op ++ f.vd ++ f.rs1 ++ f.width ++ BitVec.ofBool f.sx ++ f.conv ++ f.pm ++ funct

/-- funct9 of a sort or merge (R144). -/
def sortFunct (m : SortMode) (merge : Bool) : BitVec 9 :=
  (0 : BitVec 5) ++ BitVec.ofBool m.i ++ BitVec.ofBool merge ++ BitVec.ofBool m.d ++ BitVec.ofBool m.s

/-- funct9 of VGATHER (R154). -/
def gatherFunct (g : GatherMode) : BitVec 9 :=
  (0 : BitVec 5) ++ BitVec.ofBool g.sc ++ BitVec.ofBool g.sx ++ g.size

/-- EXT and EXTS: the reserved bits are 0 and the field ends within the register (R100). -/
def legalExt (f : ExtForm) : Bool :=
  f.hi == 0 && decide (f.pos.toNat + f.len.toNat + 1 ≤ 64)

/-- A C-format instruction without operands. -/
def legalNone (f : CForm) : Bool := f.rd == 0 && f.rs1 == 0 && f.rs2 == 0 && f.aux == 0
def legalCrr (f : CForm) : Bool := f.rs1 == 0 && f.rs2 == 0
def legalCrw (f : CForm) : Bool := f.rd == 0 && f.rs2 == 0
/-- CLEAN, INV and CLINV: aux6[5:2] is 0 (R108). -/
def legalMaint (f : CForm) : Bool := f.rd == 0 && f.rs2 == 0 && f.aux.extractLsb' 2 4 == 0
def legalSopen (f : CForm) : Bool := f.rs2 == 0 && f.aux == 0
def legalSwait (f : CForm) : Bool := f.aux == 0
def legalSclose (f : CForm) : Bool := f.rd == 0 && f.rs2 == 0 && f.aux == 0
/-- CAM instructions: aux6[5:2] is 0. -/
def legalCamAll (f : CForm) : Bool := f.aux.extractLsb' 2 4 == 0
def legalCamKey (f : CForm) : Bool := f.rs1 == 0 && legalCamAll f
def legalCamAddr (f : CForm) : Bool := f.rs2 == 0 && legalCamAll f

/-- A second operand that is a vector register has its bit [17] 0 (R95). -/
def legalTwo (f : VForm) : Bool := f.f || f.src2.extractLsb' 4 1 == 0
/-- No second operand: src2 and F are 0 (R126). -/
def legalOne (f : VForm) : Bool := !f.f && f.src2 == 0
/-- A predicate destination has bit 3 of its field 0 (R128). -/
def legalCmp (f : VForm) : Bool := legalTwo f && f.vd.extractLsb' 3 1 == 0
def legalPred2 (f : VForm) : Bool :=
  f.pm == 0 && !f.f && f.vd.extractLsb' 3 1 == 0 && f.vs1.extractLsb' 3 1 == 0 && f.src2.extractLsb' 3 2 == 0
def legalPred1 (f : VForm) : Bool :=
  f.pm == 0 && legalOne f && f.vd.extractLsb' 3 1 == 0 && f.vs1.extractLsb' 3 1 == 0
def legalPredToScalar (f : VForm) : Bool :=
  f.pm == 0 && f.f && f.vd == 0 && f.vs1.extractLsb' 3 1 == 0
def legalPset (f : VForm) : Bool := f.pm == 0 && f.f && f.vd.extractLsb' 3 1 == 0 && f.vs1 == 0
def legalVmtop (f : VForm) : Bool := f.pm == 0 && legalOne f && f.vd.extractLsb' 3 1 == 0
def legalPtovm (f : VForm) : Bool := f.pm == 0 && legalOne f && f.vs1.extractLsb' 3 1 == 0
/-- A scalar operand and no vector source (R126). -/
def legalSplat (f : VForm) : Bool := f.f && f.vs1 == 0
/-- VPERM: vs2 is even (R128). -/
def legalPerm (f : VForm) : Bool := !f.f && f.src2.extractLsb' 4 1 == 0 && f.src2.extractLsb' 0 1 == 0
/-- VSCAN: a scalar carry-in or none (R147, R126). -/
def legalScan (f : VForm) : Bool := f.f || f.src2 == 0
def legalRasum (f : VForm) : Bool := legalOne f && f.vs1.extractLsb' 3 1 == 0
def legalAcc1 (f : VForm) : Bool := legalOne f && f.vd.extractLsb' 3 1 == 0
def legalAcc2 (f : VForm) : Bool := legalTwo f && f.vd.extractLsb' 3 1 == 0
def legalAclr (f : VForm) : Bool := legalOne f && f.vd.extractLsb' 3 1 == 0 && f.vs1 == 0
/-- VAMOV writes vd and vd + 1, so vd is even (R128, R147). -/
def legalAmov (f : VForm) : Bool :=
  legalOne f && f.vd.extractLsb' 0 1 == 0 && f.vs1.extractLsb' 3 1 == 0 && f.pm == 0
/-- Sort and merge write vd and vd + 1 (R128, R144). -/
def legalSort (f : VForm) : Bool :=
  !f.f && f.src2.extractLsb' 4 1 == 0 && f.vd.extractLsb' 0 1 == 0 && f.pm == 0

/-- VLD and VST: widths and conversions (R132, R133). -/
def legalPacked (f : VWForm) (pair : Bool) : Bool :=
  let w := f.width.toNat + 1
  (pair || decide (w ≤ 40)) &&
  match f.conv.toNat with
  | 0 => true
  | 1 => !f.sx && (bif pair then w == 64 else w == 32)
  | 2 => !f.sx && !pair && w % 8 == 0
  | _ => false

/-- Bitmap loads and stores: width, SX, CONV and pm are 0 (R137). -/
def legalBitmap (f : VWForm) : Bool := f.width == 0 && !f.sx && f.conv == 0 && f.pm == 0
def legalBitmapP (f : VWForm) : Bool := legalBitmap f && f.vd.extractLsb' 3 1 == 0

/-- The word of a Sirto instruction (R95, R97, R131); none for a command that is no instruction. -/
def sirtoWord (i : Instr) : Option InstrWord :=
  match i with
  | .add _ f => some (wordS 0x01 f 0x0)
  | .sub _ f => some (wordS 0x01 f 0x1)
  | .andOp _ f => some (wordS 0x01 f 0x2)
  | .orOp _ f => some (wordS 0x01 f 0x3)
  | .xor _ f => some (wordS 0x01 f 0x4)
  | .andn _ f => some (wordS 0x01 f 0x5)
  | .sll _ f => some (wordS 0x01 f 0x6)
  | .srl _ f => some (wordS 0x01 f 0x7)
  | .sra _ f => some (wordS 0x01 f 0x8)
  | .slt _ f => some (wordS 0x01 f 0x9)
  | .sltu _ f => some (wordS 0x01 f 0xa)
  | .min _ f => some (wordS 0x01 f 0xb)
  | .max _ f => some (wordS 0x01 f 0xc)
  | .minu _ f => some (wordS 0x01 f 0xd)
  | .maxu _ f => some (wordS 0x01 f 0xe)
  | .clz _ f => some (wordS 0x01 f 0x10)
  | .ctz _ f => some (wordS 0x01 f 0x11)
  | .popc _ f => some (wordS 0x01 f 0x12)
  | .mul _ f => some (wordS 0x01 f 0x20)
  | .mulh _ f => some (wordS 0x01 f 0x21)
  | .mulhu _ f => some (wordS 0x01 f 0x22)
  | .div _ f => some (wordS 0x01 f 0x28)
  | .divu _ f => some (wordS 0x01 f 0x29)
  | .rem _ f => some (wordS 0x01 f 0x2a)
  | .remu _ f => some (wordS 0x01 f 0x2b)
  | .addi _ f => some (wordI 0x2 f)
  | .andi _ f => some (wordI 0x3 f)
  | .ori _ f => some (wordI 0x4 f)
  | .xori _ f => some (wordI 0x5 f)
  | .slti _ f => some (wordI 0x6 f)
  | .sltiu _ f => some (wordI 0x7 f)
  | .lui _ f => some (wordI 0x8 f)
  | .jalr _ f => some (wordI 0xb f)
  | .slli _ f => some (wordSh f 0)
  | .srli _ f => some (wordSh f 1)
  | .srai _ f => some (wordSh f 2)
  | .ext _ f => some (wordExt f 0)
  | .exts _ f => some (wordExt f 1)
  | .lb _ f => some (wordM 0x10 f 0x0)
  | .lh _ f => some (wordM 0x10 f 0x1)
  | .lw _ f => some (wordM 0x10 f 0x2)
  | .ld _ f => some (wordM 0x10 f 0x3)
  | .lbu _ f => some (wordM 0x10 f 0x4)
  | .lhu _ f => some (wordM 0x10 f 0x5)
  | .lwu _ f => some (wordM 0x10 f 0x6)
  | .lc _ f => some (wordM 0x10 f 0x7)
  | .lcu _ f => some (wordM 0x10 f 0x8)
  | .sb _ f => some (wordM 0x11 f 0x0)
  | .sh _ f => some (wordM 0x11 f 0x1)
  | .sw _ f => some (wordM 0x11 f 0x2)
  | .sd _ f => some (wordM 0x11 f 0x3)
  | .sc _ f => some (wordM 0x11 f 0x7)
  | .beq _ f => some (wordB 0x18 f)
  | .bne _ f => some (wordB 0x19 f)
  | .blt _ f => some (wordB 0x1a f)
  | .bge _ f => some (wordB 0x1b f)
  | .bltu _ f => some (wordB 0x1c f)
  | .bgeu _ f => some (wordB 0x1d f)
  | .jal _ f => some (wordB 0x1e f)
  | .bpany _ f => some (wordP f 0)
  | .bpnone _ f => some (wordP f 1)
  | .bpall _ f => some (wordP f 2)
  | .fence _ f => some (wordC 0x20 f 0x0)
  | .iflush _ f => some (wordC 0x20 f 0x1)
  | .yield _ f => some (wordC 0x20 f 0x2)
  | .beatwait _ f => some (wordC 0x20 f 0x3)
  | .eret _ f => some (wordC 0x20 f 0x4)
  | .crr _ f => some (wordC 0x20 f 0x5)
  | .crw _ f => some (wordC 0x20 f 0x6)
  | .clean _ f => some (wordC 0x20 f 0x8)
  | .inv _ f => some (wordC 0x20 f 0x9)
  | .clinv _ f => some (wordC 0x20 f 0xa)
  | .sopen _ f => some (wordC 0x21 f 0x0)
  | .swait _ f => some (wordC 0x21 f 0x1)
  | .sclose _ f => some (wordC 0x21 f 0x2)
  | .csrch _ f => some (wordC 0x22 f 0x0)
  | .cins _ f => some (wordC 0x22 f 0x1)
  | .csrchins _ f => some (wordC 0x22 f 0x2)
  | .cdel _ f => some (wordC 0x22 f 0x3)
  | .crd _ f => some (wordC 0x22 f 0x4)
  | .cwr _ f => some (wordC 0x22 f 0x5)
  | .vadd _ f => some (wordV 0x28 f 0x0)
  | .vsub _ f => some (wordV 0x28 f 0x1)
  | .vmul _ f => some (wordV 0x28 f 0x2)
  | .vmulh _ f => some (wordV 0x28 f 0x3)
  | .vmulhu _ f => some (wordV 0x28 f 0x4)
  | .vmin _ f => some (wordV 0x28 f 0x5)
  | .vmax _ f => some (wordV 0x28 f 0x6)
  | .vminu _ f => some (wordV 0x28 f 0x7)
  | .vmaxu _ f => some (wordV 0x28 f 0x8)
  | .vand _ f => some (wordV 0x28 f 0x9)
  | .vor _ f => some (wordV 0x28 f 0xa)
  | .vxor _ f => some (wordV 0x28 f 0xb)
  | .vandn _ f => some (wordV 0x28 f 0xc)
  | .vsll _ f => some (wordV 0x28 f 0xd)
  | .vsrl _ f => some (wordV 0x28 f 0xe)
  | .vsra _ f => some (wordV 0x28 f 0xf)
  | .vabs _ f => some (wordV 0x28 f 0x10)
  | .vhash _ f => some (wordV 0x2c f 0x0)
  | .vpopc _ f => some (wordV 0x2c f 0x8)
  | .vclz _ f => some (wordV 0x2c f 0x9)
  | .vctz _ f => some (wordV 0x2c f 0xa)
  | .vaddp _ f => some (wordV 0x29 f 0x0)
  | .vsubp _ f => some (wordV 0x29 f 0x1)
  | .vmulp _ f => some (wordV 0x29 f 0x2)
  | .vminp _ f => some (wordV 0x29 f 0x3)
  | .vmaxp _ f => some (wordV 0x29 f 0x4)
  | .vminup _ f => some (wordV 0x29 f 0x5)
  | .vmaxup _ f => some (wordV 0x29 f 0x6)
  | .pand _ f => some (wordV 0x32 f 0x0)
  | .por _ f => some (wordV 0x32 f 0x1)
  | .pxor _ f => some (wordV 0x32 f 0x2)
  | .pandn _ f => some (wordV 0x32 f 0x3)
  | .pnot _ f => some (wordV 0x32 f 0x4)
  | .pmovs _ f => some (wordV 0x32 f 0x8)
  | .pset _ f => some (wordV 0x32 f 0x9)
  | .ppopc _ f => some (wordV 0x32 f 0xa)
  | .pfirst _ f => some (wordV 0x32 f 0xb)
  | .vmtop _ f => some (wordV 0x32 f 0x10)
  | .ptovm _ f => some (wordV 0x32 f 0x11)
  | .vmand _ f => some (wordV 0x32 f 0x12)
  | .vmov _ f => some (wordV 0x2b f 0x0)
  | .vsplat _ f => some (wordV 0x2b f 0x1)
  | .viota _ f => some (wordV 0x2b f 0x2)
  | .vsel _ f => some (wordV 0x2b f 0x3)
  | .vcompress _ f => some (wordV 0x2b f 0x4)
  | .vexpand _ f => some (wordV 0x2b f 0x5)
  | .vperm _ f => some (wordV 0x2b f 0x6)
  | .vscan _ f => some (wordV 0x2e f 0x0)
  | .vscanx _ f => some (wordV 0x2e f 0x1)
  | .vrsum _ f => some (wordV 0x2e f 0x10)
  | .vrsumu _ f => some (wordV 0x2e f 0x11)
  | .vrmin _ f => some (wordV 0x2e f 0x12)
  | .vrmax _ f => some (wordV 0x2e f 0x13)
  | .vrminu _ f => some (wordV 0x2e f 0x14)
  | .vrmaxu _ f => some (wordV 0x2e f 0x15)
  | .vrcnt _ f => some (wordV 0x2e f 0x16)
  | .vrasum _ f => some (wordV 0x2e f 0x18)
  | .vacc _ f => some (wordV 0x2f f 0x0)
  | .vaccu _ f => some (wordV 0x2f f 0x1)
  | .vaccm _ f => some (wordV 0x2f f 0x2)
  | .vaccmu _ f => some (wordV 0x2f f 0x3)
  | .vaclr _ f => some (wordV 0x2f f 0x8)
  | .vamov _ f => some (wordV 0x2f f 0x9)
  | .vcmpeq _ f q => some (wordV 0x2a f (0x0 ||| bif q then 0x10 else 0))
  | .vcmpne _ f q => some (wordV 0x2a f (0x1 ||| bif q then 0x10 else 0))
  | .vcmplt _ f q => some (wordV 0x2a f (0x2 ||| bif q then 0x10 else 0))
  | .vcmpge _ f q => some (wordV 0x2a f (0x3 ||| bif q then 0x10 else 0))
  | .vcmpltu _ f q => some (wordV 0x2a f (0x4 ||| bif q then 0x10 else 0))
  | .vcmpgeu _ f q => some (wordV 0x2a f (0x5 ||| bif q then 0x10 else 0))
  | .vcmple _ f q => some (wordV 0x2a f (0x6 ||| bif q then 0x10 else 0))
  | .vcmpgt _ f q => some (wordV 0x2a f (0x7 ||| bif q then 0x10 else 0))
  | .vcmpleu _ f q => some (wordV 0x2a f (0x8 ||| bif q then 0x10 else 0))
  | .vcmpgtu _ f q => some (wordV 0x2a f (0x9 ||| bif q then 0x10 else 0))
  | .vmovs _ f n => some (wordV 0x2b f (0x10 ||| n.setWidth 9))
  | .vmovv _ f n => some (wordV 0x2b f (0x20 ||| n.setWidth 9))
  | .vsort _ f m => some (wordV 0x2d f (sortFunct m false))
  | .vmerge _ f m => some (wordV 0x2d f (sortFunct m true))
  | .vfadd _ f q => some (wordV (bif q then 0x31 else 0x30) f 0x0)
  | .vfsub _ f q => some (wordV (bif q then 0x31 else 0x30) f 0x1)
  | .vfmul _ f q => some (wordV (bif q then 0x31 else 0x30) f 0x2)
  | .vfdiv _ f q => some (wordV (bif q then 0x31 else 0x30) f 0x3)
  | .vfsqrt _ f q => some (wordV (bif q then 0x31 else 0x30) f 0x4)
  | .vfmin _ f q => some (wordV (bif q then 0x31 else 0x30) f 0x5)
  | .vfmax _ f q => some (wordV (bif q then 0x31 else 0x30) f 0x6)
  | .vfeq _ f q => some (wordV (bif q then 0x31 else 0x30) f 0x10)
  | .vflt _ f q => some (wordV (bif q then 0x31 else 0x30) f 0x11)
  | .vfle _ f q => some (wordV (bif q then 0x31 else 0x30) f 0x12)
  | .vcvtfi _ f => some (wordV 0x33 f 0x0)
  | .vcvtfu _ f => some (wordV 0x33 f 0x1)
  | .vcvtif _ f => some (wordV 0x33 f 0x2)
  | .vcvtuf _ f => some (wordV 0x33 f 0x3)
  | .vcvtdi _ f => some (wordV 0x33 f 0x14)
  | .vcvtid _ f => some (wordV 0x33 f 0x15)
  | .vwideni _ f q => some (wordV 0x33 f (bif q then 0x9 else 0x8))
  | .vwidenu _ f q => some (wordV 0x33 f (bif q then 0xb else 0xa))
  | .vwidenf _ f q => some (wordV 0x33 f (bif q then 0xd else 0xc))
  | .vnarrowi _ f q => some (wordV 0x33 f (bif q then 0x11 else 0x10))
  | .vnarrowf _ f q => some (wordV 0x33 f (bif q then 0x13 else 0x12))
  | .vgather _ f g => some (wordV 0x36 f (gatherFunct g))
  | .vacct _ f => some (wordV 0x36 f 0x10)
  | .vld _ f q => some (wordVW 0x38 f (bif q then 1 else 0))
  | .vst _ f q => some (wordVW 0x39 f (bif q then 1 else 0))
  | .pld _ f => some (wordVW 0x3a f 0)
  | .pst _ f => some (wordVW 0x3a f 1)
  | .vmld _ f => some (wordVW 0x3a f 2)
  | .vmst _ f => some (wordVW 0x3a f 3)
  | _ => none

/-- Whether the fields of an instruction are free of what R96 makes illegal. -/
def sirtoLegal (i : Instr) : Bool :=
  match i with
  | .add _ _ => true
  | .sub _ _ => true
  | .andOp _ _ => true
  | .orOp _ _ => true
  | .xor _ _ => true
  | .andn _ _ => true
  | .sll _ _ => true
  | .srl _ _ => true
  | .sra _ _ => true
  | .slt _ _ => true
  | .sltu _ _ => true
  | .min _ _ => true
  | .max _ _ => true
  | .minu _ _ => true
  | .maxu _ _ => true
  | .clz _ f => f.rs2 == 0
  | .ctz _ f => f.rs2 == 0
  | .popc _ f => f.rs2 == 0
  | .mul _ _ => true
  | .mulh _ _ => true
  | .mulhu _ _ => true
  | .div _ _ => true
  | .divu _ _ => true
  | .rem _ _ => true
  | .remu _ _ => true
  | .addi _ _ => true
  | .andi _ _ => true
  | .ori _ _ => true
  | .xori _ _ => true
  | .slti _ _ => true
  | .sltiu _ _ => true
  | .lui _ f => f.rs1 == 0
  | .jalr _ _ => true
  | .slli _ f => f.hi == 0
  | .srli _ f => f.hi == 0
  | .srai _ f => f.hi == 0
  | .ext _ f => legalExt f
  | .exts _ f => legalExt f
  | .lb _ _ => true
  | .lh _ _ => true
  | .lw _ _ => true
  | .ld _ _ => true
  | .lbu _ _ => true
  | .lhu _ _ => true
  | .lwu _ _ => true
  | .lc _ _ => true
  | .lcu _ _ => true
  | .sb _ _ => true
  | .sh _ _ => true
  | .sw _ _ => true
  | .sd _ _ => true
  | .sc _ _ => true
  | .beq _ _ => true
  | .bne _ _ => true
  | .blt _ _ => true
  | .bge _ _ => true
  | .bltu _ _ => true
  | .bgeu _ _ => true
  | .jal _ f => f.b == 0
  | .bpany _ f => f.a.extractLsb' 3 2 == 0
  | .bpnone _ f => f.a.extractLsb' 3 2 == 0
  | .bpall _ f => f.a.extractLsb' 3 2 == 0
  | .fence _ f => legalNone f
  | .iflush _ f => legalNone f
  | .yield _ f => legalNone f
  | .beatwait _ f => legalNone f
  | .eret _ f => legalNone f
  | .crr _ f => legalCrr f
  | .crw _ f => legalCrw f
  | .clean _ f => legalMaint f
  | .inv _ f => legalMaint f
  | .clinv _ f => legalMaint f
  | .sopen _ f => legalSopen f
  | .swait _ f => legalSwait f
  | .sclose _ f => legalSclose f
  | .csrch _ f => legalCamKey f
  | .cins _ f => legalCamAll f
  | .csrchins _ f => legalCamKey f
  | .cdel _ f => legalCamAddr f
  | .crd _ f => legalCamAddr f
  | .cwr _ f => legalCamAll f
  | .vadd _ f => legalTwo f
  | .vsub _ f => legalTwo f
  | .vmul _ f => legalTwo f
  | .vmulh _ f => legalTwo f
  | .vmulhu _ f => legalTwo f
  | .vmin _ f => legalTwo f
  | .vmax _ f => legalTwo f
  | .vminu _ f => legalTwo f
  | .vmaxu _ f => legalTwo f
  | .vand _ f => legalTwo f
  | .vor _ f => legalTwo f
  | .vxor _ f => legalTwo f
  | .vandn _ f => legalTwo f
  | .vsll _ f => legalTwo f
  | .vsrl _ f => legalTwo f
  | .vsra _ f => legalTwo f
  | .vabs _ f => legalOne f
  | .vhash _ f => legalTwo f
  | .vpopc _ f => legalOne f
  | .vclz _ f => legalOne f
  | .vctz _ f => legalOne f
  | .vaddp _ f => legalTwo f
  | .vsubp _ f => legalTwo f
  | .vmulp _ f => legalTwo f
  | .vminp _ f => legalTwo f
  | .vmaxp _ f => legalTwo f
  | .vminup _ f => legalTwo f
  | .vmaxup _ f => legalTwo f
  | .pand _ f => legalPred2 f
  | .por _ f => legalPred2 f
  | .pxor _ f => legalPred2 f
  | .pandn _ f => legalPred2 f
  | .pnot _ f => legalPred1 f
  | .pmovs _ f => legalPredToScalar f
  | .pset _ f => legalPset f
  | .ppopc _ f => legalPredToScalar f
  | .pfirst _ f => legalPredToScalar f
  | .vmtop _ f => legalVmtop f
  | .ptovm _ f => legalPtovm f
  | .vmand _ f => legalPtovm f
  | .vmov _ f => legalOne f
  | .vsplat _ f => legalSplat f
  | .viota _ f => legalSplat f
  | .vsel _ f => legalTwo f
  | .vcompress _ f => legalOne f
  | .vexpand _ f => legalOne f
  | .vperm _ f => legalPerm f
  | .vscan _ f => legalScan f
  | .vscanx _ f => legalScan f
  | .vrsum _ f => legalOne f
  | .vrsumu _ f => legalOne f
  | .vrmin _ f => legalOne f
  | .vrmax _ f => legalOne f
  | .vrminu _ f => legalOne f
  | .vrmaxu _ f => legalOne f
  | .vrcnt _ f => legalOne f
  | .vrasum _ f => legalRasum f
  | .vacc _ f => legalAcc1 f
  | .vaccu _ f => legalAcc1 f
  | .vaccm _ f => legalAcc2 f
  | .vaccmu _ f => legalAcc2 f
  | .vaclr _ f => legalAclr f
  | .vamov _ f => legalAmov f
  | .vcmpeq _ f _ => legalCmp f
  | .vcmpne _ f _ => legalCmp f
  | .vcmplt _ f _ => legalCmp f
  | .vcmpge _ f _ => legalCmp f
  | .vcmpltu _ f _ => legalCmp f
  | .vcmpgeu _ f _ => legalCmp f
  | .vcmple _ f _ => legalCmp f
  | .vcmpgt _ f _ => legalCmp f
  | .vcmpleu _ f _ => legalCmp f
  | .vcmpgtu _ f _ => legalCmp f
  | .vmovs _ f _ => f.f && f.vd == 0 && f.pm == 0
  | .vmovv _ f _ => f.f && f.vs1 == 0 && f.pm == 0
  | .vsort _ f m => legalSort f && !m.i
  | .vmerge _ f _ => legalSort f
  | .vfadd _ f _ => legalTwo f
  | .vfsub _ f _ => legalTwo f
  | .vfmul _ f _ => legalTwo f
  | .vfdiv _ f _ => legalTwo f
  | .vfsqrt _ f _ => legalOne f
  | .vfmin _ f _ => legalTwo f
  | .vfmax _ f _ => legalTwo f
  | .vfeq _ f _ => legalCmp f
  | .vflt _ f _ => legalCmp f
  | .vfle _ f _ => legalCmp f
  | .vcvtfi _ f => legalOne f
  | .vcvtfu _ f => legalOne f
  | .vcvtif _ f => legalOne f
  | .vcvtuf _ f => legalOne f
  | .vcvtdi _ f => legalOne f
  | .vcvtid _ f => legalOne f
  | .vwideni _ f _ => legalOne f
  | .vwidenu _ f _ => legalOne f
  | .vwidenf _ f _ => legalOne f
  | .vnarrowi _ f _ => legalOne f
  | .vnarrowf _ f _ => legalOne f
  | .vgather _ f _ => f.f
  | .vacct _ f => f.f
  | .vld _ f q => legalPacked f q
  | .vst _ f q => legalPacked f q
  | .pld _ f => legalBitmapP f
  | .pst _ f => legalBitmapP f
  | .vmld _ f => legalBitmap f
  | .vmst _ f => legalBitmap f
  | _ => false

end Sys2Proof.Machine
end

