-- ==== Sys2Proof/Decode.lean ====
section
/-! DEFINITION. The decoder of Sirto words, total and rejecting what R96 makes illegal, and the encoder.
The rows of spec/opcode_table.json give no bits, so `decodeTableWord` answers none for every word. -/

namespace Sys2Proof

open Sys2Proof.Machine

/-- Opcode 0x01 by funct11 (R98). -/
def decodeS (e : Eng) (f : SForm) (n : Nat) : Option Instr :=
  match n with
  | 0 => some (.add e f)
  | 1 => some (.sub e f)
  | 2 => some (.andOp e f)
  | 3 => some (.orOp e f)
  | 4 => some (.xor e f)
  | 5 => some (.andn e f)
  | 6 => some (.sll e f)
  | 7 => some (.srl e f)
  | 8 => some (.sra e f)
  | 9 => some (.slt e f)
  | 10 => some (.sltu e f)
  | 11 => some (.min e f)
  | 12 => some (.max e f)
  | 13 => some (.minu e f)
  | 14 => some (.maxu e f)
  | 16 => some (.clz e f)
  | 17 => some (.ctz e f)
  | 18 => some (.popc e f)
  | 32 => some (.mul e f)
  | 33 => some (.mulh e f)
  | 34 => some (.mulhu e f)
  | 40 => some (.div e f)
  | 41 => some (.divu e f)
  | 42 => some (.rem e f)
  | 43 => some (.remu e f)
  | _ => none

/-- Loads by funct4 (R101). -/
def decodeLoad (e : Eng) (f : MForm) (n : Nat) : Option Instr :=
  match n with
  | 0 => some (.lb e f)
  | 1 => some (.lh e f)
  | 2 => some (.lw e f)
  | 3 => some (.ld e f)
  | 4 => some (.lbu e f)
  | 5 => some (.lhu e f)
  | 6 => some (.lwu e f)
  | 7 => some (.lc e f)
  | 8 => some (.lcu e f)
  | _ => none

/-- Stores by funct4 (R101). -/
def decodeStore (e : Eng) (f : MForm) (n : Nat) : Option Instr :=
  match n with
  | 0 => some (.sb e f)
  | 1 => some (.sh e f)
  | 2 => some (.sw e f)
  | 3 => some (.sd e f)
  | 7 => some (.sc e f)
  | _ => none

/-- Opcode 0x20 by funct5 (R104, R109, R113). -/
def decodeSystem (e : Eng) (f : CForm) (n : Nat) : Option Instr :=
  match n with
  | 0 => some (.fence e f)
  | 1 => some (.iflush e f)
  | 2 => some (.yield e f)
  | 3 => some (.beatwait e f)
  | 4 => some (.eret e f)
  | 5 => some (.crr e f)
  | 6 => some (.crw e f)
  | 8 => some (.clean e f)
  | 9 => some (.inv e f)
  | 10 => some (.clinv e f)
  | _ => none

/-- Opcode 0x21 by funct5 (R104, R109, R113). -/
def decodeStream (e : Eng) (f : CForm) (n : Nat) : Option Instr :=
  match n with
  | 0 => some (.sopen e f)
  | 1 => some (.swait e f)
  | 2 => some (.sclose e f)
  | _ => none

/-- Opcode 0x22 by funct5 (R104, R109, R113). -/
def decodeCam (e : Eng) (f : CForm) (n : Nat) : Option Instr :=
  match n with
  | 0 => some (.csrch e f)
  | 1 => some (.cins e f)
  | 2 => some (.csrchins e f)
  | 3 => some (.cdel e f)
  | 4 => some (.crd e f)
  | 5 => some (.cwr e f)
  | _ => none

/-- Vector opcode 0x28 by funct9. -/
def decodeV28 (e : Eng) (f : VForm) (n : Nat) : Option Instr :=
  match n with
  | 0 => some (.vadd e f)
  | 1 => some (.vsub e f)
  | 2 => some (.vmul e f)
  | 3 => some (.vmulh e f)
  | 4 => some (.vmulhu e f)
  | 5 => some (.vmin e f)
  | 6 => some (.vmax e f)
  | 7 => some (.vminu e f)
  | 8 => some (.vmaxu e f)
  | 9 => some (.vand e f)
  | 10 => some (.vor e f)
  | 11 => some (.vxor e f)
  | 12 => some (.vandn e f)
  | 13 => some (.vsll e f)
  | 14 => some (.vsrl e f)
  | 15 => some (.vsra e f)
  | 16 => some (.vabs e f)
  | _ => none

/-- Vector opcode 0x29 by funct9. -/
def decodeV29 (e : Eng) (f : VForm) (n : Nat) : Option Instr :=
  match n with
  | 0 => some (.vaddp e f)
  | 1 => some (.vsubp e f)
  | 2 => some (.vmulp e f)
  | 3 => some (.vminp e f)
  | 4 => some (.vmaxp e f)
  | 5 => some (.vminup e f)
  | 6 => some (.vmaxup e f)
  | _ => none

/-- Vector opcode 0x2b by funct9. -/
def decodeV2b (e : Eng) (f : VForm) (n : Nat) : Option Instr :=
  match n with
  | 0 => some (.vmov e f)
  | 1 => some (.vsplat e f)
  | 2 => some (.viota e f)
  | 3 => some (.vsel e f)
  | 4 => some (.vcompress e f)
  | 5 => some (.vexpand e f)
  | 6 => some (.vperm e f)
  | 16 => some (.vmovs e f 0)
  | 17 => some (.vmovs e f 1)
  | 18 => some (.vmovs e f 2)
  | 19 => some (.vmovs e f 3)
  | 20 => some (.vmovs e f 4)
  | 21 => some (.vmovs e f 5)
  | 22 => some (.vmovs e f 6)
  | 23 => some (.vmovs e f 7)
  | 24 => some (.vmovs e f 8)
  | 25 => some (.vmovs e f 9)
  | 26 => some (.vmovs e f 10)
  | 27 => some (.vmovs e f 11)
  | 28 => some (.vmovs e f 12)
  | 29 => some (.vmovs e f 13)
  | 30 => some (.vmovs e f 14)
  | 31 => some (.vmovs e f 15)
  | 32 => some (.vmovv e f 0)
  | 33 => some (.vmovv e f 1)
  | 34 => some (.vmovv e f 2)
  | 35 => some (.vmovv e f 3)
  | 36 => some (.vmovv e f 4)
  | 37 => some (.vmovv e f 5)
  | 38 => some (.vmovv e f 6)
  | 39 => some (.vmovv e f 7)
  | 40 => some (.vmovv e f 8)
  | 41 => some (.vmovv e f 9)
  | 42 => some (.vmovv e f 10)
  | 43 => some (.vmovv e f 11)
  | 44 => some (.vmovv e f 12)
  | 45 => some (.vmovv e f 13)
  | 46 => some (.vmovv e f 14)
  | 47 => some (.vmovv e f 15)
  | _ => none

/-- Vector opcode 0x2c by funct9. -/
def decodeV2c (e : Eng) (f : VForm) (n : Nat) : Option Instr :=
  match n with
  | 0 => some (.vhash e f)
  | 8 => some (.vpopc e f)
  | 9 => some (.vclz e f)
  | 10 => some (.vctz e f)
  | _ => none

/-- Vector opcode 0x2e by funct9. -/
def decodeV2e (e : Eng) (f : VForm) (n : Nat) : Option Instr :=
  match n with
  | 0 => some (.vscan e f)
  | 1 => some (.vscanx e f)
  | 16 => some (.vrsum e f)
  | 17 => some (.vrsumu e f)
  | 18 => some (.vrmin e f)
  | 19 => some (.vrmax e f)
  | 20 => some (.vrminu e f)
  | 21 => some (.vrmaxu e f)
  | 22 => some (.vrcnt e f)
  | 24 => some (.vrasum e f)
  | _ => none

/-- Vector opcode 0x2f by funct9. -/
def decodeV2f (e : Eng) (f : VForm) (n : Nat) : Option Instr :=
  match n with
  | 0 => some (.vacc e f)
  | 1 => some (.vaccu e f)
  | 2 => some (.vaccm e f)
  | 3 => some (.vaccmu e f)
  | 8 => some (.vaclr e f)
  | 9 => some (.vamov e f)
  | _ => none

/-- Vector opcode 0x32 by funct9. -/
def decodeV32 (e : Eng) (f : VForm) (n : Nat) : Option Instr :=
  match n with
  | 0 => some (.pand e f)
  | 1 => some (.por e f)
  | 2 => some (.pxor e f)
  | 3 => some (.pandn e f)
  | 4 => some (.pnot e f)
  | 8 => some (.pmovs e f)
  | 9 => some (.pset e f)
  | 10 => some (.ppopc e f)
  | 11 => some (.pfirst e f)
  | 16 => some (.vmtop e f)
  | 17 => some (.ptovm e f)
  | 18 => some (.vmand e f)
  | _ => none

/-- Compares by funct9 (R141). -/
def decodeCmp (e : Eng) (f : VForm) (q : Bool) (n : Nat) : Option Instr :=
  match n with
  | 0 => some (.vcmpeq e f q)
  | 1 => some (.vcmpne e f q)
  | 2 => some (.vcmplt e f q)
  | 3 => some (.vcmpge e f q)
  | 4 => some (.vcmpltu e f q)
  | 5 => some (.vcmpgeu e f q)
  | 6 => some (.vcmple e f q)
  | 7 => some (.vcmpgt e f q)
  | 8 => some (.vcmpleu e f q)
  | 9 => some (.vcmpgtu e f q)
  | _ => none

/-- Floating point by funct9 (R150). -/
def decodeFp (e : Eng) (f : VForm) (q : Bool) (n : Nat) : Option Instr :=
  match n with
  | 0 => some (.vfadd e f q)
  | 1 => some (.vfsub e f q)
  | 2 => some (.vfmul e f q)
  | 3 => some (.vfdiv e f q)
  | 4 => some (.vfsqrt e f q)
  | 5 => some (.vfmin e f q)
  | 6 => some (.vfmax e f q)
  | 16 => some (.vfeq e f q)
  | 17 => some (.vflt e f q)
  | 18 => some (.vfle e f q)
  | _ => none

/-- Conversions by funct9 (R153). -/
def decodeConv (e : Eng) (f : VForm) (n : Nat) : Option Instr :=
  match n with
  | 0 => some (.vcvtfi e f)
  | 1 => some (.vcvtfu e f)
  | 2 => some (.vcvtif e f)
  | 3 => some (.vcvtuf e f)
  | 20 => some (.vcvtdi e f)
  | 21 => some (.vcvtid e f)
  | 8 => some (.vwideni e f false)
  | 9 => some (.vwideni e f true)
  | 10 => some (.vwidenu e f false)
  | 11 => some (.vwidenu e f true)
  | 12 => some (.vwidenf e f false)
  | 13 => some (.vwidenf e f true)
  | 16 => some (.vnarrowi e f false)
  | 17 => some (.vnarrowi e f true)
  | 18 => some (.vnarrowf e f false)
  | 19 => some (.vnarrowf e f true)
  | _ => none

/-- Immediate opcodes in I format (R100, R103). -/
def decodeI (e : Eng) (f : IForm) (n : Nat) : Option Instr :=
  match n with
  | 2 => some (.addi e f)
  | 3 => some (.andi e f)
  | 4 => some (.ori e f)
  | 5 => some (.xori e f)
  | 6 => some (.slti e f)
  | 7 => some (.sltiu e f)
  | 8 => some (.lui e f)
  | 11 => some (.jalr e f)
  | _ => none

/-- Branches (R103). -/
def decodeB (e : Eng) (f : BForm) (n : Nat) : Option Instr :=
  match n with
  | 24 => some (.beq e f)
  | 25 => some (.bne e f)
  | 26 => some (.blt e f)
  | 27 => some (.bge e f)
  | 28 => some (.bltu e f)
  | 29 => some (.bgeu e f)
  | 30 => some (.jal e f)
  | _ => none

/-- Bitmap loads and stores by funct4 (R137). -/
def decodeBitmap (e : Eng) (f : VWForm) (n : Nat) : Option Instr :=
  match n with
  | 0 => some (.pld e f)
  | 1 => some (.pst e f)
  | 2 => some (.vmld e f)
  | 3 => some (.vmst e f)
  | _ => none

/-- The S fields of a word. -/
def fieldsS (w : InstrWord) : SForm :=
  ⟨w.extractLsb' 21 5, w.extractLsb' 16 5, w.extractLsb' 11 5⟩
/-- The I fields of a word. -/
def fieldsI (w : InstrWord) : IForm :=
  ⟨w.extractLsb' 21 5, w.extractLsb' 16 5, w.extractLsb' 0 16⟩
def fieldsSh (w : InstrWord) : ShForm :=
  ⟨w.extractLsb' 21 5, w.extractLsb' 16 5, w.extractLsb' 8 8, w.extractLsb' 0 6⟩
def fieldsExt (w : InstrWord) : ExtForm :=
  ⟨w.extractLsb' 21 5, w.extractLsb' 16 5, w.extractLsb' 13 3, w.extractLsb' 6 6, w.extractLsb' 0 6⟩
def fieldsM (w : InstrWord) : MForm :=
  ⟨w.extractLsb' 21 5, w.extractLsb' 16 5, w.extractLsb' 0 12⟩
def fieldsC (w : InstrWord) : CForm :=
  ⟨w.extractLsb' 21 5, w.extractLsb' 16 5, w.extractLsb' 11 5, w.extractLsb' 0 6⟩
def fieldsB (w : InstrWord) : BForm :=
  ⟨w.extractLsb' 21 5, w.extractLsb' 16 5, w.extractLsb' 0 16⟩
def fieldsP (w : InstrWord) : PForm := ⟨w.extractLsb' 21 5, w.extractLsb' 0 16⟩
def fieldsV (w : InstrWord) : VForm :=
  ⟨w.extractLsb' 22 4, w.extractLsb' 18 4, w.extractLsb' 13 5, w.extractLsb' 10 3, w.getLsbD 9⟩
def fieldsVW (w : InstrWord) : VWForm :=
  ⟨w.extractLsb' 22 4, w.extractLsb' 17 5, w.extractLsb' 11 6, w.getLsbD 10, w.extractLsb' 7 3,
   w.extractLsb' 4 3⟩

/-- Sort or merge from funct9 (R144); bits [8:4] are 0. -/
def decodeSort (e : Eng) (f : VForm) (n : BitVec 9) : Option Instr :=
  let m : SortMode := ⟨n.getLsbD 0, n.getLsbD 1, n.getLsbD 3⟩
  if n.extractLsb' 4 5 = 0 then
    (if n.getLsbD 2 then some (.vmerge e f m) else some (.vsort e f m))
  else none

/-- Gather or table accumulate from funct9 (R154, R155). -/
def decodeGather (e : Eng) (f : VForm) (n : BitVec 9) : Option Instr :=
  if n.extractLsb' 4 5 = 0 then
    some (.vgather e f ⟨n.extractLsb' 0 2, n.getLsbD 2, n.getLsbD 3⟩)
  else if n = 0x10 then some (.vacct e f)
  else none

/-- The instruction a word names, before its fields are checked: by major opcode (R97, R131). -/
def decodeOpcode (e : Eng) (w : InstrWord) : Option Instr :=
  let v := fieldsV w
  let n9 := w.extractLsb' 0 9
  let n5 := (w.extractLsb' 6 5).toNat
  let n4 := (w.extractLsb' 0 4).toNat
  let op := (w.extractLsb' 26 6).toNat
  match op with
  | 0x01 => decodeS e (fieldsS w) (w.extractLsb' 0 11).toNat
  | 0x09 =>
    match (w.extractLsb' 6 2).toNat with
    | 0 => some (.slli e (fieldsSh w))
    | 1 => some (.srli e (fieldsSh w))
    | 2 => some (.srai e (fieldsSh w))
    | _ => none
  | 0x0a => if w.getLsbD 12 then some (.exts e (fieldsExt w)) else some (.ext e (fieldsExt w))
  | 0x10 => decodeLoad e (fieldsM w) (w.extractLsb' 12 4).toNat
  | 0x11 => decodeStore e (fieldsM w) (w.extractLsb' 12 4).toNat
  | 0x1f =>
    match (w.extractLsb' 16 5).toNat with
    | 0 => some (.bpany e (fieldsP w))
    | 1 => some (.bpnone e (fieldsP w))
    | 2 => some (.bpall e (fieldsP w))
    | _ => none
  | 0x20 => decodeSystem e (fieldsC w) n5
  | 0x21 => decodeStream e (fieldsC w) n5
  | 0x22 => decodeCam e (fieldsC w) n5
  | 0x28 => decodeV28 e v n9.toNat
  | 0x29 => decodeV29 e v n9.toNat
  | 0x2a => if n9.extractLsb' 5 4 = 0 then decodeCmp e v (n9.getLsbD 4) n4 else none
  | 0x2b => decodeV2b e v n9.toNat
  | 0x2c => decodeV2c e v n9.toNat
  | 0x2d => decodeSort e v n9
  | 0x2e => decodeV2e e v n9.toNat
  | 0x2f => decodeV2f e v n9.toNat
  | 0x30 => decodeFp e v false n9.toNat
  | 0x31 => decodeFp e v true n9.toNat
  | 0x32 => decodeV32 e v n9.toNat
  | 0x33 => decodeConv e v n9.toNat
  | 0x36 => decodeGather e v n9
  | 0x38 =>
    match n4 with
    | 0 => some (.vld e (fieldsVW w) false)
    | 1 => some (.vld e (fieldsVW w) true)
    | _ => none
  | 0x39 =>
    match n4 with
    | 0 => some (.vst e (fieldsVW w) false)
    | 1 => some (.vst e (fieldsVW w) true)
    | _ => none
  | 0x3a => decodeBitmap e (fieldsVW w) n4
  | _ =>
    match decodeI e (fieldsI w) op with
    | some i => some i
    | none => decodeB e (fieldsB w) op

/-- The Sirto decoder: the legal instruction that engine `e` reads from a word, or none (R96). -/
def decodeSirto (e : Eng) (w : InstrWord) : Option Instr :=
  match decodeOpcode e w with
  | some i => if sirtoLegal i then some i else none
  | none => none

/-- The Sirto encoder. -/
def encodeSirto (i : Instr) : Option InstrWord := sirtoWord i

/-- The table gives no row any bits, so no word spells a command. -/
def decodeTableWord (_nbits _w : Nat) : Option Instr := none

end Sys2Proof
end

