-- ==== Sys2Proof/Config.lean ====
section
/-! DEFINITION. What an implementation fixes and the spec leaves open: values without a body, of which no proof can
see anything. Each is named in the assumption log. -/

namespace Sys2Proof.Config

open Sys2Proof

/-- Word `k` of the Desan kernel's image, which the Warden loads into the kernel region (log entry 4). -/
opaque kernelWord : Nat → InstrWord

/-- How often in a row an SC may fail although its reservation holds (R352, R353; log entry 115). -/
opaque scBound : Nat

/-- The `n`-th value that the spec leaves free (log entry 2). -/
opaque freeValue : Nat → Nat

/-- The dispatch record as the kernel reads it (R243): the bytes of an engine's landing kernel area, by offset, that a
tick writes for a thread, its unit's first row and rows and its slot, or for no thread. The layout is private to the
kernel (log entry 110). -/
opaque dispatchRecord : Option (Nat × Nat × Nat × Nat) → List (Nat × Byte)

/-- Fuses: the unique device secret, the root-key hash, the serial number and the stepping (R501, R512, R548). -/
opaque deviceSecret : BitVec 256
opaque rootKeyHash : Nat
opaque serial : Dword
opaque stepping : Byte

/-- PROGRESS of a ledger self-test by type and running time in cycles (R432). -/
opaque testProgress : Nat → Nat → Nat

/-- What the configuration space and the CXL registers of a root port, or of a function behind one, hold by window
offset and the errors that the port has recorded: their layout is that of other specifications (R357, R536, R537). -/
opaque configSpace : Nat → Nat → Nat

/-- The bytes of SNAP_READ for a snapshot's status, instant and shadow registers: the spec gives no layout below the
header and its records (R525). -/
opaque snapBytes : Dword → Dword → List (Nat × Dword) → List Byte

/-- ROM version (R496), and the image the part was made with (log entry 50). -/
opaque romVersion : Nat
opaque factoryImage : List Byte

/-- What a section of type 3 holds: the reset address, the load address and the core boot code (R374, R501); the spec
gives no layout. -/
opaque bootSection : List Byte → Nat × Nat × List Byte

/-- The certificates that the system area holds, identity first, and the alias certificate of a measurement, an SVN and
a version (R513; log entry 51). -/
opaque certChain : List (List Byte)
opaque aliasCert : Nat → Nat → Nat → List Byte

/-- The fused voltage table in mV of a hall, by frequency in steps of 100 MHz and band of 25 degrees, and V_ENG by
band (R564). -/
opaque coreVoltage : Nat → Nat → Nat → Nat
opaque engVoltage : Nat → Nat → Nat

end Sys2Proof.Config
end

