-- ==== Sys2Proof/Machine/State.lean ====
section
/-! DEFINITION. The state of the part: everything the spec gives the machine, as plain data.
The queue of waiting commands stands beside the device, so that a command's effect cannot touch it. -/

namespace Sys2Proof.Machine

open Sys2Proof

/-- A table by number, in rising order of the keys; an unlisted key holds what its reader names. -/
abbrev Sparse (α : Type) := List (Nat × α)

/-- A 64-byte line of memory as one number, byte 0 in the low bits (R2). -/
abbrev Line := BitVec 512

/-- Names the reasons a step could stop with a fault. The model has none: the spec gives every command an effect. -/
inductive Fault where
  deriving DecidableEq, Repr

/-- The reasons a command is refused. -/
inductive Refusal where
  /-- Raised by an arm of `exec` whose command has no meaning yet; safe, since nothing runs. -/
  | notModelled (mnemonic : String)
  deriving DecidableEq, Repr

/-! ### Operator engine (03_engine.md, 04_sirto_scalar.md, 05_sirto_vector.md) -/

/-- The mode of an engine. -/
inductive Mode where
  | kernel
  | thread
  deriving DecidableEq, Repr

/-- ENG_STAT.STATE (R89). -/
inductive RunState where
  | held
  | running
  | halted
  | retired
  deriving DecidableEq, Repr

/-- The causes of R116. -/
inductive Cause where
  | yield
  | illegalInstr
  | privileged
  | illegalOperand
  | accSpace
  | accKernel
  | accCodeWrite
  | accFetch
  | accCr
  | accIommu
  | accCam
  | align
  | errCsParity
  | errL1Parity
  | errMezParity
  | errPoison
  | errCsParityK
  | tick
  deriving DecidableEq, Repr

/-- A cause with the EVAL value it provides. -/
structure CauseVal where
  cause : Cause
  val : Dword
  deriving DecidableEq, Repr

/-- A handler entry between its entry cycle and the first handler instruction (R68, R70). -/
structure Entry where
  epc : BitVec 16
  causes : List CauseVal
  deriving DecidableEq, Repr

/-- What a store-buffer entry does when it drains (R76, R325). -/
inductive SbKind where
  /-- a store of the enabled bytes of one line -/
  | store (data : Line) (bytes : BitVec 64)
  /-- CLEAN, INV or CLINV, on L1 or the mezzanine, by address -/
  | maintAddr (clean inv mez : Bool)
  /-- the same by set and way -/
  | maintWay (clean inv mez : Bool) (set way : Nat)
  deriving DecidableEq, Repr

/-- One store-buffer entry: physical line address, effect, and whether thread mode made it (R76, R329).
`old` marks an entry that was there at the last tick. -/
structure SbEntry where
  line : Nat
  kind : SbKind
  thread : Bool
  old : Bool
  deriving DecidableEq, Repr

/-- A line of the engine L1 (R314, R319). -/
structure L1Line where
  tag : Nat
  data : Line
  dirty : Bool
  t : Bool
  age : Nat
  bad : Bool
  deriving DecidableEq, Repr

/-- The one L1 miss in progress (R318): its line, the engine address that missed, whether a load waits,
and what the mezzanine has answered. -/
structure L1Miss where
  line : Nat
  addr : Dword
  load : Bool
  answer : Option (Option Line)
  deriving DecidableEq, Repr

/-- What a CAM instruction asks of the fabric (R113, R209). -/
inductive CamOp where
  | search
  | insert
  | searchInsert
  | delete
  | read
  | write
  deriving DecidableEq, Repr

/-- A CAM request with its key and mask units. -/
structure CamReq where
  op : CamOp
  first : Nat
  count : Nat
  width : Nat
  addr : Nat
  key : List Cell
  mask : List Cell
  part : Option Part
  deriving DecidableEq, Repr

/-- The fabric's reply: the result word, and the units a CRD reads (R114). -/
structure CamRep where
  result : Dword
  units : List Cell
  /-- busy CAM cycles beyond 2, over the banks -/
  busy : Nat
  deriving DecidableEq, Repr

/-- The stages of a CAM request after it has left the engine. -/
inductive CamStage where
  | queued
  | sent
  | done (rep : CamRep)
  deriving DecidableEq, Repr

/-- The engine's CAM request: where the instruction stands, its word, and whether the instruction still waits
for the reply or was abandoned, so that the reply goes to the latch (R74). -/
structure CamWait where
  pc : BitVec 16
  word : InstrWord
  rd : BitVec 5
  req : CamReq
  stage : CamStage
  live : Bool
  discard : Bool
  deriving DecidableEq, Repr

/-- The CAM reply latch (R74). -/
structure CamLatch where
  pc : BitVec 16
  word : InstrWord
  rep : CamRep
  deriving DecidableEq, Repr

/-! ### Streams and sieve jobs (06_streams.md, 07_sieve.md) -/

/-- The streamer states of R179. -/
inductive StreamState where
  | free
  | opening
  | running
  | blocked
  | ended
  | failed
  deriving DecidableEq, Repr

/-- Where an RLE stream stands in its segment (R163, R173). -/
inductive RlePhase where
  /-- reading its entry of the block offset table -/
  | table
  /-- reading a block header -/
  | header
  /-- decoding, with bytes of code words, elements and filler bytes of the block still to come -/
  | body (left out fill : Nat)
  /-- reading filler -/
  | filler (left : Nat)
  deriving DecidableEq, Repr

/-- The decoder of an RLE stream: phase, the segment byte it needs next, the elements it still discards (R173) and
the block it is in. -/
structure RleState where
  phase : RlePhase
  pos : Nat
  skip : Nat
  block : Nat
  deriving DecidableEq, Repr

/-- One streamer (R164 to R179). `acc` holds `accLen` bits that wait to be written, the first in the low bit. -/
structure Streamer where
  st : StreamState
  kernel : Bool
  /-- landing address of the descriptor, and the copy taken at SOPEN (R165) -/
  descAt : Nat
  desc : Line
  filled : Nat
  status : BitVec 16
  consumed : BitVec 32
  hdr : Option Line
  /-- the segment's handle while the stream is open -/
  handle : Nat
  /-- rows to deliver and the status at the end (R168) -/
  rows : Nat
  endStatus : BitVec 16
  /-- next 256-byte segment line to request, lines requested, and lines that have arrived with their poisoned
  sectors -/
  nextLine : Nat
  asked : List Nat
  stage : Sparse (BitVec 2048 × List Nat)
  /-- next segment bit to take from the staging store and the bits left to deliver -/
  bitPos : Nat
  bitsLeft : Nat
  acc : Nat
  accLen : Nat
  rle : Option RleState
  /-- the job a sieve stream is attached to: the streamer that copied it (R190) -/
  job : Option StreamNo
  deriving DecidableEq, Repr

/-- The data of one interleave piece that a sieve has read for a job (R193), or the poisoned line's offset. -/
structure PieceData where
  piece : Nat
  bits : Nat
  poison : Option Nat
  deriving DecidableEq, Repr

/-- A sieve job at its streamer (R189 to R196). -/
structure SieveJob where
  owner : StreamNo
  addr : Nat
  desc : Option (BitVec 2048)
  /-- the streams attached to the job, in the order of their SOPENs -/
  att : List StreamNo
  sent : Bool
  handle : Nat
  rows : Nat
  first : Nat
  endStatus : BitVec 16
  /-- lowest piece whose results are incomplete, last piece, and the results held in the window -/
  low : Nat
  last : Nat
  got : List PieceData
  /-- next row to deliver and rows selected so far -/
  row : Nat
  selected : Nat
  failed : Option (BitVec 16)
  /-- the SELECTED field has been written (R196) -/
  told : Bool
  /-- the 256 bytes as they stood at the SOPEN that named the job first (R189) -/
  was : BitVec 2048
  deriving DecidableEq, Repr

/-- A sieve job at a channel (R197): its engine and streamer, the pieces still to read, the lines of the first of them
that have been read and their bits (R198), results on their way. -/
structure ChanJob where
  eng : Eng
  owner : StreamNo
  pieces : List Nat
  lines : Nat
  bits : Nat
  stalled : Bool
  old : Bool
  results : List PieceData
  deriving DecidableEq, Repr

/-- The sieve of one channel: active jobs in round-robin order, the next first, and waiting jobs in arrival order. -/
structure Sieve where
  active : List ChanJob
  waiting : List ChanJob
  /-- jobs sent by a streamer that have not arrived yet -/
  sent : List ChanJob
  /-- the job whose turn it is (R197), and the cycle up to which SIEVE_STALL has been counted -/
  turn : Option (Eng × StreamNo)
  since : Nat
  deriving DecidableEq, Repr

/-! ### Mezzanine and gallery (12_caches.md) -/

/-- A mezzanine sector (R320). -/
structure MezSector where
  valid : Bool
  dirty : Bool
  t : Bool
  writer : Fin 4
  data : Line
  bad : Bool
  deriving DecidableEq, Repr

/-- A mezzanine line of 256 bytes (R314). -/
structure MezLine where
  tag : Nat
  age : Nat
  sec : Vector MezSector 4
  deriving DecidableEq, Repr

/-- A fill in progress for an L1 (R321): the line, the sectors still to arrive, the engine that asked and its sector. -/
structure MezFill where
  line : Nat
  waitFor : List Nat
  eng : Fin 4
  sector : Nat
  deriving DecidableEq, Repr

/-- A line of the victim buffer (R324, R575). -/
structure Victim where
  line : Nat
  sec : Vector MezSector 4
  started : Bool
  deriving DecidableEq, Repr

/-- The mezzanine of one square. -/
structure Mez where
  lines : Sparse MezLine
  fill : Option MezFill
  /-- engines whose L1 requests wait for the fill or for the victim buffer, in order of arrival -/
  queue : List (Fin 4)
  vb : List Victim
  /-- sectors that the gallery has answered and that have not arrived: address and data, or none for poison -/
  answers : List (Nat × Option Line)
  deriving DecidableEq, Repr

/-- A line of a gallery slice (R314), with the class under which it was written or leaves (R392). -/
structure GalLine where
  line : Nat
  data : Line
  dirty : Bool
  poison : Bool
  age : Nat
  cls : Nat
  deriving DecidableEq, Repr

/-- A directory entry (R338): the squares that share the line, or the hart that owns it exclusive or modified. -/
structure DirEntry where
  sharers : List Nat
  owner : Option Hart
  deriving DecidableEq, Repr

/-- A fill request at a slice: the square it answers and the partition it is made for (R336). -/
structure GalReq where
  tile : Tile
  addr : Nat
  part : Part
  deriving DecidableEq, Repr

/-- One gallery slice: lines by set and way, directory by line, waiting requests, dirty victims that wait for
the channel (R340), and its hits and misses (GAL_EVT shows them in units of 2^16). -/
structure Gallery where
  lines : Sparse GalLine
  dir : Sparse DirEntry
  reqs : List GalReq
  victims : List GalLine
  hits : Nat
  misses : Nat
  deriving DecidableEq, Repr

/-! ### CAM fabric (08_cam.md) -/

/-- One CAM bank: valid entries by the unit offset of their first unit; units that hold a parity error that has not been
found, with the value they show; entries whose valid flag holds one, by the unit offset of their first unit, with
whether the flag shows the wrong value; the scan position, units reloaded with the cycle of their last reload, spare
rows in use. -/
structure CamBank where
  ents : Sparse (List Cell)
  bad : Sparse Cell
  badFlag : Sparse Bool
  scan : Nat
  reloaded : Sparse Nat
  spares : List Nat
  retired : Bool
  deriving DecidableEq, Repr

/-- A change on its way to the shadow region (R224): bank, unit offset, unit and valid flag. -/
structure ShadowWrite where
  bank : Bank
  unit : Nat
  cell : Cell
  valid : Bool
  deriving DecidableEq, Repr

/-- The CAM side of a square: credit count in sixteenths, the cycle it was last brought up to date, the engines
whose requests wait at the port in order, and the shadow queue. -/
structure CamSquare where
  credits : Int
  since : Nat
  waiting : List Eng
  shadow : List ShadowWrite
  deriving DecidableEq, Repr

/-! ### Threads, instances and flows (09_scheduler.md) -/

/-- The registers a thread's context holds (R246). -/
structure Ctx where
  pc : BitVec 16
  s : Vector Dword 32
  v : Vector (Vector Cell 16) 16
  vm : Vector Mask 16
  p : Vector Mask 8
  vfcsr : BitVec 9
  camr : Vector (BitVec 18) 4
  camm : Vector Cell 4
  deriving DecidableEq, Repr

/-- A piece of a morsel that its thread has still to complete (R36, R234): offset from MORSEL_FIRST, rows, and
the slot it holds, if any. -/
structure Piece where
  off : Nat
  rows : Nat
  slot : Option Nat
  deriving DecidableEq, Repr

/-- The thread states of R238; FREE is the absence of the thread from the table. -/
inductive ThreadState where
  | ready
  | running
  | waitPage
  | waitFlow
  | stalled
  deriving DecidableEq, Repr

/-- A Desan thread (R237). The head of `todo` is the current piece. -/
structure Thread where
  first : Nat
  mrows : Nat
  todo : List Piece
  inst : Nat
  seq : Nat
  flow : Nat
  slot : Nat
  lastEng : Option Eng
  excl : Bool
  part : Part
  st : ThreadState
  stalls : Nat
  ordered : Bool
  started : Bool
  promoted : Bool
  promotedAt : Nat
  readyBeat : Nat
  /-- ticks at which the thread was eligible and not dispatched (R258) -/
  waited : Nat
  /-- segments that streams of its abandoned unit wait for (R238, R306) -/
  pages : List Nat
  ctx : Option Ctx
  deriving DecidableEq, Repr

/-- How a dispatched unit stands in its beat (R33, R248, R256). -/
inductive UnitFate where
  | running
  | complete
  | replay
  deriving DecidableEq, Repr

/-- The dispatch record of an engine (R243): its thread and unit, the beat, whether the unit's registers have
been set (R246), the context left by YIELD (R246), and how the unit stands. -/
structure Dispatch where
  fate : UnitFate
  thread : Nat
  inst : Nat
  first : Nat
  rows : Nat
  slot : Nat
  seq : Nat
  beat : Nat
  started : Bool
  yielded : Option Ctx
  deriving DecidableEq, Repr

/-- Why an instance stopped (R254), with the rows of the unit that stopped it. -/
structure StopInfo where
  status : BitVec 16
  row : Nat
  rows : Nat
  /-- the beat of the stop -/
  beat : Nat
  deriving DecidableEq, Repr

/-- A completed unit of an instance (R233, R252). -/
structure DoneUnit where
  seq : Nat
  row : Nat
  rows : Nat
  slot : Nat
  status : BitVec 16
  deriving DecidableEq, Repr

/-- A flight instance (R231 to R236, R285). `abort` waits for the next tick (R278); `outcome` is its decided
completion. -/
structure Instance where
  part : Part
  queue : Nat
  index : Nat
  descAddr : Nat
  desc : BitVec 1536
  firstRow : Nat
  rows : Nat
  cursor : Nat
  cost : Nat
  nextSlot : Nat
  flow : Option Nat
  stop : Option StopInfo
  /-- units published so far and rows of them -/
  published : Nat
  rowsDone : Nat
  /-- the lowest unit that ended with LENGTH_MISMATCH -/
  mismatch : Option (Nat × Nat)
  /-- segments held under R305, and those named by the descriptor whose headers have not been read yet; the status
  of a header check that failed after admission (R232, R306) -/
  held : List Nat
  unread : List Nat
  failed : Option Nat
  /-- sequence numbers drawn: first and one past the last -/
  seqFrom : Nat
  seqTo : Nat
  /-- the flow publisher has dealt with the instance (R252, R254) -/
  released : Bool
  abort : Bool
  decided : Bool
  deriving DecidableEq, Repr

/-- An ordered flow of a partition (R250 to R253): lowest number not released, next number to draw, rows of each
number drawn, its instances in order of admission and the completed units that wait. -/
structure Flow where
  low : Nat
  next : Nat
  drawn : Sparse Nat
  insts : List Nat
  done : List DoneUnit
  deriving DecidableEq, Repr

/-- Histogram and load of one engine (R258): its last 1,024 beats, newest first, and its wait bins. -/
structure EngObs where
  busy : List Bool
  bins : List Nat
  deriving DecidableEq, Repr

/-- A system-class thread (R242): the unit it runs on, its priority and a number for its work. -/
structure SystemThread where
  unit : ServiceUnit
  prio : Nat
  work : Nat
  deriving DecidableEq, Repr

/-- A system-class thread in the thread table (R237): its number and the beat in which it became READY. -/
structure SysSlot where
  thread : SystemThread
  num : Nat
  ready : Nat
  deriving DecidableEq, Repr

/-- The scheduler (R230 to R259). -/
structure Sched where
  threads : Sparse Thread
  insts : Sparse Instance
  /-- flows by partition and flow number -/
  flows : Sparse Flow
  obs : Sparse EngObs
  partBins : Sparse (List Nat)
  /-- ready depths captured at the last tick, by scope and index -/
  ready : Sparse Nat
  /-- loads captured at the last tick, by the same scopes -/
  loads : Sparse Nat
  obsBeat : Nat
  /-- thread descriptors as they stood after the last tick (SCH_THR_Dk) -/
  shown : Sparse (BitVec 256)
  /-- system threads that wait for their service unit in order of arrival, and those that a unit runs (R242) -/
  system : List SystemThread
  serving : List SystemThread
  /-- their places in the thread table -/
  sysTable : List SysSlot
  /-- the engines that run a health flight in the beat (R505) -/
  lent : List Eng
  deriving DecidableEq, Repr

/-- One operator engine. -/
structure Engine where
  pc : BitVec 16
  mode : Mode
  run : RunState
  /-- waiting in BEATWAIT (ENG_STAT.WAITING) -/
  waiting : Bool
  s : Vector Dword 32
  v : Vector (Vector Cell 16) 16
  vm : Vector Mask 16
  p : Vector Mask 8
  a : Vector (Vector Wide 16) 8
  /-- ECTL.EIE and ECTL.RMODE -/
  eie : Bool
  rmode : Mode
  epc : BitVec 16
  ecause : Dword
  eval : Dword
  codeBase : BitVec 17
  codeLimit : BitVec 17
  vfcsr : BitVec 9
  camr : Vector (BitVec 18) 4
  camm : Vector Cell 4
  /-- the landing store, 256 KiB -/
  landing : List Host.Cell
  /-- the code store by word index, the words with bad parity, and the words that a fetch may still take in
  their old value (R63) -/
  code : Sparse InstrWord
  codeBad : List Nat
  stale : Sparse InstrWord
  /-- store buffer, oldest first -/
  sb : List SbEntry
  /-- a synchronous fault that its instruction carries and that is not raised yet (R115) -/
  fault : Option CauseVal
  /-- error interrupts that wait while they are masked (R71) -/
  pendErr : List CauseVal
  entry : Option Entry
  /-- CAM requests that have left the engine, oldest first -/
  cam : List CamWait
  latch : Option CamLatch
  /-- the next instruction is the first after a handler return (R74) -/
  afterRet : Bool
  l1 : Sparse L1Line
  miss : Option L1Miss
  /-- a discard is under way (R329), and the clean-line invalidation of R360 goes with it -/
  discard : Bool
  streams : Vector Streamer 4
  jobs : List SieveJob
  /-- the streamer whose turn it is (R86) -/
  grant : StreamNo
  /-- the partition that owns the engine -/
  owner : Option Part
  dispatch : Option Dispatch
  /-- the instance of the previous unit (R360) -/
  lastInst : Option Nat
  /-- a halt is to be followed by the Warden's reload and release (R67) -/
  reload : Bool
  /-- halts and dirty-error charges of the last 24 hours (R67, R334) -/
  halts24 : Nat
  dirty24 : Nat
  deriving DecidableEq, Repr

/-! ### Main memory, channels and cores (13_ordering.md, 14_general_cores.md, 15_dram.md) -/

/-- A read that waits at a channel for a gallery slice (R393), the cycle it arrived and whether it is promoted. -/
structure ReadReq where
  home : Tile
  req : GalReq
  arrived : Nat
  promoted : Bool
  deriving DecidableEq, Repr

/-- A write that waits at a channel (R393, R395): the enabled bytes of a line, its class, its arrival, and whether
the line is written poisoned. -/
structure WriteReq where
  line : Nat
  data : Line
  bytes : BitVec 64
  poison : Bool
  cls : Nat
  arrived : Nat
  deriving DecidableEq, Repr

/-- A corrected-error count of a row, in the row key of the channel (R400). -/
structure RowCount where
  row : Nat
  count : Nat
  deriving DecidableEq, Repr

/-- The state of a DRAM channel beside its registers. The first 128 reads and 64 writes stand in its queues and
the rest wait at its mesh port (R393). -/
structure Channel where
  rdq : List ReadReq
  wrq : List WriteReq
  /-- open row of each bank, by bank key -/
  openRow : Sparse Nat
  /-- activate table of each bank (R403) -/
  acts : Sparse (List RowCount)
  /-- corrected errors by row in this 24-hour window and the rows that became suspect in it (R400) -/
  ceRows : Sparse Nat
  suspect : List Nat
  /-- partition service balances of class 2 (R476), and whether a burst of writes is draining (R395) -/
  balance : Sparse Int
  bursting : Bool
  /-- oscillator drift: the last window's beat (R405) -/
  lastWindow : Option Nat
  /-- by subchannel, failed replays in a row and commands since the last alert (R407); whether the link runs at
  DDR5-6400 (R408) -/
  replayFails : Sparse Nat
  since : Sparse Nat
  slow : Bool
  /-- local address the scrubber reads next (R402) -/
  scrub : Nat
  /-- refreshes postponed (R403) -/
  postponed : Nat
  selfRefresh : Bool
  /-- the quiet window of the current beat has not ended (R43) -/
  quiet : Bool
  deriving DecidableEq, Repr

/-- A mirrored granule pair, each by its physical address in units of 4 KiB (R391). -/
structure MirrorPair where
  prim : Nat
  partner : Nat
  deriving DecidableEq, Repr

/-- A line of a hart's private caches: the L2 holds it, and `l1` says that the L1D holds it too (R371). -/
structure CoreLine where
  data : Line
  dirty : Bool
  poison : Bool
  l1 : Bool
  deriving DecidableEq, Repr

/-- A store-buffer entry of a hart: one piece of up to 64 bytes (R344, R349). -/
structure CoreStore where
  pa : Nat
  size : Nat
  data : Line
  deriving DecidableEq, Repr

/-- The idle states of R384. -/
inductive IdleState where
  | running
  | light
  | deep
  deriving DecidableEq, Repr

/-- An interrupt file: pending and enabled identities in rising order, and delivery (R376, R377). -/
structure IntFile where
  pending : List Nat
  enabled : List Nat
  delivery : Bool
  deriving DecidableEq, Repr

/-- A trap a hart has raised: cause and trap value. -/
structure TrapInfo where
  cause : Nat
  tval : Nat
  deriving DecidableEq, Repr

/-- Privilege modes of a hart (R369, R374). -/
inductive CoreMode where
  | machine
  | hypervisor
  | user
  | virtualSupervisor
  | virtualUser
  deriving DecidableEq, Repr

/-- A general core as far as the spec describes it. `held` is a hart out of service (R375); `loaded` is what its
last load, LR, SC or AMO returned; interrupt file 0 is machine level, 1 supervisor level, 1 + g guest file g. -/
structure HartState where
  held : Bool
  pc : Nat
  mode : CoreMode
  /-- control and status registers by number; one that is not listed holds its reset value -/
  csr : Sparse Dword
  /-- the counter cycle, in 2,000ths of a core cycle, up to the engine cycle `clockAt` (R382) -/
  clocked : Nat
  clockAt : Nat
  /-- SCs in a row that failed although their reservation held (R352, R353) -/
  scFails : Nat
  idle : IdleState
  since : Nat
  sb : List CoreStore
  reserve : Option Nat
  loaded : BitVec 64
  trap : Option TrapInfo
  lines : Sparse CoreLine
  files : Sparse IntFile
  freq : Nat
  ceiling : Nat
  mhpmevent : Vector Dword 8
  hpm : Vector Dword 8
  instret : Dword
  deriving DecidableEq, Repr

/-! ### Persistent window (17_holdup.md) -/

/-- A write that waits at its home slice because its window page is clean (R435, R441). -/
structure HeldWrite where
  line : Nat
  data : Line
  bytes : BitVec 64
  part : Part
  alloc : Bool
  deriving DecidableEq, Repr

/-- The hold-up store and the persistent window beside the HUP_ registers. Pages are numbered from the window's
base; a page is dirty unless it is listed as clean. -/
structure Holdup where
  /-- clean pages, and pages that became dirty after that, earliest first -/
  clean : List Nat
  order : List Nat
  /-- pages whose record in the dirty map has not completed, and pages the dirty map holds clean -/
  records : List Nat
  mapClean : List Nat
  held : List HeldWrite
  /-- clean pages that a waiting core store, clean or victim write wants to write -/
  wants : List Nat
  /-- dirtied while unprotected: pages whose writes wait for their clean (R441) -/
  strict : List Nat
  /-- image area by window byte offset and its poisoned lines; whether the image is kept as it is, because it has
  not been restored or discarded (R447) -/
  image : List Host.Cell
  imagePoison : List Nat
  kept : Bool
  /-- the cleaner runs (R441) -/
  cleaning : Bool
  /-- latest samples: microvolts, signed microamperes, signed thousandths of a degree; the coulomb counter and the
  charge accepted in 10^-11 C; the counter where the charge in progress started; q_cap in coulombs (R438, R439) -/
  volts : Nat
  amps : Int
  temp : Int
  coulombs : Nat
  chargeFrom : Option Nat
  charged : Int
  qcap : Nat
  /-- pins -/
  chgEn : Bool
  iset : Nat
  dischEn : Bool
  persistDone : Bool
  /-- the values of HUP_ registers that the system area holds (R445, R511, R547) -/
  saved : Sparse Dword
  /-- what the drain left in the system area: the last progress record, the pages it could not copy, and its outcome
  record (R409, R443) -/
  progress : Option Nat
  lost : List Nat
  outcome : Dword
  deriving DecidableEq, Repr

/-! ### Queues (10_rings.md) -/

/-- A decided outcome of an entry: its status and result fields as offset, length in bytes and value. -/
structure Outcome where
  status : Nat
  results : List (Nat × Nat × Nat)
  deriving DecidableEq, Repr

/-- A block of the ledger as a command finds it: its 4,096 bytes as a number, none when it is lost (R413). -/
abbrev Block := Option Nat

/-- An accepted entry that is not completed: its number in the order of acceptance, its ring index, the entry as
read, and its outcome once decided; an ABORT completes only after the entry it names, by queue and ring index
(R276). A LEDGER READ keeps the blocks that later commands of its queue have replaced, a LEDGER write the ranges
that later ones have replaced, as the later one's number, first block and length (R423). -/
structure Accepted where
  num : Nat
  index : Nat
  raw : BitVec 512
  outcome : Option Outcome
  after : Option (Nat × Nat)
  saved : Sparse Block
  covered : List (Nat × Nat × Nat)
  /-- blocks a LEDGER write has taken into the buffer -/
  progress : Nat
  /-- the codec whose self-verification failed in the job's first run (R459) -/
  failedOn : Option CodecId
  deriving DecidableEq, Repr

/-- Why a queue is in ERROR (R274, R282). -/
inductive ErrCause where
  | none
  | malformed
  | readFault
  | writeFault
  deriving DecidableEq, Repr

/-- A queue of a partition (R260 to R283). `n` and `timer` are the count and the running timer of R279; `due` is set
by an event of R263 until the queue reads an entry that it does not own; `skip` lists ring indexes completed before
acceptance (R277); `kept` lists the ring indexes whose completion writes faulted (R274). -/
structure Queue where
  type : Nat
  base : Nat
  log2 : Nat
  cons : Nat
  poll : Bool
  msiEn : Bool
  msiAddr : Nat
  msiData : BitVec 32
  count : Nat
  timer : Nat
  enabled : Bool
  closing : Bool
  n : Nat
  timerOn : Bool
  error : Bool
  cause : ErrCause
  errIndex : Nat
  due : Bool
  entries : List Accepted
  skip : List Nat
  kept : List Nat
  /-- a FLIGHT ring held under R255 -/
  heldBack : Bool
  /-- an MSI that came due while the partition was frozen, to be sent when it resumes (R279, R483) -/
  msiDue : Bool
  deriving DecidableEq, Repr

/-! ### Ledger (16_ledger.md) -/

/-- A namespace: size in GiB, the partition it is attached to, and the one it was last attached to (R417, R418). -/
structure Namespace where
  size : Nat
  owner : Option Part
  last : Nat
  deriving DecidableEq, Repr

/-- Blocks in the write buffer that are not on media: the number of their command and, once it has completed, the
count of acceptances at that time; the first block by key, and the data of each, or a range of zeros (R427). -/
structure Staged where
  cmd : Nat
  done : Option Nat
  key : Nat
  data : List Nat
  zeros : Nat
  deriving DecidableEq, Repr

/-- The ledger beside the LDG_ registers. Blocks are keyed by 2^40 × NSID + LBA; an unlisted block reads as zero.
`from_` is the cycle at which the running self-test last began to run, `ran` the cycles it ran before, and `used` the
cycle at which a request to the ledger was last accepted or completed (R432). -/
structure Ledger where
  nss : Sparse Namespace
  media : Sparse Nat
  lost : List Nat
  staged : List Staged
  writes : Nat
  from_ : Option Nat
  ran : Nat
  used : Nat
  deriving DecidableEq, Repr

/-! ### Segment heap and pager (11_segments_pager.md) -/

/-- Segment states of R297; MOVING is split by what the pager is doing. -/
inductive SegState where
  | resident
  | paged
  | movingOut
  | movingIn
  | pinned
  deriving DecidableEq, Repr

/-- A block of a copy in the ledger pager region: the codec block and its SHA3-256 digest (R308). -/
structure CopyBlock where
  bytes : List Byte
  digest : Nat
  deriving DecidableEq, Repr

/-- Where a copy lies (R304, R308). -/
inductive SegCopy where
  | cxl (granules : List Nat)
  | ledger (blocks : List CopyBlock)
  deriving DecidableEq, Repr

/-- A segment (R296 to R305). A granule is named by its physical address in units of 4 KiB; `quad` is the quadrant
of the granules that hold it or last held it. -/
structure Segment where
  part : Part
  gen : Nat
  sizeK : Nat
  format : Nat
  width : Nat
  mirror : Bool
  state : SegState
  granules : List Nat
  quad : Nat
  addr : Nat
  copy : Option SegCopy
  last : Nat
  /-- a FREE of the segment has been accepted, and waits in this queue entry (none where a partition is destroyed) -/
  freeing : Bool
  freeBy : Option (Nat × Nat)
  /-- its page-out failed, and another victim is chosen (R459) -/
  avoid : Bool
  deriving DecidableEq, Repr

/-- A donated range (R292 to R294). -/
structure DonRange where
  part : Part
  kind : Nat
  iova : Nat
  granules : List Nat
  reclaiming : Bool
  deriving DecidableEq, Repr

/-- Space that an ALLOC or a page-in waits for (R300, R307): a block of 2^sizeK granules in ranges of a kind of a
partition in a quadrant. -/
structure Want where
  part : Part
  kind : Nat
  quad : Nat
  sizeK : Nat
  deriving DecidableEq, Repr

/-- The segment heap and the pager beside the PGR_ registers. Segments are keyed by partition and map index. -/
structure Pager where
  segs : Sparse Segment
  gens : Sparse Nat
  ranges : List DonRange
  /-- PGR_PART_QUOTA of each partition -/
  quota : Sparse Dword
  /-- granules healed within 24 hours and granules retired (R312) -/
  healed : List Nat
  retired : List Nat
  wants : List Want
  /-- partitions whose free granules fell below LOW_WM and have not reached HIGH_WM again (R307) -/
  active : List Nat
  /-- heap granules that hold the save areas of a partition's threads (R249) -/
  saves : Sparse (List Nat)
  deriving DecidableEq, Repr

/-! ### Codecs and the digest engine (18_codec_digest.md) -/

/-- The CODEC entry a codec runs: partition, queue and ring index. -/
structure CodecJob where
  part : Part
  queue : QueueId
  index : Nat
  deriving DecidableEq, Repr

/-- The owner of a digest slot (R463). -/
inductive SlotOwner where
  | none
  | page
  | queue
  | warden
  deriving DecidableEq, Repr

/-- A digest slot (R462): working state, absorb count, algorithm, keyed state and owner; `busy` while a permutation
runs or waits. -/
structure Slot where
  lanes : Vector Dword 25
  count : Nat
  alg : Nat
  keyed : Option (Vector Dword 25)
  owner : SlotOwner
  busy : Bool
  deriving DecidableEq, Repr

/-! ### Partitions (19_partitions.md) -/

/-- PRT_STAT.STATE (R480, R482). -/
inductive PartState where
  | running
  | freezing
  | frozen
  deriving DecidableEq, Repr

/-- A range that a restored partition must have been given before it resumes (R489): IOVA, KIND, granules. -/
structure RangeNeed where
  iova : Nat
  kind : Nat
  count : Nat
  deriving DecidableEq, Repr

/-- A partition: its resource descriptor in force, its state, the tick at which a freeze or resume takes effect and
the beat of the last freeze, the CODEC input bytes served (R477), and its granule log (R484). Of a restored partition
that has not resumed, `needs` are the ranges it must be given and `places` the IOVAs of the granules and of the CXL
granules of each segment by map index. -/
structure Partition where
  desc : BitVec 1024
  state : PartState
  freezeAt : Option Nat
  freezeBeat : Nat
  resumeAt : Option Nat
  needs : List RangeNeed
  places : Sparse (List Nat × List Nat)
  served : Nat
  logAddr : Nat
  logBase : Nat
  logGranules : Nat
  restored : Bool
  destroying : Bool
  deriving DecidableEq, Repr

/-! ### The Warden (20_warden.md) -/

/-- A long command that has been answered PENDING: TAG, OPCODE, parameters, bulk buffer, and the bulk data read at its
acceptance (R492, R494). -/
structure LongCmd where
  tag : Nat
  op : Nat
  params : Nat
  dmaAddr : Nat
  dmaLen : Nat
  data : Nat
  deriving DecidableEq, Repr

/-- A long command that has ended, with its result (R495). -/
structure EndedCmd where
  tag : Nat
  op : Nat
  status : Nat
  result : Nat
  deriving DecidableEq, Repr

/-- What an image slot of the boot flash holds: the image the part was made with, or bytes, kept as their complements
since erased flash reads as ones. -/
inductive SlotData where
  | factory
  | bytes (inv : List Host.Cell)
  deriving DecidableEq, Repr

/-- A boot record (R499). -/
structure BootRecord where
  active : Nat
  seq : Nat
  trial : Bool
  attempts : Nat
  stateA : Nat
  stateB : Nat
  revert : Nat
  deriving DecidableEq, Repr

/-- A settings list (R510). -/
structure Settings where
  schema : Nat
  pairs : List (Nat × Dword)
  deriving DecidableEq, Repr

/-- What runs on the Warden: FW_VERSION, SVN, SCHEMA and the measurement of its image, and the words of the Desan
kernel that it loads over the one the part was made with (R501, R512). -/
structure RunningImage where
  version : Nat
  svn : Nat
  schema : Nat
  measure : Nat
  kernel : Sparse InstrWord
  deriving DecidableEq, Repr

/-- The Warden and the boot flash (R490 to R513). The first 8 ended commands are the event FIFO; the others wait.
`set1Cur` says which settings copy is current, `measA` and `measB` are the measurements recorded when the slots last
booted, `pause` holds the REVERT cause of the activation pause in force, 0 for an activation, and `recBytes` counts
what REC_LOAD has programmed. -/
structure Warden where
  longs : List LongCmd
  ended : List EndedCmd
  slotA : SlotData
  slotB : SlotData
  rec0 : Option BootRecord
  rec1 : Option BootRecord
  set0 : Option Settings
  set1 : Option Settings
  set1Cur : Bool
  fuses : Nat
  image : RunningImage
  measA : Option Nat
  measB : Option Nat
  trialOn : Bool
  /-- the health flights of the trial have run (R505) -/
  flightsRun : Bool
  pause : Option Nat
  recCause : Nat
  recBytes : Nat
  deriving DecidableEq, Repr

/-! ### Whole part (00_scope.md, 02_beat.md, 23_package.md) -/

/-- What the part as a whole is doing (R556, R560 to R563, R443, R508). -/
inductive Phase where
  /-- start-up work of R563 -/
  | startup
  | run
  /-- warm reset with RESET_N low -/
  | warm
  /-- the hold-up drain runs or has ended -/
  | draining
  | persisted
  /-- no image verified: the recovery loader answers -/
  | recovery
  deriving DecidableEq, Repr

/-- The beat generator (R25 to R29, R46): period changes that wait for their beat, the cycle of the last tick and
the length of the running beat, the last accepted BEAT_IN edge, the run of good edges and the error still to
correct, and the last BEAT_OUT pulse. -/
structure BeatGen where
  changes : List (Nat × Nat)
  lastTick : Nat
  length : Nat
  lastEdge : Option Nat
  good : Nat
  toCorrect : Int
  outAt : Option Nat
  deriving DecidableEq, Repr

/-- An event raised for the event ring: class, instance, address, detail, partition, whether an injection made it,
the beat of its first occurrence and the occurrences it covers (R519, R520). -/
structure RasEvent where
  cls : Nat
  inst : Nat
  addr : Nat
  detail : Nat
  part : Option Part
  injected : Bool
  beat : Nat
  count : Nat
  deriving DecidableEq, Repr

/-- An armed injection (R524): class, instance, address where the class has one, and events still to come. -/
structure Injection where
  cls : Nat
  inst : Nat
  addr : Nat
  left : Nat
  deriving DecidableEq, Repr

/-- A record written to shadow registers: the control-window offset and its value at the instant (R525). -/
abbrev Shadow := List (Nat × Dword)

/-- What an entry of the lifetime log records (R528, R432). -/
inductive LifeKind where
  | engine
  | hart
  | bank
  | codec
  | router
  | granule
  | row
  | discarded
  | selftest
  | wear
  | drain
  | capacity
  | activation
  | castling
  | settings
  deriving DecidableEq, Repr

/-- An entry of the lifetime log: what it names, a value (a class, a result, a version), and the beat. -/
structure LifeNote where
  kind : LifeKind
  item : Nat
  val : Nat
  beat : Nat
  deriving DecidableEq, Repr

/-- The content of the lifetime log: counts by section and item, and entries in order (R528). -/
structure LifeLog where
  counts : Sparse Nat
  notes : List LifeNote
  deriving DecidableEq, Repr

/-- The lifetime log (R528 to R530): what the Warden has accumulated, the copy in the ledger system area, and the
mirror halves with their sequence numbers. -/
structure Life where
  work : LifeLog
  saved : LifeLog
  half0 : Option (Nat × LifeLog)
  half1 : Option (Nat × LifeLog)
  deriving DecidableEq, Repr

/-- A coalesced class and instance whose last record lies less than 1,000 beats back (R520): the beat of that record,
and the occurrences since, as one event. -/
structure Coalesce where
  cls : Nat
  inst : Nat
  opened : Nat
  since : Option RasEvent
  deriving DecidableEq, Repr

/-- Records, counts and snapshots (21_ras_telemetry.md). -/
structure Ras where
  /-- events raised and not yet recorded, and the next record number -/
  raised : List RasEvent
  seq : Nat
  /-- coalesced classes whose window of 1,000 beats is open -/
  windows : List Coalesce
  /-- an event-ring MSI was sent in the last 100 µs, and one waits for the end of that time (R521) -/
  msiSent : Bool
  msiWaits : Bool
  /-- armed injections, and marked data that will raise an injected error -/
  armed : List Injection
  marks : List Injection
  /-- a tick-latched snapshot waits: its source (R525) -/
  snapWait : Option Nat
  /-- the registers at the cycle on which an event's class took a snapshot, until its shadow is formed (R49, R525) -/
  snapRegs : Option (Sparse Dword)
  shadow : Shadow
  /-- a fatal event holds every engine from the next tick and stops queue acceptance (R523) -/
  fatal : Bool
  deriving DecidableEq, Repr

/-- Routes of the mesh beside the MSH_ registers: changes that wait for a tick, as square and MSH_STAT bit (R516,
R518), and squares whose local port has failed too (R523, R544). -/
structure Mesh where
  pend : List (Nat × Nat)
  cut : List Nat
  /-- squares whose Foyer port is out of service (R22, R516) -/
  ports : List Nat
  deriving DecidableEq, Repr

/-- A message of the IOMMU to a PCIe function: its Requester ID, ATS invalidation or page-request group response (0 or
1), and the payload (R379). -/
structure DeviceMsg where
  rid : Nat
  kind : Nat
  payload : Nat
  deriving DecidableEq, Repr

/-- Package, power, debug and sideband beside the PWR_ registers (23_package.md): the loop's CAM rate in sixteenths,
whether the platform holds PROCHOT_N low, the latch of THERMTRIP_N, per hall the set point in mV that waits for its
regulator (0 for none) and whether the regulator is silent, the UART FIFOs, the JTAG instruction, what a JTAG data
register last captured, the last DMI write that reached the debug module, the boot error code and its channel, whether
start-up has come to its end since the last cold reset and whether a drain went before that reset, the vendor byte of
the last answer to I3C GETSTATUS and the channel number with it, sub-ports whose links are up and those of them that
trained as CXL, whether PERST_N is driven low, errors that root ports have recorded, the answer to the last inbound
read or translation request, none where it was refused, and the last message that the IOMMU sent to a function. -/
structure Package where
  camRate : Nat
  prochotIn : Bool
  thermtrip : Bool
  setW : Nat
  setE : Nat
  vrW : Bool
  vrE : Bool
  rx : List Byte
  tx : List Byte
  ir : BitVec 5
  dmi : BitVec 32
  debug : Option (BitVec 32 × BitVec 32)
  bootErr : Nat
  bootChan : Nat
  bootDone : Bool
  drained : Bool
  status : Nat
  statusChan : Nat
  up : List Nat
  cxl : List Nat
  perst : Bool
  portErr : Sparse Nat
  inbound : Option Nat
  devMsg : Option DeviceMsg
  /-- running harts of each hall at the last power-control interval (R383) -/
  runW : Nat
  runE : Nat
  deriving DecidableEq, Repr

/-- The part. -/
structure Device where
  phase : Phase
  /-- engine cycles since cold reset -/
  cycle : Nat
  /-- the model's own counter for values that the spec leaves free -/
  freeCount : Nat
  regs : Sparse Dword
  beat : BeatGen
  engines : Vector Engine 256
  sched : Sched
  mez : Vector Mez 64
  gal : Vector Gallery 64
  banks : Vector CamBank 256
  camSq : Vector CamSquare 64
  sieves : Vector Sieve 16
  /-- the bytes of main memory (DRAM and CXL) and its poisoned lines -/
  mem : List Host.Cell
  poison : List Nat
  /-- lines of DRAM, and of the gallery, with flipped bits: how many the worst of their words has (R341, R396) -/
  flips : Sparse Nat
  galFlips : Sparse Nat
  /-- a read of the command in hand waits at its channel (the model's own; every command leaves it as it was) -/
  waits : Bool
  chans : Vector Channel 16
  mirrors : List MirrorPair
  harts : Vector HartState 128
  /-- the package is in deep idle (R384) -/
  packageIdle : Bool
  hup : Holdup
  /-- queues by 16,384 × partition + number -/
  queues : Sparse Queue
  /-- entries accepted since reset -/
  accepted : Nat
  ledger : Ledger
  pager : Pager
  parts : Sparse Partition
  /-- the job of each codec, and the digest slots -/
  codecs : Vector (Option CodecJob) 8
  slots : Vector Slot 16
  warden : Warden
  ras : Ras
  life : Life
  mesh : Mesh
  pkg : Package
  /-- the value a read of the control window by an agent other than a hart last returned -/
  readBack : Dword
  deriving DecidableEq, Repr

/-- The state: the queue of waiting commands, first in first out, and the part. -/
structure State where
  pending : List Instr
  dev : Device
  deriving DecidableEq, Repr

/-! ### Reset (R8, R560, and the Reset columns of the register tables)

Registers that are not listed hold their Reset values. What the spec gives no reset value is 0, empty or off (log
entry 1); the boot flash holds the image the part was made with (log entry 50). -/

/-- A free streamer. -/
def resetStreamer : Streamer :=
  { st := .free, kernel := false, descAt := 0, desc := 0, filled := 0, status := 0, consumed := 0, hdr := none,
    handle := 0,
    rows := 0, endStatus := 0, nextLine := 0, asked := [], stage := [], bitPos := 0, bitsLeft := 0, acc := 0,
    accLen := 0,
    rle := none, job := none }

/-- An engine, held (R89, R93). -/
def resetEngine : Engine :=
  { pc := 0, mode := .kernel, run := .held, waiting := false
    s := Vector.replicate 32 0, v := Vector.replicate 16 (Vector.replicate 16 0), vm := Vector.replicate 16 0
    p := Vector.replicate 8 0, a := Vector.replicate 8 (Vector.replicate 16 0)
    eie := false, rmode := .kernel, epc := 0, ecause := 0, eval := 0, codeBase := 0x2000, codeLimit := 0x10000
    vfcsr := 0, camr := Vector.replicate 4 0, camm := Vector.replicate 4 0xffffffffff
    landing := [], code := [], codeBad := [], stale := [], sb := [], fault := none, pendErr := [], entry := none
    cam := [], latch := none, afterRet := false, l1 := [], miss := none, discard := false
    streams := Vector.replicate 4 resetStreamer, jobs := [], grant := 0, owner := none, dispatch := none
    lastInst := none, reload := false, halts24 := 0, dirty24 := 0 }

/-- An empty scheduler. -/
def resetSched : Sched :=
  { threads := [], insts := [], flows := [], obs := [], partBins := [], ready := [], loads := [], obsBeat := 0,
    shown := [],
    system := [], serving := [], sysTable := [], lent := [] }

/-- A bank whose entries are all holes (R205). -/
def resetBank : CamBank :=
  { ents := [], bad := [], badFlag := [], scan := 0, reloaded := [], spares := [],
    retired := false }

/-- The port of a square with full credit, 4,096 in sixteenths (R229). -/
def resetSquare : CamSquare := { credits := 65536, since := 0, waiting := [], shadow := [] }

def resetMez : Mez := { lines := [], fill := none, queue := [], vb := [], answers := [] }

def resetGal : Gallery := { lines := [], dir := [], reqs := [], victims := [], hits := 0, misses := 0 }

def resetChan : Channel :=
  { rdq := [], wrq := [], openRow := [], acts := [], ceRows := [], suspect := [], balance := [], bursting := false
    lastWindow := none, replayFails := [], since := [], slow := false, scrub := 0, postponed := 0, selfRefresh := false
    quiet := false }

/-- A hart in reset: it runs nothing before start-up releases it, and its ceiling is the highest frequency. -/
def resetHart : HartState :=
  { held := false, pc := 0, mode := .machine, csr := [], clocked := 0, clockAt := 0, scFails := 0, idle := .running,
    since := 0, sb := [], reserve := none, loaded := 0, trap := none, lines := []
    files := [], freq := 800, ceiling := 3000, mhpmevent := Vector.replicate 8 0, hpm := Vector.replicate 8 0,
    instret := 0 }

def resetHoldup : Holdup :=
  { clean := [], order := [], records := [], mapClean := [], held := [], wants := [], strict := [], image := []
    imagePoison := [], kept := false, cleaning := false, volts := 0, amps := 0, temp := 0, coulombs := 0,
    chargeFrom := none
    charged := 0, qcap := 0, chgEn := false, iset := 0, dischEn := false, persistDone := false, saved := [],
    progress := none
    lost := [], outcome := 0 }

/-- The ADMIN queue of a partition at the Reset values of its registers (R291). -/
def resetAdmin : Queue :=
  { type := 0, base := 0, log2 := 4, cons := 0, poll := false, msiEn := false, msiAddr := 0, msiData := 0, count := 1
    timer := 1, enabled := false, closing := false, n := 0, timerOn := false, error := false, cause := .none,
    errIndex := 0
    due := false, entries := [], skip := [], kept := [], heldBack := false, msiDue := false }

/-- Partition 0, which has no resources (R471). -/
def resetPart : Partition :=
  { desc := 0, state := .running, freezeAt := none, freezeBeat := 0, resumeAt := none, needs := [], places := [],
    served := 0
    logAddr := 0, logBase := 0, logGranules := 0, restored := false, destroying := false }

def resetLedger : Ledger :=
  { nss := [], media := [], lost := [], staged := [], writes := 0, from_ := none, ran := 0,
    used := 0 }

def resetPager : Pager :=
  { segs := [], gens := [], ranges := [], quota := [], healed := [], retired := [], wants := [], active := [],
    saves := [] }

def resetSlot (k : SlotId) : Slot :=
  { lanes := Vector.replicate 25 0, count := 0, alg := 0, keyed := none, owner := if k = 15 then .warden else .none
    busy := false }

/-- The Warden, and a boot flash that holds the factory's image in slot A. -/
def resetWarden : Warden :=
  { longs := [], ended := [], slotA := .factory, slotB := .bytes [], rec0 := some ⟨0, 0, false, 0, 2, 0, 0⟩,
    rec1 := none
    set0 := none, set1 := none, set1Cur := false, fuses := 0, image := ⟨0, 0, 0, 0, []⟩, measA := none, measB := none
    trialOn := false, flightsRun := false, pause := none, recCause := 0, recBytes := 0 }

def resetRas : Ras :=
  { raised := [], seq := 1, windows := [], msiSent := false, msiWaits := false, armed := [], marks := [],
    snapWait := none, snapRegs := none
    shadow := [], fatal := false }

def resetLife : Life := { work := ⟨[], []⟩, saved := ⟨[], []⟩, half0 := none, half1 := none }

def resetPackage : Package :=
  { camRate := 16, prochotIn := false, thermtrip := false, setW := 0, setE := 0, vrW := false, vrE := false,
    rx := [], tx := []
    ir := 1, dmi := 0, debug := none, bootErr := 0, bootChan := 0, bootDone := false, drained := false, status := 0,
    statusChan := 0, up := [], cxl := [], perst := true
    portErr := [], inbound := none, devMsg := none, runW := 0, runE := 0 }

/-- The generator before its first tick (R25, R29). -/
def resetBeat : BeatGen :=
  { changes := [], lastTick := 0, length := 40000, lastEdge := none, good := 0, toCorrect := 0, outAt := none }

/-- The part before its first start-up. -/
def resetDevice : Device :=
  { phase := .startup, cycle := 0, freeCount := 0, regs := [], beat := resetBeat
    engines := Vector.replicate 256 resetEngine, sched := resetSched, mez := Vector.replicate 64 resetMez
    gal := Vector.replicate 64 resetGal, banks := Vector.replicate 256 resetBank,
    camSq := Vector.replicate 64 resetSquare
    sieves := Vector.replicate 16 ⟨[], [], [], none, 0⟩, mem := [], poison := [], flips := [], galFlips := [],
    waits := false, chans := Vector.replicate 16 resetChan
    mirrors := [], harts := Vector.replicate 128 resetHart, packageIdle := false, hup := resetHoldup
    queues := [(0, resetAdmin)], accepted := 0, ledger := resetLedger, pager := resetPager, parts := [(0, resetPart)]
    codecs := Vector.replicate 8 none, slots := Vector.ofFn resetSlot, warden := resetWarden, ras := resetRas
    life := resetLife, mesh := ⟨[], [], []⟩, pkg := resetPackage, readBack := 0 }

/-- The state right after reset: nothing is pending, and the part waits for COLD_RESET, which runs its start-up (log
entry 60). -/
def State.reset : State := { pending := [], dev := resetDevice }

end Sys2Proof.Machine
end

