-- ==== Sys2Proof/Machine/Base.lean ====
section
/-! DEFINITION. Tables, memories, lines and bit fields: the plain operations everything else is built from.
Byte order is little endian throughout (R2). -/

namespace Sys2Proof.Machine

open Sys2Proof

variable {α β : Type}

/-! ### Tables by number -/

/-- The entry under a key, if listed. -/
def sfind (l : Sparse α) (k : Nat) : Option α :=
  match l with
  | [] => none
  | (a, x) :: t => if a = k then some x else sfind t k

/-- The entry under a key, or what an unlisted key holds. -/
def sget (l : Sparse α) (k : Nat) (dflt : α) : α :=
  (sfind l k).getD dflt

/-- Lists an entry, keeping the keys in rising order. -/
def sput (l : Sparse α) (k : Nat) (x : α) : Sparse α :=
  match l with
  | [] => [(k, x)]
  | (a, y) :: t =>
    if k < a then (k, x) :: (a, y) :: t
    else if a = k then (k, x) :: t
    else (a, y) :: sput t k x

/-- Removes an entry. -/
def sdel (l : Sparse α) (k : Nat) : Sparse α :=
  l.filter (fun e => e.1 != k)

/-- Lists or removes an entry. -/
def sset (l : Sparse α) (k : Nat) (x : Option α) : Sparse α :=
  match x with
  | some y => sput l k y
  | none => sdel l k

/-- Changes a listed entry. -/
def supd (l : Sparse α) (k : Nat) (f : α → α) : Sparse α :=
  match sfind l k with
  | some x => sput l k (f x)
  | none => l

/-- Keys in strictly rising order. -/
def keysRise (l : Sparse α) : Bool :=
  match l with
  | [] => true
  | (a, _) :: t => (match t with | [] => true | (b, _) :: _ => decide (a < b)) && keysRise t

/-! ### Byte memories -/

/-- A byte of a memory; an unlisted byte reads 0 (DESIGN CHOICE, log entry 3). -/
def mget (m : List Host.Cell) (a : Nat) : Byte := sget m a 0

/-- Stores a byte, listing no byte that an unlisted address reads as. -/
def mput (m : List Host.Cell) (a : Nat) (b : Byte) : List Host.Cell :=
  if b = 0 then sdel m a else sput m a b

/-- The canonical form: rising addresses and no byte listed that reads as an unlisted one. -/
def memWf (m : List Host.Cell) : Bool :=
  keysRise m && m.all (fun c => c.2 != 0)

/-- `n` bytes from an address, little endian, as a number. -/
def readLE (get : Nat → Byte) (a n : Nat) : Nat :=
  match n with
  | 0 => 0
  | n + 1 => (get a).toNat + 256 * readLE get (a + 1) n

/-- `n` bytes of a memory as a number. -/
def mread (m : List Host.Cell) (a n : Nat) : Nat := readLE (mget m) a n

/-- Stores the low `n` bytes of a number, little endian. -/
def mwrite (m : List Host.Cell) (a n v : Nat) : List Host.Cell :=
  match n with
  | 0 => m
  | n + 1 => mwrite (mput m a (BitVec.ofNat 8 v)) (a + 1) n (v / 256)

/-- Stores the bytes that an enable mask selects. -/
def mwriteMask (m : List Host.Cell) (a n v en : Nat) : List Host.Cell :=
  match n with
  | 0 => m
  | n + 1 =>
    mwriteMask (if en % 2 = 1 then mput m a (BitVec.ofNat 8 v) else m) (a + 1) n (v / 256) (en / 2)

/-- Stores a list of bytes. -/
def mwriteList (m : List Host.Cell) (a : Nat) (l : List Byte) : List Host.Cell :=
  match l with
  | [] => m
  | b :: t => mwriteList (mput m a b) (a + 1) t

/-- A number's low `n` bytes, lowest first. -/
def bytesOf (v n : Nat) : List Byte :=
  match n with
  | 0 => []
  | n + 1 => BitVec.ofNat 8 v :: bytesOf (v / 256) n

/-- The number a list of bytes spells, lowest first. -/
def ofBytes (l : List Byte) : Nat :=
  match l with
  | [] => 0
  | b :: t => b.toNat + 256 * ofBytes t

/-! ### 64-byte lines -/

/-- The line an address lies in. -/
def lineOf (a : Nat) : Nat := a / 64 * 64

/-- Byte `i` of a line. -/
def lineByte (l : Line) (i : Nat) : Byte := l.extractLsb' (8 * i) 8

/-- `n` bytes of a line from offset `i`, as a number. -/
def lineRead (l : Line) (i n : Nat) : Nat := l.toNat / 2 ^ (8 * i) % 2 ^ (8 * n)

/-- The line mask whose byte `i` is all ones where bit `i` of `en` is 1. -/
def byteMask (en : BitVec 64) : Nat → Line
  | 0 => 0
  | n + 1 => byteMask en n ||| (if en.getLsbD n then (0xff : Line) <<< (8 * n) else 0)

/-- Merges the enabled bytes of `new` into `old`. -/
def lineMerge (old new : Line) (en : BitVec 64) : Line :=
  let m := byteMask en 64
  (old &&& ~~~m) ||| (new &&& m)

/-- The enables of `n` bytes from offset `i`. -/
def enables (i n : Nat) : BitVec 64 := BitVec.ofNat 64 ((2 ^ n - 1) * 2 ^ i)

/-- A line of a memory. -/
def mline (m : List Host.Cell) (a : Nat) : Line := BitVec.ofNat 512 (mread m a 64)

/-! ### Bit fields -/

/-- Bits [lo + len − 1 : lo] as a number. -/
def fieldN (v : Nat) (lo len : Nat) : Nat := v / 2 ^ lo % 2 ^ len

/-- Bits [lo + len − 1 : lo] of a register. -/
def field (v : Dword) (lo len : Nat) : Nat := fieldN v.toNat lo len

/-- A register with bits [lo + len − 1 : lo] replaced. -/
def setField (v : Dword) (lo len x : Nat) : Dword :=
  let m : Dword := BitVec.ofNat 64 ((2 ^ len - 1) * 2 ^ lo)
  (v &&& ~~~m) ||| (BitVec.ofNat 64 (x * 2 ^ lo) &&& m)

/-- A saturating increment of a counter of `len` bits. -/
def satInc (x len : Nat) : Nat := if x + 1 < 2 ^ len then x + 1 else x

/-- Least k with 2^k ≥ n. -/
def log2Ceil (n : Nat) : Nat := if n ≤ 1 then 0 else Nat.log2 (n - 1) + 1

/-- n / d rounded up. -/
def ceilDiv (n d : Nat) : Nat := (n + d - 1) / d

/-! ### Lists -/

/-- The list with entry `i` replaced by `f` of it. -/
def updAt (l : List α) (i : Nat) (f : α → α) : List α :=
  match l, i with
  | [], _ => []
  | x :: t, 0 => f x :: t
  | x :: t, i + 1 => x :: updAt t i f

/-- The first element that meets `p`, and the list without it. -/
def takeFirst (p : α → Bool) (l : List α) : Option (α × List α) :=
  match l with
  | [] => none
  | x :: t =>
    if p x then some (x, t)
    else match takeFirst p t with
      | some (y, r) => some (y, x :: r)
      | none => none

/-- A list of numbers with one more, kept in rising order without repeats. -/
def insertNat (l : List Nat) (n : Nat) : List Nat :=
  match l with
  | [] => [n]
  | a :: t => if n < a then n :: a :: t else if a = n then a :: t else a :: insertNat t n

/-- Whether two half-open ranges overlap. -/
def overlaps (a n b m : Nat) : Bool := decide (a < b + m) && decide (b < a + n)

end Sys2Proof.Machine
end

