-- ==== Sys2Proof/Machine/RegTable.lean ====
section
/-! DEFINITION. The registers of the control window: blocks and their bases (R536), offsets, fields, reset
values and access codes, as the field tables of each chapter give them. A register is named by its offset in
the control window (R534). -/

namespace Sys2Proof.Machine

open Sys2Proof

/-- The access codes of R4. -/
inductive AccCode where
  | ro
  | rw
  | rw1c
  | wo
  | rws
  | rwl
  deriving DecidableEq, Repr

/-- A field: lowest bit, length, Reset value (0 where the Reset column is a dash: DESIGN CHOICE, log entry 1),
access code, the encodings that are not reserved (R10), and whether it is the block's LOCK bit (R7). -/
structure FieldDesc where
  lo : Nat
  len : Nat
  reset : Nat
  acc : AccCode
  least : Nat
  most : Nat
  lock : Bool
  deriving DecidableEq, Repr

/-- The register blocks of R536. -/
inductive Blk where
  | id
  | beat
  | wrd
  | snap
  | life
  | hup
  | pwr
  | prt
  | eng
  | tile
  | mez
  | gal
  | cam
  | msh
  | drc
  | sieve
  | sch
  | ldg
  | rle
  | dgst
  | dslot
  | pgr
  | iom
  | rp
  deriving DecidableEq, Repr

/-- Type code, base, stride, instances, span in bytes and whether the block is of the Cold domain (R536). -/
structure BlkInfo where
  type : Nat
  base : Nat
  stride : Nat
  count : Nat
  span : Nat
  cold : Bool
  deriving DecidableEq, Repr

def blkInfo (b : Blk) : BlkInfo :=
  match b with
  | .id => ⟨0x1, 0x0, 0x0, 1, 0x1000, true⟩
  | .beat => ⟨0x2, 0x10000, 0x0, 1, 0x1000, true⟩
  | .wrd => ⟨0x3, 0x20000, 0x0, 1, 0x1000, false⟩
  | .snap => ⟨0x4, 0x30000, 0x0, 1, 0x1000, true⟩
  | .life => ⟨0x5, 0x40000, 0x0, 1, 0x1000, true⟩
  | .hup => ⟨0x6, 0x50000, 0x0, 1, 0x1000, true⟩
  | .pwr => ⟨0x7, 0x60000, 0x0, 1, 0x1000, true⟩
  | .prt => ⟨0x10, 0x1000000, 0x100000, 64, 0x100000, false⟩
  | .eng => ⟨0x20, 0x10000000, 0x10000, 256, 0x10000, false⟩
  | .tile => ⟨0x30, 0x11000000, 0x10000, 64, 0x1000, false⟩
  | .mez => ⟨0x31, 0x11001000, 0x10000, 64, 0x1000, false⟩
  | .gal => ⟨0x32, 0x11002000, 0x10000, 64, 0x1000, false⟩
  | .cam => ⟨0x33, 0x11003000, 0x10000, 64, 0x1000, false⟩
  | .msh => ⟨0x34, 0x11004000, 0x10000, 64, 0xc000, true⟩
  | .drc => ⟨0x40, 0x12000000, 0x100000, 16, 0x80000, true⟩
  | .sieve => ⟨0x41, 0x12080000, 0x100000, 16, 0x80000, false⟩
  | .sch => ⟨0x50, 0x13000000, 0x0, 1, 0x400000, false⟩
  | .ldg => ⟨0x51, 0x13400000, 0x0, 1, 0x200000, true⟩
  | .rle => ⟨0x52, 0x13600000, 0x10000, 8, 0x10000, false⟩
  | .dgst => ⟨0x53, 0x13680000, 0x0, 1, 0x1000, false⟩
  | .dslot => ⟨0x54, 0x13681000, 0x1000, 15, 0x1000, false⟩
  | .pgr => ⟨0x55, 0x13700000, 0x0, 1, 0x100000, false⟩
  | .iom => ⟨0x56, 0x13800000, 0x0, 1, 0x800000, false⟩
  | .rp => ⟨0x57, 0x14000000, 0x100000, 32, 0x100000, false⟩

/-- The window offset of a register: block, instance, offset in the block. -/
def regAt (b : Blk) (i off : Nat) : Nat := (blkInfo b).base + i * (blkInfo b).stride + off

/-- Fields of the ID_ registers by offset. -/
def fieldsId (off : Nat) : List FieldDesc :=
  if off = 0x40 then -- ID_PART
    [⟨0, 16, 2660, .ro, 0, 65535, false⟩,
     ⟨16, 8, 0, .ro, 0, 255, false⟩]
  else if off = 0x48 then -- ID_SERIAL
    [⟨0, 64, 0, .ro, 0, 18446744073709551615, false⟩]
  else if 0x50 ≤ off ∧ off < 0x60 ∧ off % 8 = 0 then -- ID_HART0 and ID_HART1
    [⟨0, 64, 0, .ro, 0, 18446744073709551615, false⟩]
  else if off = 0x60 then -- ID_ROUTER
    [⟨0, 64, 0, .ro, 0, 18446744073709551615, false⟩]
  else []

/-- Fields of the BEAT_ registers by offset. -/
def fieldsBeat (off : Nat) : List FieldDesc :=
  if off = 0x40 then -- BEAT_CTL
    [⟨0, 1, 0, .rwl, 0, 1, false⟩,
     ⟨1, 1, 0, .rw, 0, 1, false⟩,
     ⟨2, 4, 0, .rw, 0, 15, false⟩,
     ⟨63, 1, 0, .rw, 0, 1, true⟩]
  else if off = 0x48 then -- BEAT_PERIOD
    [⟨0, 9, 40, .rwl, 10, 400, false⟩,
     ⟨16, 9, 40, .ro, 0, 511, false⟩,
     ⟨32, 32, 0, .ro, 0, 4294967295, false⟩]
  else if off = 0x50 then -- BEAT_COUNT
    [⟨0, 64, 0, .ro, 0, 18446744073709551615, false⟩]
  else if off = 0x58 then -- BEAT_STAT
    [⟨0, 2, 0, .ro, 0, 3, false⟩,
     ⟨2, 1, 0, .rw1c, 0, 1, false⟩,
     ⟨3, 1, 0, .rw1c, 0, 1, false⟩,
     ⟨4, 1, 1, .ro, 0, 1, false⟩]
  else if off = 0x60 then -- BEAT_PHASE
    [⟨0, 16, 0, .rwl, 0, 65535, false⟩,
     ⟨16, 16, 0, .ro, 0, 65535, false⟩]
  else if off = 0x68 then -- BEAT_IN_CNT
    [⟨0, 32, 0, .ro, 0, 4294967295, false⟩,
     ⟨32, 32, 0, .ro, 0, 4294967295, false⟩]
  else if off = 0x70 then -- BEAT_CORE_IRQ
    [⟨0, 11, 0, .rw, 0, 2047, false⟩,
     ⟨11, 3, 0, .rw, 0, 7, false⟩,
     ⟨16, 4, 0, .rw, 0, 15, false⟩]
  else if 0x78 ≤ off ∧ off < 0x88 ∧ off % 8 = 0 then -- BEAT_CORE_EN0 and BEAT_CORE_EN1
    [⟨0, 64, 0, .rw, 0, 18446744073709551615, false⟩]
  else if off = 0x88 then -- BEAT_QW_PEND
    [⟨0, 16, 0, .ro, 0, 65535, false⟩]
  else if 0x100 ≤ off ∧ off < 0x180 ∧ off % 8 = 0 then -- BEAT_QW_NEXTc
    [⟨0, 48, 0, .ro, 0, 281474976710655, false⟩,
     ⟨63, 1, 0, .ro, 0, 1, false⟩]
  else []

/-- Fields of the WRD_ registers by offset. -/
def fieldsWrd (off : Nat) : List FieldDesc :=
  if off = 0x40 then -- WRD_STAT
    [⟨0, 1, 0, .ro, 0, 1, false⟩,
     ⟨1, 1, 0, .ro, 0, 1, false⟩,
     ⟨2, 2, 0, .ro, 0, 3, false⟩,
     ⟨4, 1, 0, .ro, 0, 1, false⟩,
     ⟨5, 1, 0, .ro, 0, 1, false⟩,
     ⟨6, 1, 0, .rw1c, 0, 1, false⟩,
     ⟨7, 1, 0, .rw1c, 0, 1, false⟩,
     ⟨8, 4, 0, .ro, 0, 15, false⟩,
     ⟨12, 4, 0, .ro, 0, 15, false⟩]
  else if off = 0x48 then -- WRD_DOORBELL
    [⟨0, 1, 0, .wo, 0, 1, false⟩]
  else if off = 0x50 then -- WRD_DMA_ADDR
    [⟨6, 46, 0, .rw, 0, 70368744177663, false⟩]
  else if off = 0x58 then -- WRD_DMA_LEN
    [⟨0, 32, 0, .rw, 0, 4294967295, false⟩]
  else if off = 0x60 then -- WRD_EVENT
    [⟨0, 16, 0, .ro, 0, 65535, false⟩,
     ⟨16, 16, 0, .ro, 0, 65535, false⟩,
     ⟨32, 16, 0, .ro, 0, 65535, false⟩,
     ⟨63, 1, 0, .ro, 0, 1, false⟩]
  else if off = 0x68 then -- WRD_EVENT_CTL
    [⟨0, 1, 0, .wo, 0, 1, false⟩]
  else if off = 0x70 then -- WRD_EVENT_MSI_ADDR
    [⟨2, 62, 0, .rw, 0, 4611686018427387903, false⟩]
  else if off = 0x78 then -- WRD_EVENT_MSI
    [⟨0, 32, 0, .rw, 0, 4294967295, false⟩,
     ⟨32, 1, 0, .rw, 0, 1, false⟩]
  else if off = 0x80 then -- WRD_FW
    [⟨0, 64, 0, .ro, 0, 18446744073709551615, false⟩]
  else if off = 0x88 then -- WRD_ERR
    [⟨0, 1, 0, .rw1c, 0, 1, false⟩,
     ⟨1, 1, 0, .rw1c, 0, 1, false⟩,
     ⟨16, 16, 0, .ro, 0, 65535, false⟩]
  else if 0x100 ≤ off ∧ off < 0x300 ∧ off % 8 = 0 then -- WRD_CMDk and WRD_RSPk
    [⟨0, 64, 0, .rw, 0, 18446744073709551615, false⟩]
  else []

/-- Fields of the SNAP_ registers by offset. -/
def fieldsSnap (off : Nat) : List FieldDesc :=
  if off = 0x40 then -- SNAP_CTL
    [⟨0, 1, 1, .rw, 0, 1, false⟩,
     ⟨1, 1, 0, .rw, 0, 1, false⟩,
     ⟨2, 1, 1, .rw, 0, 1, false⟩,
     ⟨3, 1, 0, .wo, 0, 1, false⟩]
  else if off = 0x48 then -- SNAP_BEAT
    [⟨0, 48, 0, .rw, 0, 281474976710655, false⟩]
  else if off = 0x50 then -- SNAP_CLASS
    [⟨0, 64, 2147483648, .rw, 0, 18446744073709551615, false⟩]
  else if off = 0x58 then -- SNAP_STAT
    [⟨0, 2, 0, .ro, 0, 3, false⟩,
     ⟨2, 3, 0, .ro, 0, 7, false⟩,
     ⟨5, 8, 0, .ro, 0, 255, false⟩,
     ⟨16, 16, 0, .ro, 0, 65535, false⟩]
  else if off = 0x60 then -- SNAP_WHEN
    [⟨0, 45, 0, .ro, 0, 35184372088831, false⟩,
     ⟨45, 19, 0, .ro, 0, 524287, false⟩]
  else if 0x80 ≤ off ∧ off < 0x100 ∧ off % 8 = 0 then -- SNAP_SMP_SELk
    [⟨0, 32, 0, .rw, 0, 4294967295, false⟩,
     ⟨63, 1, 0, .rw, 0, 1, false⟩]
  else if 0x100 ≤ off ∧ off < 0x180 ∧ off % 8 = 0 then -- SNAP_SMP_VALk
    [⟨0, 64, 0, .ro, 0, 18446744073709551615, false⟩]
  else if off = 0x180 then -- SNAP_SMP_BEAT
    [⟨0, 64, 0, .ro, 0, 18446744073709551615, false⟩]
  else []

/-- Fields of the LIFE_ registers by offset. -/
def fieldsLife (off : Nat) : List FieldDesc :=
  if off = 0x40 then -- LIFE_CTL
    [⟨0, 1, 0, .rwl, 0, 1, false⟩,
     ⟨63, 1, 0, .rw, 0, 1, true⟩]
  else if off = 0x48 then -- LIFE_EVQ_BASE
    [⟨12, 40, 0, .rw, 0, 1099511627775, false⟩]
  else if off = 0x50 then -- LIFE_EVQ_CFG
    [⟨0, 1, 0, .rw, 0, 1, false⟩,
     ⟨1, 1, 0, .rw, 0, 1, false⟩,
     ⟨2, 5, 4, .rw, 4, 16, false⟩,
     ⟨32, 32, 0, .rw, 0, 4294967295, false⟩]
  else if off = 0x58 then -- LIFE_EVQ_MSI_ADDR
    [⟨2, 62, 0, .rw, 0, 4611686018427387903, false⟩]
  else if off = 0x60 then -- LIFE_EVQ_IDX
    [⟨0, 16, 0, .ro, 0, 65535, false⟩,
     ⟨16, 16, 0, .rw, 0, 65535, false⟩,
     ⟨32, 32, 0, .ro, 0, 4294967295, false⟩]
  else if off = 0x68 then -- LIFE_POH
    [⟨0, 32, 0, .ro, 0, 4294967295, false⟩,
     ⟨32, 32, 0, .ro, 0, 4294967295, false⟩]
  else if off = 0x70 then -- LIFE_STAT
    [⟨0, 1, 0, .ro, 0, 1, false⟩,
     ⟨1, 1, 0, .rw1c, 0, 1, false⟩,
     ⟨16, 16, 0, .ro, 0, 65535, false⟩]
  else []

/-- Fields of the HUP_ registers by offset. A value outside a field's stated range that its table does not call reserved
is ignored as a reserved encoding is (R10 leaves it open; DESIGN CHOICE, log entry 120). -/
def fieldsHup (off : Nat) : List FieldDesc :=
  if off = 0x40 then -- HUP_CFG
    [⟨0, 1, 0, .rwl, 0, 1, false⟩,
     ⟨1, 1, 0, .rwl, 0, 1, false⟩,
     ⟨2, 2, 0, .rwl, 0, 3, false⟩,
     ⟨63, 1, 0, .rw, 0, 1, true⟩]
  else if off = 0x48 then -- HUP_STORE
    [⟨0, 24, 0, .rwl, 0, 16777215, false⟩,
     ⟨24, 16, 0, .rwl, 0, 65535, false⟩,
     ⟨40, 16, 0, .rwl, 0, 65535, false⟩]
  else if off = 0x50 then -- HUP_SCALE
    [⟨0, 16, 0, .rwl, 0, 65535, false⟩,
     ⟨16, 16, 0, .rwl, 0, 65535, false⟩,
     ⟨32, 16, 0, .rwl, 0, 65535, false⟩,
     ⟨48, 16, 0, .rwl, 0, 65535, false⟩]
  else if off = 0x58 then -- HUP_CHG
    [⟨0, 8, 0, .rw, 0, 255, false⟩,
     ⟨8, 8, 0, .rwl, 0, 255, false⟩,
     ⟨16, 8, 45, .rwl, 0, 255, false⟩]
  else if off = 0x60 then -- HUP_DRAIN
    [⟨0, 8, 120, .rw, 60, 250, false⟩,
     ⟨8, 16, 48000, .rw, 8000, 48000, false⟩,
     ⟨24, 16, 4700, .rwl, 1000, 20000, false⟩]
  else if off = 0x68 then -- HUP_WIN
    [⟨16, 36, 0, .ro, 0, 68719476735, false⟩]
  else if off = 0x70 then -- HUP_ENERGY
    [⟨0, 32, 0, .ro, 0, 4294967295, false⟩,
     ⟨32, 32, 0, .ro, 0, 4294967295, false⟩]
  else if off = 0x78 then -- HUP_LIMIT
    [⟨0, 19, 0, .ro, 0, 524287, false⟩,
     ⟨21, 19, 0, .ro, 0, 524287, false⟩,
     ⟨41, 19, 0, .ro, 0, 524287, false⟩]
  else if off = 0x80 then -- HUP_STAT
    [⟨0, 2, 0, .ro, 0, 3, false⟩,
     ⟨2, 1, 0, .ro, 0, 1, false⟩,
     ⟨3, 1, 1, .ro, 0, 1, false⟩,
     ⟨4, 1, 0, .rw1c, 0, 1, false⟩,
     ⟨5, 3, 0, .ro, 0, 7, false⟩]
  else if off = 0x88 then -- HUP_DRAIN_REC
    [⟨0, 2, 0, .ro, 0, 3, false⟩,
     ⟨2, 19, 0, .ro, 0, 524287, false⟩,
     ⟨21, 19, 0, .ro, 0, 524287, false⟩,
     ⟨40, 16, 0, .ro, 0, 65535, false⟩]
  else []

/-- Fields of the PWR_ registers by offset. A value outside a field's stated range that its table does not call reserved
is ignored as a reserved encoding is (R10 leaves it open; DESIGN CHOICE, log entry 120). -/
def fieldsPwr (off : Nat) : List FieldDesc :=
  if off = 0x40 then -- PWR_CTL
    [⟨0, 8, 250, .rwl, 150, 250, false⟩,
     ⟨8, 8, 115, .rwl, 60, 150, false⟩,
     ⟨16, 1, 1, .rwl, 0, 1, false⟩,
     ⟨17, 1, 0, .rwl, 0, 1, false⟩,
     ⟨63, 1, 0, .rw, 0, 1, true⟩]
  else if off = 0x48 then -- PWR_STAT
    [⟨0, 10, 0, .ro, 0, 1023, false⟩,
     ⟨10, 1, 0, .ro, 0, 1, false⟩,
     ⟨11, 1, 0, .ro, 0, 1, false⟩,
     ⟨12, 1, 0, .ro, 0, 1, false⟩,
     ⟨13, 1, 0, .ro, 0, 1, false⟩,
     ⟨14, 1, 0, .ro, 0, 1, false⟩,
     ⟨15, 1, 0, .ro, 0, 1, false⟩]
  else if off = 0x50 then -- PWR_HALL
    [⟨0, 8, 0, .ro, 0, 255, false⟩,
     ⟨8, 8, 0, .ro, 0, 255, false⟩,
     ⟨16, 12, 3000, .ro, 0, 4095, false⟩,
     ⟨28, 12, 3000, .ro, 0, 4095, false⟩,
     ⟨40, 10, 800, .ro, 0, 1023, false⟩,
     ⟨50, 10, 800, .ro, 0, 1023, false⟩]
  else if off = 0x58 then -- PWR_RST_REC
    [⟨0, 2, 0, .ro, 0, 3, false⟩,
     ⟨8, 32, 0, .ro, 0, 4294967295, false⟩]
  else if off = 0x60 then -- PWR_LINKCFG
    [⟨0, 24, 0, .ro, 0, 16777215, false⟩]
  else if off = 0x68 then -- PWR_UART_CTL
    [⟨0, 1, 0, .rw, 0, 1, false⟩,
     ⟨1, 1, 0, .rw, 0, 1, false⟩,
     ⟨32, 32, 0, .rw, 0, 4294967295, false⟩]
  else if off = 0x70 then -- PWR_UART_MSI_ADDR
    [⟨2, 62, 0, .rw, 0, 4611686018427387903, false⟩]
  else if off = 0x78 then -- PWR_UART_DATA
    [⟨0, 8, 0, .ro, 0, 255, false⟩,
     ⟨8, 1, 0, .ro, 0, 1, false⟩,
     ⟨9, 1, 0, .ro, 0, 1, false⟩,
     ⟨10, 1, 0, .rw1c, 0, 1, false⟩,
     ⟨16, 8, 0, .wo, 0, 255, false⟩,
     ⟨24, 1, 0, .wo, 0, 1, false⟩,
     ⟨25, 1, 0, .wo, 0, 1, false⟩]
  else []

/-- Fields of the PRT_ registers by offset. -/
def fieldsPrt (off : Nat) : List FieldDesc :=
  if off = 0x40 then -- PRT_ADMIN_BASE
    [⟨12, 40, 0, .rw, 0, 1099511627775, false⟩]
  else if off = 0x48 then -- PRT_ADMIN_CFG
    [⟨0, 1, 0, .rw, 0, 1, false⟩,
     ⟨1, 1, 0, .rw, 0, 1, false⟩,
     ⟨2, 1, 0, .rw, 0, 1, false⟩,
     ⟨8, 5, 4, .rw, 4, 16, false⟩]
  else if off = 0x50 then -- PRT_ADMIN_MSI_ADDR
    [⟨2, 62, 0, .rw, 0, 4611686018427387903, false⟩]
  else if off = 0x58 then -- PRT_ADMIN_MOD
    [⟨0, 32, 0, .rw, 0, 4294967295, false⟩,
     ⟨32, 12, 1, .rw, 1, 4095, false⟩,
     ⟨48, 11, 1, .rw, 1, 1024, false⟩]
  else if off = 0x60 then -- PRT_ADMIN_STAT
    [⟨0, 2, 0, .ro, 0, 3, false⟩,
     ⟨2, 2, 0, .ro, 0, 3, false⟩,
     ⟨16, 16, 0, .ro, 0, 65535, false⟩,
     ⟨32, 16, 0, .ro, 0, 65535, false⟩]
  else if off = 0x68 then -- PRT_ADMIN_RESET
    [⟨0, 2, 0, .wo, 0, 3, false⟩]
  else if 0x80000 ≤ off ∧ off < 0xa0000 ∧ off % 8 = 0 then -- PRT_DBq
    [⟨0, 64, 0, .wo, 0, 18446744073709551615, false⟩]
  else if off = 0x70 then -- PRT_STAT
    [⟨0, 2, 0, .ro, 0, 3, false⟩,
     ⟨8, 6, 0, .ro, 0, 63, false⟩,
     ⟨16, 9, 0, .ro, 0, 511, false⟩,
     ⟨32, 9, 0, .ro, 0, 511, false⟩]
  else if 0x78 ≤ off ∧ off < 0x98 ∧ off % 8 = 0 then -- PRT_ENGk
    [⟨0, 64, 0, .ro, 0, 18446744073709551615, false⟩]
  else if 0x98 ≤ off ∧ off < 0xb8 ∧ off % 8 = 0 then -- PRT_CAMk
    [⟨0, 64, 0, .ro, 0, 18446744073709551615, false⟩]
  else if off = 0xc0 then -- PRT_RAS
    [⟨0, 1, 0, .rw1c, 0, 1, false⟩,
     ⟨8, 8, 0, .ro, 0, 255, false⟩,
     ⟨16, 16, 0, .ro, 0, 65535, false⟩]
  else []

/-- Fields of the ENG_ registers by offset. -/
def fieldsEng (off : Nat) : List FieldDesc :=
  if off = 0x40 then -- ENG_CTL
    [⟨0, 1, 1, .rw, 0, 1, false⟩,
     ⟨1, 1, 0, .rw, 0, 1, false⟩]
  else if off = 0x48 then -- ENG_STAT
    [⟨0, 2, 0, .ro, 0, 3, false⟩,
     ⟨2, 1, 0, .ro, 0, 1, false⟩,
     ⟨3, 1, 1, .ro, 0, 1, false⟩,
     ⟨4, 1, 0, .ro, 0, 1, false⟩,
     ⟨16, 16, 0, .ro, 0, 65535, false⟩]
  else if off = 0x50 then -- ENG_HALT_PC
    [⟨0, 16, 0, .ro, 0, 65535, false⟩]
  else if off = 0x58 then -- ENG_ERR
    [⟨0, 1, 0, .rw1c, 0, 1, false⟩,
     ⟨1, 1, 0, .rw1c, 0, 1, false⟩,
     ⟨2, 1, 0, .rw1c, 0, 1, false⟩,
     ⟨3, 1, 0, .rw1c, 0, 1, false⟩]
  else if off = 0x60 then -- ENG_EVT_CNT
    [⟨0, 32, 0, .ro, 0, 4294967295, false⟩,
     ⟨32, 16, 0, .ro, 0, 65535, false⟩]
  else if off = 0x68 then -- ENG_CS_ADDR
    [⟨2, 14, 0, .rw, 0, 16383, false⟩,
     ⟨63, 1, 0, .rw, 0, 1, false⟩]
  else if off = 0x70 then -- ENG_CS_DATA
    [⟨0, 32, 0, .rw, 0, 4294967295, false⟩]
  else []

/-- Fields of the TILE_ registers by offset. -/
def fieldsTile (off : Nat) : List FieldDesc :=
  if off = 0 then [] else []

/-- Fields of the MEZ_ registers by offset. -/
def fieldsMez (off : Nat) : List FieldDesc :=
  if off = 0x40 then -- MEZ_ERR
    [⟨0, 1, 0, .rw1c, 0, 1, false⟩,
     ⟨1, 1, 0, .rw1c, 0, 1, false⟩,
     ⟨16, 16, 0, .ro, 0, 65535, false⟩,
     ⟨32, 16, 0, .ro, 0, 65535, false⟩]
  else if 0x48 ≤ off ∧ off < 0x68 ∧ off % 8 = 0 then -- MEZ_L1ERRk
    [⟨0, 1, 0, .rw1c, 0, 1, false⟩,
     ⟨1, 1, 0, .rw1c, 0, 1, false⟩,
     ⟨16, 16, 0, .ro, 0, 65535, false⟩,
     ⟨32, 16, 0, .ro, 0, 65535, false⟩,
     ⟨48, 2, 0, .ro, 0, 3, false⟩]
  else if off = 0x68 then -- MEZ_EVT
    [⟨0, 32, 0, .ro, 0, 4294967295, false⟩,
     ⟨32, 16, 0, .ro, 0, 65535, false⟩,
     ⟨48, 16, 0, .ro, 0, 65535, false⟩]
  else []

/-- Fields of the GAL_ registers by offset. -/
def fieldsGal (off : Nat) : List FieldDesc :=
  if 0x40 ≤ off ∧ off < 0x240 ∧ off % 8 = 0 then -- GAL_WAYMASKp
    [⟨0, 12, 0, .rw, 0, 4095, false⟩]
  else if off = 0x240 then -- GAL_ERR
    [⟨0, 1, 0, .rw1c, 0, 1, false⟩,
     ⟨1, 1, 0, .rw1c, 0, 1, false⟩,
     ⟨2, 1, 0, .rw1c, 0, 1, false⟩,
     ⟨16, 16, 0, .ro, 0, 65535, false⟩,
     ⟨32, 16, 0, .ro, 0, 65535, false⟩]
  else if off = 0x248 then -- GAL_EVT
    [⟨0, 24, 0, .ro, 0, 16777215, false⟩,
     ⟨24, 24, 0, .ro, 0, 16777215, false⟩,
     ⟨48, 16, 0, .ro, 0, 65535, false⟩]
  else []

/-- Fields of the CAM_ registers by offset. -/
def fieldsCam (off : Nat) : List FieldDesc :=
  if 0x40 ≤ off ∧ off < 0x60 ∧ off % 8 = 0 then -- CAM_CFGk
    [⟨0, 2, 0, .rw, 0, 2, false⟩,
     ⟨2, 1, 0, .rw, 0, 1, false⟩,
     ⟨4, 7, 8, .rw, 4, 64, false⟩,
     ⟨16, 6, 0, .rw, 0, 63, false⟩,
     ⟨22, 1, 0, .rw, 0, 1, false⟩,
     ⟨23, 1, 0, .wo, 0, 1, false⟩]
  else if 0x60 ≤ off ∧ off < 0x80 ∧ off % 8 = 0 then -- CAM_STATk
    [⟨0, 11, 0, .ro, 0, 2047, false⟩,
     ⟨16, 11, 0, .ro, 0, 2047, false⟩,
     ⟨30, 2, 0, .ro, 0, 3, false⟩,
     ⟨32, 5, 0, .ro, 0, 31, false⟩,
     ⟨40, 24, 0, .ro, 0, 16777215, false⟩]
  else if off = 0x80 then -- CAM_SHADOW
    [⟨15, 37, 0, .rwl, 0, 137438953471, false⟩,
     ⟨63, 1, 0, .rw, 0, 1, true⟩]
  else if off = 0x88 then -- CAM_PACE
    [⟨0, 5, 16, .rw, 1, 16, false⟩,
     ⟨16, 16, 4096, .rw, 64, 65535, false⟩]
  else if off = 0x90 then -- CAM_PACE_STAT
    [⟨0, 17, 4096, .ro, 0, 131071, false⟩,
     ⟨17, 5, 16, .ro, 0, 31, false⟩,
     ⟨32, 32, 0, .ro, 0, 4294967295, false⟩]
  else if off = 0x98 then -- CAM_OPS
    [⟨0, 32, 0, .ro, 0, 4294967295, false⟩,
     ⟨32, 32, 0, .ro, 0, 4294967295, false⟩]
  else if off = 0xa0 then -- CAM_ERR
    [⟨0, 1, 0, .rw1c, 0, 1, false⟩,
     ⟨1, 1, 0, .rw1c, 0, 1, false⟩,
     ⟨2, 1, 0, .rw1c, 0, 1, false⟩,
     ⟨3, 1, 0, .rw1c, 0, 1, false⟩,
     ⟨4, 1, 0, .rw1c, 0, 1, false⟩,
     ⟨16, 16, 0, .ro, 0, 65535, false⟩]
  else []

/-- Fields of the MSH_ registers by offset. -/
def fieldsMsh (off : Nat) : List FieldDesc :=
  if off = 0x40 then -- MSH_STAT
    [⟨0, 1, 1, .ro, 0, 1, false⟩,
     ⟨1, 1, 1, .ro, 0, 1, false⟩,
     ⟨2, 1, 1, .ro, 0, 1, false⟩,
     ⟨3, 1, 1, .ro, 0, 1, false⟩,
     ⟨4, 1, 1, .ro, 0, 1, false⟩,
     ⟨5, 1, 0, .ro, 0, 1, false⟩,
     ⟨6, 1, 0, .ro, 0, 1, false⟩,
     ⟨8, 7, 127, .ro, 0, 127, false⟩]
  else if off = 0x48 then -- MSH_RETRY
    [⟨0, 16, 0, .ro, 0, 65535, false⟩,
     ⟨16, 16, 0, .ro, 0, 65535, false⟩,
     ⟨32, 16, 0, .ro, 0, 65535, false⟩,
     ⟨48, 16, 0, .ro, 0, 65535, false⟩]
  else []

/-- Fields of the DRC_ registers by offset. A value outside a field's stated range that its table does not call reserved
is ignored as a reserved encoding is (R10 leaves it open; DESIGN CHOICE, log entry 120). -/
def fieldsDrc (off : Nat) : List FieldDesc :=
  if off = 0x40 then -- DRC_CFG
    [⟨0, 2, 0, .ro, 0, 3, false⟩,
     ⟨2, 2, 0, .ro, 0, 3, false⟩,
     ⟨4, 3, 0, .ro, 0, 7, false⟩,
     ⟨8, 10, 0, .ro, 0, 1023, false⟩]
  else if off = 0x48 then -- DRC_CTL
    [⟨0, 8, 4, .rwl, 1, 128, false⟩,
     ⟨8, 14, 2048, .rwl, 256, 8192, false⟩,
     ⟨22, 8, 8, .rwl, 1, 255, false⟩,
     ⟨63, 1, 0, .rw, 0, 1, true⟩]
  else if off = 0x50 then -- DRC_TRAIN
    [⟨0, 8, 16, .rwl, 2, 64, false⟩,
     ⟨8, 16, 0, .ro, 0, 65535, false⟩]
  else if off = 0x58 then -- DRC_STAT
    [⟨0, 2, 0, .ro, 0, 3, false⟩,
     ⟨2, 8, 0, .ro, 0, 255, false⟩,
     ⟨10, 7, 0, .ro, 0, 127, false⟩,
     ⟨17, 15, 0, .ro, 0, 32767, false⟩,
     ⟨32, 16, 0, .ro, 0, 65535, false⟩,
     ⟨48, 16, 0, .ro, 0, 65535, false⟩]
  else if off = 0x60 then -- DRC_ECC
    [⟨0, 32, 0, .ro, 0, 4294967295, false⟩,
     ⟨32, 16, 0, .ro, 0, 65535, false⟩,
     ⟨48, 16, 0, .ro, 0, 65535, false⟩]
  else if off = 0x68 then -- DRC_ERR
    [⟨0, 1, 0, .rw1c, 0, 1, false⟩,
     ⟨1, 1, 0, .rw1c, 0, 1, false⟩,
     ⟨2, 1, 0, .rw1c, 0, 1, false⟩,
     ⟨3, 1, 0, .rw1c, 0, 1, false⟩,
     ⟨4, 1, 0, .rw1c, 0, 1, false⟩]
  else if off = 0x70 then -- DRC_ERR_ADDR
    [⟨0, 52, 0, .ro, 0, 4503599627370495, false⟩,
     ⟨63, 1, 0, .ro, 0, 1, false⟩]
  else if off = 0x78 then -- DRC_RH
    [⟨0, 32, 0, .ro, 0, 4294967295, false⟩,
     ⟨32, 14, 0, .ro, 0, 16383, false⟩]
  else if off = 0x80 then -- DRC_LINK
    [⟨0, 16, 0, .ro, 0, 65535, false⟩,
     ⟨16, 16, 0, .ro, 0, 65535, false⟩,
     ⟨32, 8, 0, .ro, 0, 255, false⟩,
     ⟨40, 8, 0, .ro, 0, 255, false⟩,
     ⟨48, 16, 0, .ro, 0, 65535, false⟩]
  else []

/-- Fields of the SIEVE_ registers by offset. -/
def fieldsSieve (off : Nat) : List FieldDesc :=
  if off = 0x40 then -- SIEVE_STAT
    [⟨0, 7, 0, .ro, 0, 127, false⟩,
     ⟨8, 16, 0, .ro, 0, 65535, false⟩,
     ⟨24, 7, 0, .ro, 0, 127, false⟩]
  else if 0x48 ≤ off ∧ off < 0x68 ∧ off % 8 = 0 then -- SIEVE_ROWS, SIEVE_SEL, SIEVE_BYTES and SIEVE_STALL
    [⟨0, 64, 0, .ro, 0, 18446744073709551615, false⟩]
  else if off = 0x68 then -- SIEVE_ERR
    [⟨0, 1, 0, .rw1c, 0, 1, false⟩,
     ⟨1, 1, 0, .rw1c, 0, 1, false⟩,
     ⟨32, 16, 0, .ro, 0, 65535, false⟩]
  else []

/-- Fields of the SCH_ registers by offset. -/
def fieldsSch (off : Nat) : List FieldDesc :=
  if off = 0x40 then -- SCH_CTL
    [⟨0, 16, 64, .rwl, 1, 4096, false⟩,
     ⟨16, 16, 1600, .rwl, 500, 20000, false⟩,
     ⟨63, 1, 0, .rw, 0, 1, true⟩]
  else if off = 0x48 then -- SCH_STAT
    [⟨0, 19, 0, .ro, 0, 524287, false⟩,
     ⟨20, 17, 0, .ro, 0, 131071, false⟩,
     ⟨40, 1, 0, .ro, 0, 1, false⟩]
  else if off = 0x50 then -- SCH_EVT0
    [⟨0, 64, 0, .ro, 0, 18446744073709551615, false⟩]
  else if off = 0x58 then -- SCH_EVT1
    [⟨0, 32, 0, .ro, 0, 4294967295, false⟩,
     ⟨32, 10, 0, .ro, 0, 1023, false⟩,
     ⟨42, 10, 0, .ro, 0, 1023, false⟩,
     ⟨52, 12, 0, .ro, 0, 4095, false⟩]
  else if off = 0x60 then -- SCH_BP
    [⟨0, 1, 0, .rw1c, 0, 1, false⟩,
     ⟨1, 1, 0, .rw1c, 0, 1, false⟩,
     ⟨2, 1, 0, .rw1c, 0, 1, false⟩,
     ⟨3, 1, 0, .rw1c, 0, 1, false⟩,
     ⟨32, 32, 0, .ro, 0, 4294967295, false⟩]
  else if 0x68 ≤ off ∧ off < 0x88 ∧ off % 8 = 0 then -- SCH_ENG_INSVCk
    [⟨0, 64, 0, .ro, 0, 18446744073709551615, false⟩]
  else if off = 0x88 then -- SCH_OBS_SEL
    [⟨0, 2, 0, .rw, 0, 2, false⟩,
     ⟨8, 8, 0, .rw, 0, 255, false⟩]
  else if off = 0x90 then -- SCH_OBS_READY
    [⟨0, 20, 0, .ro, 0, 1048575, false⟩,
     ⟨32, 32, 0, .ro, 0, 4294967295, false⟩]
  else if off = 0x98 then -- SCH_OBS_LOAD
    [⟨0, 11, 0, .ro, 0, 2047, false⟩]
  else if 0xa0 ≤ off ∧ off < 0xe0 ∧ off % 8 = 0 then -- SCH_OBS_HISTk
    [⟨0, 32, 0, .ro, 0, 4294967295, false⟩,
     ⟨32, 32, 0, .ro, 0, 4294967295, false⟩]
  else if off = 0xe0 then -- SCH_THR_SEL
    [⟨0, 18, 0, .rw, 0, 262143, false⟩]
  else if 0xe8 ≤ off ∧ off < 0x108 ∧ off % 8 = 0 then -- SCH_THR_Dk
    [⟨0, 64, 0, .ro, 0, 18446744073709551615, false⟩]
  else []

/-- Fields of the LDG_ registers by offset. -/
def fieldsLdg (off : Nat) : List FieldDesc :=
  if off = 0x40 then -- LDG_CAP
    [⟨0, 7, 96, .ro, 0, 127, false⟩,
     ⟨7, 7, 1, .ro, 0, 127, false⟩,
     ⟨14, 7, 0, .ro, 0, 127, false⟩,
     ⟨21, 7, 0, .ro, 0, 127, false⟩,
     ⟨28, 7, 0, .ro, 0, 127, false⟩,
     ⟨35, 7, 0, .ro, 0, 127, false⟩]
  else if off = 0x48 then -- LDG_STAT
    [⟨0, 8, 0, .ro, 0, 255, false⟩,
     ⟨8, 2, 0, .ro, 0, 3, false⟩,
     ⟨10, 1, 1, .ro, 0, 1, false⟩,
     ⟨16, 14, 0, .ro, 0, 16383, false⟩,
     ⟨32, 7, 0, .ro, 0, 127, false⟩]
  else if off = 0x50 then -- LDG_NS_SEL
    [⟨0, 7, 1, .rw, 1, 64, false⟩]
  else if off = 0x58 then -- LDG_NS_INFO
    [⟨0, 1, 0, .ro, 0, 1, false⟩,
     ⟨1, 6, 0, .ro, 0, 63, false⟩,
     ⟨7, 1, 0, .ro, 0, 1, false⟩,
     ⟨8, 7, 0, .ro, 0, 127, false⟩,
     ⟨16, 16, 0, .ro, 0, 65535, false⟩,
     ⟨32, 32, 0, .ro, 0, 4294967295, false⟩]
  else if 0x60 ≤ off ∧ off < 0x80 ∧ off % 8 = 0 then -- LDG_HEALTHk
    [⟨0, 8, 0, .ro, 0, 255, false⟩,
     ⟨8, 8, 100, .ro, 0, 255, false⟩,
     ⟨16, 16, 0, .ro, 0, 65535, false⟩,
     ⟨32, 16, 0, .ro, 0, 65535, false⟩]
  else if 0x80 ≤ off ∧ off < 0x90 ∧ off % 8 = 0 then -- LDG_EVT_RD and LDG_EVT_WR
    [⟨0, 64, 0, .ro, 0, 18446744073709551615, false⟩]
  else if off = 0x90 then -- LDG_ERR
    [⟨0, 1, 0, .rw1c, 0, 1, false⟩,
     ⟨1, 1, 0, .rw1c, 0, 1, false⟩,
     ⟨2, 1, 0, .rw1c, 0, 1, false⟩,
     ⟨3, 1, 0, .rw1c, 0, 1, false⟩,
     ⟨4, 1, 0, .rw1c, 0, 1, false⟩,
     ⟨16, 16, 0, .ro, 0, 65535, false⟩]
  else if off = 0x98 then -- LDG_ST_CTL
    [⟨0, 2, 0, .wo, 0, 3, false⟩]
  else if off = 0xa0 then -- LDG_ST_STAT
    [⟨0, 2, 0, .ro, 0, 3, false⟩,
     ⟨2, 1, 0, .ro, 0, 1, false⟩,
     ⟨3, 3, 0, .ro, 0, 7, false⟩,
     ⟨6, 2, 0, .ro, 0, 3, false⟩,
     ⟨16, 16, 0, .ro, 0, 65535, false⟩,
     ⟨32, 32, 0, .ro, 0, 4294967295, false⟩]
  else []

/-- Fields of the RLE_ registers by offset. -/
def fieldsRle (off : Nat) : List FieldDesc :=
  if off = 0x40 then -- RLE_STAT
    [⟨0, 2, 0, .ro, 0, 3, false⟩,
     ⟨2, 1, 0, .ro, 0, 1, false⟩,
     ⟨4, 6, 0, .ro, 0, 63, false⟩]
  else if 0x48 ≤ off ∧ off < 0x58 ∧ off % 8 = 0 then -- RLE_IN and RLE_OUT
    [⟨0, 64, 0, .ro, 0, 18446744073709551615, false⟩]
  else if off = 0x58 then -- RLE_ERR
    [⟨0, 1, 0, .rw1c, 0, 1, false⟩,
     ⟨1, 1, 0, .rw1c, 0, 1, false⟩,
     ⟨16, 16, 0, .ro, 0, 65535, false⟩,
     ⟨32, 2, 0, .ro, 0, 3, false⟩]
  else []

/-- Fields of the DGST_ registers by offset. -/
def fieldsDgst (off : Nat) : List FieldDesc :=
  if 0x40 ≤ off ∧ off < 0xc0 ∧ off % 8 = 0 then -- DGST_SLOTs
    [⟨0, 6, 0, .rw, 0, 63, false⟩,
     ⟨6, 1, 0, .rw, 0, 1, false⟩,
     ⟨7, 2, 0, .ro, 0, 3, false⟩,
     ⟨9, 1, 0, .ro, 0, 1, false⟩]
  else if off = 0xc0 then -- DGST_ERR
    [⟨0, 1, 0, .rw1c, 0, 1, false⟩,
     ⟨1, 4, 0, .ro, 0, 15, false⟩,
     ⟨16, 16, 0, .ro, 0, 65535, false⟩]
  else if off = 0xc8 then -- DGST_EVT
    [⟨0, 64, 0, .ro, 0, 18446744073709551615, false⟩]
  else []

/-- Fields of the DSLOT_ registers by offset. -/
def fieldsDslot (off : Nat) : List FieldDesc :=
  if off = 0x40 then -- DGST_SCTL
    [⟨0, 1, 0, .wo, 0, 1, false⟩,
     ⟨1, 1, 0, .wo, 0, 1, false⟩,
     ⟨2, 1, 0, .wo, 0, 1, false⟩,
     ⟨3, 1, 0, .wo, 0, 1, false⟩,
     ⟨4, 1, 0, .wo, 0, 1, false⟩,
     ⟨5, 1, 0, .wo, 0, 1, false⟩,
     ⟨6, 2, 0, .wo, 0, 3, false⟩,
     ⟨8, 8, 0, .wo, 0, 255, false⟩]
  else if off = 0x48 then -- DGST_SSTAT
    [⟨0, 1, 0, .ro, 0, 1, false⟩,
     ⟨1, 1, 0, .rw1c, 0, 1, false⟩,
     ⟨2, 1, 0, .rw1c, 0, 1, false⟩,
     ⟨3, 5, 0, .ro, 0, 31, false⟩]
  else if off = 0x50 then -- DGST_DATA
    [⟨0, 64, 0, .wo, 0, 18446744073709551615, false⟩]
  else if 0x58 ≤ off ∧ off < 0x68 ∧ off % 8 = 0 then -- DGST_CMP_A and DGST_CMP_B
    [⟨0, 8, 0, .ro, 0, 255, false⟩]
  else if 0x100 ≤ off ∧ off < 0x188 ∧ off % 8 = 0 then -- DGST_OUTk
    [⟨0, 64, 0, .ro, 0, 18446744073709551615, false⟩]
  else if 0x200 ≤ off ∧ off < 0x280 ∧ off % 8 = 0 then -- DGST_EXPk
    [⟨0, 64, 0, .rw, 0, 18446744073709551615, false⟩]
  else []

/-- Fields of the PGR_ registers by offset. A value outside a field's stated range that its table does not call reserved
is ignored as a reserved encoding is (R10 leaves it open; DESIGN CHOICE, log entry 120). -/
def fieldsPgr (off : Nat) : List FieldDesc :=
  if off = 0x40 then -- PGR_CTL
    [⟨0, 8, 5, .rwl, 0, 255, false⟩,
     ⟨8, 8, 10, .rwl, 0, 255, false⟩,
     ⟨16, 4, 4, .rwl, 1, 8, false⟩,
     ⟨63, 1, 0, .rw, 0, 1, true⟩]
  else if off = 0x48 then -- PGR_DON_IOVA
    [⟨16, 48, 0, .rw, 0, 281474976710655, false⟩]
  else if off = 0x50 then -- PGR_DON_CMD
    [⟨0, 6, 0, .rw, 0, 63, false⟩,
     ⟨8, 24, 0, .rw, 0, 16777215, false⟩,
     ⟨32, 2, 0, .rw, 0, 3, false⟩,
     ⟨34, 2, 0, .rw, 0, 3, false⟩,
     ⟨63, 1, 0, .wo, 0, 1, false⟩]
  else if off = 0x58 then -- PGR_DON_STAT
    [⟨0, 2, 0, .ro, 0, 3, false⟩,
     ⟨8, 8, 0, .ro, 0, 255, false⟩,
     ⟨16, 24, 0, .ro, 0, 16777215, false⟩]
  else if off = 0x60 then -- PGR_PART_SEL
    [⟨0, 6, 0, .rw, 0, 63, false⟩]
  else if off = 0x68 then -- PGR_PART_QUOTA
    [⟨0, 28, 0, .rw, 0, 268435455, false⟩,
     ⟨28, 20, 0, .rw, 0, 1048575, false⟩,
     ⟨48, 16, 0, .rw, 0, 65535, false⟩]
  else if off = 0x70 then -- PGR_PART_USE
    [⟨0, 28, 0, .ro, 0, 268435455, false⟩,
     ⟨28, 28, 0, .ro, 0, 268435455, false⟩]
  else if off = 0x78 then -- PGR_LDG
    [⟨0, 7, 0, .rwl, 0, 96, false⟩]
  else if off = 0x80 then -- PGR_EVT
    [⟨0, 32, 0, .ro, 0, 4294967295, false⟩,
     ⟨32, 32, 0, .ro, 0, 4294967295, false⟩]
  else if off = 0x88 then -- PGR_ERR
    [⟨0, 1, 0, .rw1c, 0, 1, false⟩,
     ⟨1, 1, 0, .rw1c, 0, 1, false⟩,
     ⟨2, 1, 0, .rw1c, 0, 1, false⟩,
     ⟨3, 1, 0, .rw1c, 0, 1, false⟩,
     ⟨16, 16, 0, .ro, 0, 65535, false⟩,
     ⟨32, 16, 0, .ro, 0, 65535, false⟩]
  else []

/-- Fields of the IOM_ registers by offset. -/
def fieldsIom (off : Nat) : List FieldDesc :=
  if off = 0x1000 then -- IOM_CAP
    [⟨0, 8, 16, .ro, 0, 255, false⟩,
     ⟨9, 3, 7, .ro, 0, 7, false⟩,
     ⟨17, 3, 7, .ro, 0, 7, false⟩,
     ⟨22, 1, 1, .ro, 0, 1, false⟩,
     ⟨24, 1, 1, .ro, 0, 1, false⟩,
     ⟨25, 1, 1, .ro, 0, 1, false⟩,
     ⟨32, 6, 52, .ro, 0, 63, false⟩,
     ⟨38, 3, 7, .ro, 0, 7, false⟩]
  else if off = 0x1008 then -- IOM_FCTL
    [⟨0, 3, 0, .ro, 0, 7, false⟩]
  else if off = 0x1010 then -- IOM_DDTP
    [⟨0, 4, 0, .rw, 0, 15, false⟩,
     ⟨4, 1, 0, .ro, 0, 1, false⟩,
     ⟨10, 44, 0, .rw, 0, 17592186044415, false⟩]
  else if off = 0x1018 then -- IOM_CQB
    [⟨0, 5, 0, .rw, 0, 31, false⟩,
     ⟨10, 44, 0, .rw, 0, 17592186044415, false⟩]
  else if off = 0x1020 then -- IOM_CQ
    [⟨0, 32, 0, .ro, 0, 4294967295, false⟩,
     ⟨32, 32, 0, .rw, 0, 4294967295, false⟩]
  else if off = 0x1028 then -- IOM_FQB
    [⟨0, 5, 0, .rw, 0, 31, false⟩,
     ⟨10, 44, 0, .rw, 0, 17592186044415, false⟩]
  else if off = 0x1030 then -- IOM_FQ
    [⟨0, 32, 0, .rw, 0, 4294967295, false⟩,
     ⟨32, 32, 0, .ro, 0, 4294967295, false⟩]
  else if off = 0x1038 then -- IOM_PQB
    [⟨0, 5, 0, .rw, 0, 31, false⟩,
     ⟨10, 44, 0, .rw, 0, 17592186044415, false⟩]
  else if off = 0x1040 then -- IOM_PQ
    [⟨0, 32, 0, .rw, 0, 4294967295, false⟩,
     ⟨32, 32, 0, .ro, 0, 4294967295, false⟩]
  else if off = 0x1048 then -- IOM_CSR
    [⟨0, 2, 0, .rw, 0, 3, false⟩,
     ⟨8, 1, 0, .rw1c, 0, 1, false⟩,
     ⟨9, 1, 0, .rw1c, 0, 1, false⟩,
     ⟨10, 1, 0, .rw1c, 0, 1, false⟩,
     ⟨11, 1, 0, .rw1c, 0, 1, false⟩,
     ⟨16, 1, 0, .ro, 0, 1, false⟩,
     ⟨17, 1, 0, .ro, 0, 1, false⟩,
     ⟨32, 2, 0, .rw, 0, 3, false⟩,
     ⟨40, 1, 0, .rw1c, 0, 1, false⟩,
     ⟨41, 1, 0, .rw1c, 0, 1, false⟩,
     ⟨48, 1, 0, .ro, 0, 1, false⟩,
     ⟨49, 1, 0, .ro, 0, 1, false⟩]
  else if off = 0x1050 then -- IOM_PQCSR
    [⟨0, 2, 0, .rw, 0, 3, false⟩,
     ⟨8, 1, 0, .rw1c, 0, 1, false⟩,
     ⟨9, 1, 0, .rw1c, 0, 1, false⟩,
     ⟨16, 1, 0, .ro, 0, 1, false⟩,
     ⟨17, 1, 0, .ro, 0, 1, false⟩,
     ⟨32, 1, 0, .rw1c, 0, 1, false⟩,
     ⟨33, 1, 0, .rw1c, 0, 1, false⟩,
     ⟨34, 1, 0, .rw1c, 0, 1, false⟩,
     ⟨35, 1, 0, .rw1c, 0, 1, false⟩]
  else if off = 0x12f8 then -- IOM_ICVEC
    [⟨0, 4, 0, .rw, 0, 15, false⟩,
     ⟨4, 4, 0, .rw, 0, 15, false⟩,
     ⟨8, 4, 0, .rw, 0, 15, false⟩,
     ⟨12, 4, 0, .rw, 0, 15, false⟩]
  else if 0x1300 ≤ off ∧ off < 0x1400 ∧ off % 8 = 0 then -- IOM_MSIk
    [⟨0, 64, 0, .rw, 0, 18446744073709551615, false⟩]
  else []

/-- Fields of the RP_ registers by offset. -/
def fieldsRp (off : Nat) : List FieldDesc :=
  if off = 0 then [] else []

/-- Fields of the block header (R538). -/
def fieldsHdr (off : Nat) : List FieldDesc :=
  if off = 0x0 then -- HDR_ID
    [⟨0, 8, 0, .ro, 0, 255, false⟩,
     ⟨16, 16, 0, .ro, 0, 65535, false⟩]
  else if off = 0x8 then -- HDR_VERSION
    [⟨0, 8, 0, .ro, 0, 255, false⟩,
     ⟨8, 8, 1, .ro, 0, 255, false⟩]
  else if off = 0x10 then -- HDR_CAP
    [⟨0, 20, 0, .ro, 0, 1048575, false⟩,
     ⟨20, 1, 0, .ro, 0, 1, false⟩,
     ⟨21, 1, 0, .ro, 0, 1, false⟩]
  else if off = 0x18 then -- HDR_STATUS
    [⟨0, 1, 0, .ro, 0, 1, false⟩,
     ⟨1, 1, 0, .ro, 0, 1, false⟩,
     ⟨2, 1, 0, .ro, 0, 1, false⟩]
  else if off = 0x20 then -- HDR_ERR
    [⟨0, 1, 0, .ro, 0, 1, false⟩,
     ⟨1, 1, 0, .rw1c, 0, 1, false⟩,
     ⟨16, 16, 0, .ro, 0, 65535, false⟩]
  else []

/-- Fields of a register: the header in the first 64 bytes of a block, then the block's own (R538). -/
def fieldsOf (b : Blk) (off : Nat) : List FieldDesc :=
  if off < 0x40 then fieldsHdr off
  else match b with
    | .id => fieldsId off
    | .beat => fieldsBeat off
    | .wrd => fieldsWrd off
    | .snap => fieldsSnap off
    | .life => fieldsLife off
    | .hup => fieldsHup off
    | .pwr => fieldsPwr off
    | .prt => fieldsPrt off
    | .eng => fieldsEng off
    | .tile => fieldsTile off
    | .mez => fieldsMez off
    | .gal => fieldsGal off
    | .cam => fieldsCam off
    | .msh => fieldsMsh off
    | .drc => fieldsDrc off
    | .sieve => fieldsSieve off
    | .sch => fieldsSch off
    | .ldg => fieldsLdg off
    | .rle => fieldsRle off
    | .dgst => fieldsDgst off
    | .dslot => fieldsDslot off
    | .pgr => fieldsPgr off
    | .iom => fieldsIom off
    | .rp => fieldsRp off

/-- The block, instance and offset in the block of a window offset (R536); none outside every block. -/
def blkOf (x : Nat) : Option (Blk × Nat × Nat) :=
  if x < 0x1000000 then
    (if x % 0x10000 < 0x1000 then
      match x / 0x10000 with
      | 0 => some (.id, 0, x)
      | 1 => some (.beat, 0, x - 0x10000)
      | 2 => some (.wrd, 0, x - 0x20000)
      | 3 => some (.snap, 0, x - 0x30000)
      | 4 => some (.life, 0, x - 0x40000)
      | 5 => some (.hup, 0, x - 0x50000)
      | 6 => some (.pwr, 0, x - 0x60000)
      | _ => none
    else none)
  else if x < 0x5000000 then some (.prt, (x - 0x1000000) / 0x100000, x % 0x100000)
  else if x < 0x10000000 then none
  else if x < 0x11000000 then some (.eng, (x - 0x10000000) / 0x10000, x % 0x10000)
  else if x < 0x11400000 then
    let i := (x - 0x11000000) / 0x10000
    let y := x % 0x10000
    (match y / 0x1000 with
    | 0 => some (.tile, i, y)
    | 1 => some (.mez, i, y - 0x1000)
    | 2 => some (.gal, i, y - 0x2000)
    | 3 => some (.cam, i, y - 0x3000)
    | _ => some (.msh, i, y - 0x4000))
  else if x < 0x12000000 then none
  else if x < 0x13000000 then
    (if x % 0x100000 < 0x80000 then some (.drc, (x - 0x12000000) / 0x100000, x % 0x80000)
    else some (.sieve, (x - 0x12000000) / 0x100000, x % 0x80000))
  else if x < 0x13400000 then some (.sch, 0, x - 0x13000000)
  else if x < 0x13600000 then some (.ldg, 0, x - 0x13400000)
  else if x < 0x13680000 then some (.rle, (x - 0x13600000) / 0x10000, x % 0x10000)
  else if x < 0x13681000 then some (.dgst, 0, x - 0x13680000)
  else if x < 0x13690000 then some (.dslot, (x - 0x13681000) / 0x1000, x % 0x1000)
  else if x < 0x13700000 then some (.dslot, 15, x - 0x13690000)
  else if x < 0x13800000 then some (.pgr, 0, x - 0x13700000)
  else if x < 0x14000000 then some (.iom, 0, x - 0x13800000)
  else if x < 0x16000000 then some (.rp, (x - 0x14000000) / 0x100000, x % 0x100000)
  else none

/-- The Reset value of a set of fields. -/
def fieldsReset (l : List FieldDesc) : Nat :=
  match l with
  | [] => 0
  | f :: t => f.reset * 2 ^ f.lo + fieldsReset t

/-- The Reset value of a register (R8). GAL_WAYMASK0 alone of its group resets to all ways. -/
def resetReg (x : Nat) : Dword :=
  match blkOf x with
  | some (b, _, off) =>
    if b = .gal ∧ off = 0x40 then 0xfff
    else BitVec.ofNat 64 (fieldsReset (fieldsOf b off))
  | none => 0

/-! ### Named registers -/

def ID_PART : Nat := regAt .id 0 0x40
def ID_SERIAL : Nat := regAt .id 0 0x48
def ID_HART0 : Nat := regAt .id 0 0x50
def ID_HART1 : Nat := regAt .id 0 0x58
def ID_ROUTER : Nat := regAt .id 0 0x60
def BEAT_CTL : Nat := regAt .beat 0 0x40
def BEAT_PERIOD : Nat := regAt .beat 0 0x48
def BEAT_COUNT : Nat := regAt .beat 0 0x50
def BEAT_STAT : Nat := regAt .beat 0 0x58
def BEAT_PHASE : Nat := regAt .beat 0 0x60
def BEAT_IN_CNT : Nat := regAt .beat 0 0x68
def BEAT_CORE_IRQ : Nat := regAt .beat 0 0x70
def BEAT_CORE_EN0 : Nat := regAt .beat 0 0x78
def BEAT_CORE_EN1 : Nat := regAt .beat 0 0x80
def BEAT_QW_PEND : Nat := regAt .beat 0 0x88
def BEAT_QW_NEXT (k : Nat) : Nat := regAt .beat 0 (0x100 + 8 * k)
def WRD_STAT : Nat := regAt .wrd 0 0x40
def WRD_DOORBELL : Nat := regAt .wrd 0 0x48
def WRD_DMA_ADDR : Nat := regAt .wrd 0 0x50
def WRD_DMA_LEN : Nat := regAt .wrd 0 0x58
def WRD_EVENT : Nat := regAt .wrd 0 0x60
def WRD_EVENT_CTL : Nat := regAt .wrd 0 0x68
def WRD_EVENT_MSI_ADDR : Nat := regAt .wrd 0 0x70
def WRD_EVENT_MSI : Nat := regAt .wrd 0 0x78
def WRD_FW : Nat := regAt .wrd 0 0x80
def WRD_ERR : Nat := regAt .wrd 0 0x88
def WRD_CMD (k : Nat) : Nat := regAt .wrd 0 (0x100 + 8 * k)
def WRD_RSP (k : Nat) : Nat := regAt .wrd 0 (0x200 + 8 * k)
def SNAP_CTL : Nat := regAt .snap 0 0x40
def SNAP_BEAT : Nat := regAt .snap 0 0x48
def SNAP_CLASS : Nat := regAt .snap 0 0x50
def SNAP_STAT : Nat := regAt .snap 0 0x58
def SNAP_WHEN : Nat := regAt .snap 0 0x60
def SNAP_SMP_SEL (k : Nat) : Nat := regAt .snap 0 (0x80 + 8 * k)
def SNAP_SMP_VAL (k : Nat) : Nat := regAt .snap 0 (0x100 + 8 * k)
def SNAP_SMP_BEAT : Nat := regAt .snap 0 0x180
def LIFE_CTL : Nat := regAt .life 0 0x40
def LIFE_EVQ_BASE : Nat := regAt .life 0 0x48
def LIFE_EVQ_CFG : Nat := regAt .life 0 0x50
def LIFE_EVQ_MSI_ADDR : Nat := regAt .life 0 0x58
def LIFE_EVQ_IDX : Nat := regAt .life 0 0x60
def LIFE_POH : Nat := regAt .life 0 0x68
def LIFE_STAT : Nat := regAt .life 0 0x70
def HUP_CFG : Nat := regAt .hup 0 0x40
def HUP_STORE : Nat := regAt .hup 0 0x48
def HUP_SCALE : Nat := regAt .hup 0 0x50
def HUP_CHG : Nat := regAt .hup 0 0x58
def HUP_DRAIN : Nat := regAt .hup 0 0x60
def HUP_WIN : Nat := regAt .hup 0 0x68
def HUP_ENERGY : Nat := regAt .hup 0 0x70
def HUP_LIMIT : Nat := regAt .hup 0 0x78
def HUP_STAT : Nat := regAt .hup 0 0x80
def HUP_DRAIN_REC : Nat := regAt .hup 0 0x88
def PWR_CTL : Nat := regAt .pwr 0 0x40
def PWR_STAT : Nat := regAt .pwr 0 0x48
def PWR_HALL : Nat := regAt .pwr 0 0x50
def PWR_RST_REC : Nat := regAt .pwr 0 0x58
def PWR_LINKCFG : Nat := regAt .pwr 0 0x60
def PWR_UART_CTL : Nat := regAt .pwr 0 0x68
def PWR_UART_MSI_ADDR : Nat := regAt .pwr 0 0x70
def PWR_UART_DATA : Nat := regAt .pwr 0 0x78
def PRT_ADMIN_BASE (i : Nat) : Nat := regAt .prt i 0x40
def PRT_ADMIN_CFG (i : Nat) : Nat := regAt .prt i 0x48
def PRT_ADMIN_MSI_ADDR (i : Nat) : Nat := regAt .prt i 0x50
def PRT_ADMIN_MOD (i : Nat) : Nat := regAt .prt i 0x58
def PRT_ADMIN_STAT (i : Nat) : Nat := regAt .prt i 0x60
def PRT_ADMIN_RESET (i : Nat) : Nat := regAt .prt i 0x68
def PRT_DB (i : Nat) (k : Nat) : Nat := regAt .prt i (0x80000 + 8 * k)
def PRT_STAT (i : Nat) : Nat := regAt .prt i 0x70
def PRT_ENG (i : Nat) (k : Nat) : Nat := regAt .prt i (0x78 + 8 * k)
def PRT_CAM (i : Nat) (k : Nat) : Nat := regAt .prt i (0x98 + 8 * k)
def PRT_RAS (i : Nat) : Nat := regAt .prt i 0xc0
def ENG_CTL (i : Nat) : Nat := regAt .eng i 0x40
def ENG_STAT (i : Nat) : Nat := regAt .eng i 0x48
def ENG_HALT_PC (i : Nat) : Nat := regAt .eng i 0x50
def ENG_ERR (i : Nat) : Nat := regAt .eng i 0x58
def ENG_EVT_CNT (i : Nat) : Nat := regAt .eng i 0x60
def ENG_CS_ADDR (i : Nat) : Nat := regAt .eng i 0x68
def ENG_CS_DATA (i : Nat) : Nat := regAt .eng i 0x70
def MEZ_ERR (i : Nat) : Nat := regAt .mez i 0x40
def MEZ_L1ERR (i : Nat) (k : Nat) : Nat := regAt .mez i (0x48 + 8 * k)
def MEZ_EVT (i : Nat) : Nat := regAt .mez i 0x68
def GAL_WAYMASK (i : Nat) (k : Nat) : Nat := regAt .gal i (0x40 + 8 * k)
def GAL_ERR (i : Nat) : Nat := regAt .gal i 0x240
def GAL_EVT (i : Nat) : Nat := regAt .gal i 0x248
def CAM_CFG (i : Nat) (k : Nat) : Nat := regAt .cam i (0x40 + 8 * k)
def CAM_STAT (i : Nat) (k : Nat) : Nat := regAt .cam i (0x60 + 8 * k)
def CAM_SHADOW (i : Nat) : Nat := regAt .cam i 0x80
def CAM_PACE (i : Nat) : Nat := regAt .cam i 0x88
def CAM_PACE_STAT (i : Nat) : Nat := regAt .cam i 0x90
def CAM_OPS (i : Nat) : Nat := regAt .cam i 0x98
def CAM_ERR (i : Nat) : Nat := regAt .cam i 0xa0
def MSH_STAT (i : Nat) : Nat := regAt .msh i 0x40
def MSH_RETRY (i : Nat) : Nat := regAt .msh i 0x48
def DRC_CFG (i : Nat) : Nat := regAt .drc i 0x40
def DRC_CTL (i : Nat) : Nat := regAt .drc i 0x48
def DRC_TRAIN (i : Nat) : Nat := regAt .drc i 0x50
def DRC_STAT (i : Nat) : Nat := regAt .drc i 0x58
def DRC_ECC (i : Nat) : Nat := regAt .drc i 0x60
def DRC_ERR (i : Nat) : Nat := regAt .drc i 0x68
def DRC_ERR_ADDR (i : Nat) : Nat := regAt .drc i 0x70
def DRC_RH (i : Nat) : Nat := regAt .drc i 0x78
def DRC_LINK (i : Nat) : Nat := regAt .drc i 0x80
def SIEVE_STAT (i : Nat) : Nat := regAt .sieve i 0x40
def SIEVE_ROWS (i : Nat) : Nat := regAt .sieve i 0x48
def SIEVE_SEL (i : Nat) : Nat := regAt .sieve i 0x50
def SIEVE_BYTES (i : Nat) : Nat := regAt .sieve i 0x58
def SIEVE_STALL (i : Nat) : Nat := regAt .sieve i 0x60
def SIEVE_ERR (i : Nat) : Nat := regAt .sieve i 0x68
def SCH_CTL : Nat := regAt .sch 0 0x40
def SCH_STAT : Nat := regAt .sch 0 0x48
def SCH_EVT0 : Nat := regAt .sch 0 0x50
def SCH_EVT1 : Nat := regAt .sch 0 0x58
def SCH_BP : Nat := regAt .sch 0 0x60
def SCH_ENG_INSVC (k : Nat) : Nat := regAt .sch 0 (0x68 + 8 * k)
def SCH_OBS_SEL : Nat := regAt .sch 0 0x88
def SCH_OBS_READY : Nat := regAt .sch 0 0x90
def SCH_OBS_LOAD : Nat := regAt .sch 0 0x98
def SCH_OBS_HIST (k : Nat) : Nat := regAt .sch 0 (0xa0 + 8 * k)
def SCH_THR_SEL : Nat := regAt .sch 0 0xe0
def SCH_THR_D (k : Nat) : Nat := regAt .sch 0 (0xe8 + 8 * k)
def LDG_CAP : Nat := regAt .ldg 0 0x40
def LDG_STAT : Nat := regAt .ldg 0 0x48
def LDG_NS_SEL : Nat := regAt .ldg 0 0x50
def LDG_NS_INFO : Nat := regAt .ldg 0 0x58
def LDG_HEALTH (k : Nat) : Nat := regAt .ldg 0 (0x60 + 8 * k)
def LDG_EVT_RD : Nat := regAt .ldg 0 0x80
def LDG_EVT_WR : Nat := regAt .ldg 0 0x88
def LDG_ERR : Nat := regAt .ldg 0 0x90
def LDG_ST_CTL : Nat := regAt .ldg 0 0x98
def LDG_ST_STAT : Nat := regAt .ldg 0 0xa0
def RLE_STAT (i : Nat) : Nat := regAt .rle i 0x40
def RLE_IN (i : Nat) : Nat := regAt .rle i 0x48
def RLE_OUT (i : Nat) : Nat := regAt .rle i 0x50
def RLE_ERR (i : Nat) : Nat := regAt .rle i 0x58
def DGST_SLOT (k : Nat) : Nat := regAt .dgst 0 (0x40 + 8 * k)
def DGST_ERR : Nat := regAt .dgst 0 0xc0
def DGST_EVT : Nat := regAt .dgst 0 0xc8
def DGST_SCTL (i : Nat) : Nat := regAt .dslot i 0x40
def DGST_SSTAT (i : Nat) : Nat := regAt .dslot i 0x48
def DGST_DATA (i : Nat) : Nat := regAt .dslot i 0x50
def DGST_CMP_A (i : Nat) : Nat := regAt .dslot i 0x58
def DGST_CMP_B (i : Nat) : Nat := regAt .dslot i 0x60
def DGST_OUT (i : Nat) (k : Nat) : Nat := regAt .dslot i (0x100 + 8 * k)
def DGST_EXP (i : Nat) (k : Nat) : Nat := regAt .dslot i (0x200 + 8 * k)
def PGR_CTL : Nat := regAt .pgr 0 0x40
def PGR_DON_IOVA : Nat := regAt .pgr 0 0x48
def PGR_DON_CMD : Nat := regAt .pgr 0 0x50
def PGR_DON_STAT : Nat := regAt .pgr 0 0x58
def PGR_PART_SEL : Nat := regAt .pgr 0 0x60
def PGR_PART_QUOTA : Nat := regAt .pgr 0 0x68
def PGR_PART_USE : Nat := regAt .pgr 0 0x70
def PGR_LDG : Nat := regAt .pgr 0 0x78
def PGR_EVT : Nat := regAt .pgr 0 0x80
def PGR_ERR : Nat := regAt .pgr 0 0x88
def IOM_CAP : Nat := regAt .iom 0 0x1000
def IOM_FCTL : Nat := regAt .iom 0 0x1008
def IOM_DDTP : Nat := regAt .iom 0 0x1010
def IOM_CQB : Nat := regAt .iom 0 0x1018
def IOM_CQ : Nat := regAt .iom 0 0x1020
def IOM_FQB : Nat := regAt .iom 0 0x1028
def IOM_FQ : Nat := regAt .iom 0 0x1030
def IOM_PQB : Nat := regAt .iom 0 0x1038
def IOM_PQ : Nat := regAt .iom 0 0x1040
def IOM_CSR : Nat := regAt .iom 0 0x1048
def IOM_PQCSR : Nat := regAt .iom 0 0x1050
def IOM_ICVEC : Nat := regAt .iom 0 0x12f8
def IOM_MSI (k : Nat) : Nat := regAt .iom 0 (0x1300 + 8 * k)
def HDR_ERR (b : Blk) (i : Nat) : Nat := regAt b i 0x20

/-! ### The register file -/

/-- The stored value of a register; an unlisted register holds its Reset value. -/
def regGet (r : Sparse Dword) (x : Nat) : Dword :=
  match sfind r x with
  | some v => v
  | none => resetReg x

/-- A field of a stored register. -/
def regField (r : Sparse Dword) (x lo len : Nat) : Nat := field (regGet r x) lo len

/-- Stores a register whole. -/
def regPut (r : Sparse Dword) (x : Nat) (v : Dword) : Sparse Dword := sput r x v

/-- Hardware sets a field. -/
def regSet (r : Sparse Dword) (x lo len v : Nat) : Sparse Dword :=
  sput r x (setField (regGet r x) lo len v)

/-- A counter field that wraps. -/
def regInc (r : Sparse Dword) (x lo len n : Nat) : Sparse Dword :=
  regSet r x lo len ((regField r x lo len + n) % 2 ^ len)

/-- A counter field that saturates. -/
def regIncSat (r : Sparse Dword) (x lo len : Nat) : Sparse Dword :=
  regSet r x lo len (satInc (regField r x lo len) len)

/-! ### Software writes (R4, R7, R10, R541) -/

/-- Whether a write of this width reaches a field: a field that spans both halves takes an 8-byte write only. -/
def reaches (p : AccPart) (f : FieldDesc) : Bool :=
  match p with
  | .whole => true
  | .low => decide (f.lo + f.len ≤ 32)
  | .high => decide (32 ≤ f.lo)

/-- The written value in the register's own bit positions. -/
def placed (w : RegAccess) : Dword :=
  match w.part with
  | .whole => w.value
  | .low => w.value &&& 0xffffffff
  | .high => w.value <<< 32

/-- One field after a write, by its access code; `locked` is the block's LOCK before the write (R7). -/
def writeField (locked : Bool) (w : RegAccess) (v : Dword) (f : FieldDesc) : Dword :=
  if reaches w.part f then
    let x := field (placed w) f.lo f.len
    let legal := decide (f.least ≤ x) && decide (x ≤ f.most)
    match f.acc with
    | .ro => v
    | .wo => v
    | .rw1c => setField v f.lo f.len (field (v &&& ~~~(placed w)) f.lo f.len)
    | .rw => if f.lock then (if x = 1 then setField v f.lo f.len 1 else v)
             else if legal then setField v f.lo f.len x else v
    | .rws => if legal then setField v f.lo f.len x else v
    | .rwl => if legal && !locked then setField v f.lo f.len x else v
  else v

/-- A register after a write of its fields. -/
def writeFields (locked : Bool) (w : RegAccess) (v : Dword) (l : List FieldDesc) : Dword :=
  match l with
  | [] => v
  | f :: t => writeFields locked w (writeField locked w v f) t

/-- The register of a block that holds its LOCK bit, in bit 63. -/
def lockReg (b : Blk) (i : Nat) : Option Nat :=
  match b with
  | .beat => some BEAT_CTL
  | .cam => some (CAM_SHADOW i)
  | .sch => some SCH_CTL
  | .pgr => some PGR_CTL
  | .drc => some (DRC_CTL i)
  | .hup => some HUP_CFG
  | .life => some LIFE_CTL
  | .pwr => some PWR_CTL
  | _ => none

/-- Whether a block is locked. -/
def blkLocked (r : Sparse Dword) (b : Blk) (i : Nat) : Bool :=
  match lockReg b i with
  | some x => regField r x 63 1 == 1
  | none => false

/-- A register file after a software write that is accepted, without the actions of WO fields. -/
def regWrite (r : Sparse Dword) (x : Nat) (w : RegAccess) : Sparse Dword :=
  match blkOf x with
  | some (b, i, off) =>
    regPut r x (writeFields (blkLocked r b i) w (regGet r x) (fieldsOf b off))
  | none => r

/-- Whether a write carries a 1 in a one-bit WO field. -/
def strobe (w : RegAccess) (bit : Nat) : Bool :=
  match w.part with
  | .whole => w.value.getLsbD bit
  | .low => decide (bit < 32) && w.value.getLsbD bit
  | .high => decide (32 ≤ bit) && w.value.getLsbD (bit - 32)

end Sys2Proof.Machine
end

