-- ==== Sys2Proof/Machine/Ops.lean ====
section
/-! DEFINITION. The operations that the meanings of many commands share: acting on the device, reaching one unit,
the issue of an engine instruction, and taking and leaving the engine's handler entry (R57, R68 to R74, R115). -/

namespace Sys2Proof.Machine

open Sys2Proof

/-- A command's effect: the device changes, the queue does not. -/
def act (f : Device → Device) (s : State) : Host.Outcome State Fault Refusal :=
  .next { s with dev := f s.dev }

/-! ### Reaching one unit -/

/-- Changes engine `e`. -/
def updEng (d : Device) (e : Eng) (f : Engine → Engine) : Device :=
  { d with engines := d.engines.set e.val (f d.engines[e]) }

/-- Changes every engine. -/
def allEngines (d : Device) (f : Eng → Engine → Engine) : Device :=
  { d with engines := Vector.ofFn fun e => f e d.engines[e] }

/-- The square of an engine (R13). -/
def tileOf (e : Eng) : Tile := ⟨e.val / 4, by omega⟩

/-- The engine's number within its square. -/
def engInTile (e : Eng) : Fin 4 := ⟨e.val % 4, by omega⟩

/-- Changes a register of the device. -/
def updRegs (d : Device) (f : Sparse Dword → Sparse Dword) : Device := { d with regs := f d.regs }

/-- The stored value of a device register. -/
def reg (d : Device) (x : Nat) : Dword := regGet d.regs x

/-- A field of a device register. -/
def regF (d : Device) (x lo len : Nat) : Nat := regField d.regs x lo len

def setReg (d : Device) (x lo len v : Nat) : Device := updRegs d fun r => regSet r x lo len v
def incReg (d : Device) (x lo len n : Nat) : Device := updRegs d fun r => regInc r x lo len n
def incRegSat (d : Device) (x lo len : Nat) : Device := updRegs d fun r => regIncSat r x lo len

/-- The current beat number. -/
def beatNow (d : Device) : Nat := regF d BEAT_COUNT 0 64

/-- Whether the part serves commands: the cores have been released. -/
def running (d : Device) : Bool := d.phase == .run

/-- An effect that only a running part has. -/
def whenRun (f : Device → Device) (d : Device) : Device := if running d then f d else d

/-- Takes one mark of an injection that names this class, instance and address, if there is one (R524). -/
def takeMark (l : List Injection) (cls inst addr : Nat) : Option (List Injection) :=
  match takeFirst (fun m => m.cls == cls && m.inst == inst && m.addr == addr) l with
  | some (_, r) => some r
  | none => none

/-- A class that is raised triggers a snapshot on that cycle where SNAP_CLASS has its bit (R49, R525). What the snapshot
shows of each register is formed from the registers kept here (log entry 121); a fatal event takes its own. -/
def raiseTrigger (d : Device) (cls : Nat) : Device :=
  if !(running d && regF d SNAP_CTL 2 1 == 1 && cls != 0 && cls != 0x1f && decide (cls < 64) &&
      regF d SNAP_CLASS cls 1 == 1) then d
  else if regF d SNAP_STAT 0 2 != 0 then incRegSat d SNAP_STAT 16 16
  else
    let d : Device := { d with ras := { d.ras with snapRegs := some d.regs } }
    let d := setReg (setReg (setReg d SNAP_STAT 0 2 1) SNAP_STAT 2 3 4) SNAP_STAT 5 8 cls
    setReg (setReg d SNAP_WHEN 0 45 (beatNow d)) SNAP_WHEN 45 19 (d.cycle - d.beat.lastTick)

/-- Raises an event for the event ring (R519); an event that a marked datum causes is an injected one (R524). -/
def raiseEvent (d : Device) (cls inst addr detail : Nat) (part : Option Part) : Device :=
  let ev := fun inj => (⟨cls, inst, addr, detail, part, inj, beatNow d, 1⟩ : RasEvent)
  raiseTrigger (match takeMark d.ras.marks cls inst addr with
    | some r => { d with ras := { d.ras with raised := d.ras.raised ++ [ev true], marks := r } }
    | none => { d with ras := { d.ras with raised := d.ras.raised ++ [ev false] } }) cls

/-- An armed injection of a class and instance meets its next event: the datum at `addr` is marked (R524). -/
def takeArmed (d : Device) (cls inst addr : Nat) : Bool × Device :=
  match takeFirst (fun m => m.cls == cls && m.inst == inst) d.ras.armed with
  | some (m, r) =>
    (true, { d with ras := { d.ras with
      armed := if m.left ≤ 1 then r else { m with left := m.left - 1 } :: r
      marks := d.ras.marks ++ [⟨cls, inst, addr, 1⟩] } })
  | none => (false, d)

/-! ### The lifetime log (R528, R529) -/

/-- Sections of the counts: power, temperature, voltage, memory errors, work, events, injected events, ledger and
hold-up. -/
def lifeKey (section_ item : Nat) : Nat := 65536 * section_ + item

/-- Adds to a count of the lifetime log. -/
def lifeAdd (d : Device) (section_ item n : Nat) : Device :=
  let k := lifeKey section_ item
  { d with life := { d.life with work := { d.life.work with
      counts := sput d.life.work.counts k (sget d.life.work.counts k 0 + n) } } }

/-- Enters a note in the lifetime log. -/
def lifeNote (d : Device) (k : LifeKind) (item val : Nat) : Device :=
  { d with life := { d.life with work := { d.life.work with
      notes := d.life.work.notes ++ [⟨k, item, val, beatNow d⟩] } } }

/-- The Warden writes the log to the system area. -/
def lifeSave (d : Device) : Device := { d with life := { d.life with saved := d.life.work } }

/-- A retirement is entered and written at once. -/
def lifeRetire (d : Device) (k : LifeKind) (item cls : Nat) : Device := lifeSave (lifeNote d k item cls)

/-- Draws a fresh number for a value the spec leaves free. -/
def drawFree (d : Device) : Nat × Device := (d.freeCount, { d with freeCount := d.freeCount + 1 })

/-! ### Scalar, vector and predicate registers -/

/-- A scalar register; s0 reads as zero (R90). -/
def getS (x : Engine) (n : BitVec 5) : Dword := if n = 0 then 0 else x.s[n.toNat]'n.isLt

/-- Writes a scalar register; a write to s0 is discarded (R90). -/
def setS (x : Engine) (n : BitVec 5) (v : Dword) : Engine :=
  if n = 0 then x else { x with s := x.s.set n.toNat v n.isLt }

/-- A predicate register; p0 reads as all ones. -/
def getP (x : Engine) (n : BitVec 3) : Mask := if n = 0 then 0xffff else x.p[n.toNat]'n.isLt

/-- Writes a predicate; a write to p0 is discarded (R90). -/
def setP (x : Engine) (n : BitVec 3) (m : Mask) : Engine :=
  if n = 0 then x else { x with p := x.p.set n.toNat m n.isLt }

/-- The lanes of a vector register. -/
def getV (x : Engine) (n : BitVec 4) : Vector Cell 16 := x.v[n.toNat]'n.isLt
/-- The validity mask of a vector register. -/
def getVm (x : Engine) (n : BitVec 4) : Mask := x.vm[n.toNat]'n.isLt

/-- Writes a vector register and its validity mask. -/
def setV (x : Engine) (n : BitVec 4) (c : Vector Cell 16) (m : Mask) : Engine :=
  { x with v := x.v.set n.toNat c n.isLt, vm := x.vm.set n.toNat m n.isLt }

/-- Writes a validity mask alone. -/
def setVm (x : Engine) (n : BitVec 4) (m : Mask) : Engine :=
  { x with vm := x.vm.set n.toNat m n.isLt }

/-- The accumulator a predicate-sized field names. -/
def getA (x : Engine) (n : BitVec 3) : Vector Wide 16 := x.a[n.toNat]'n.isLt
def setA (x : Engine) (n : BitVec 3) (c : Vector Wide 16) : Engine :=
  { x with a := x.a.set n.toNat c n.isLt }

/-- A word of the code store; an unwritten word of the kernel region is the loaded kernel's (R66, log entry 4). -/
def codeWord (x : Engine) (k : Nat) : InstrWord :=
  match sfind x.code k with
  | some w => w
  | none => if k < 0x800 then Config.kernelWord k else 0

/-- The next instruction follows in the code store. -/
def adv (x : Engine) : Engine := { x with pc := x.pc + 4 }

/-! ### Faults and handler entries -/

/-- The faulting instruction carries its fault forward (R115); it has no other effect. -/
def note (x : Engine) (c : Cause) (v : Dword) : Engine := { x with fault := some ⟨c, v⟩ }

/-- A live CAM wait is abandoned: its reply goes to the latch (R74). -/
def abandonCam (x : Engine) : Engine :=
  { x with cam := x.cam.map fun c => { c with live := false } }

/-- An entry cycle (R69, R70): the instruction at pc is the oldest abandoned one; a cause raised while an entry is
open joins it. -/
def openEntry (x : Engine) (c : CauseVal) : Engine :=
  match x.entry with
  | some en => { x with entry := some { en with causes := en.causes ++ [c] }, fault := none }
  | none =>
    { abandonCam x with
      entry := some ⟨x.pc, [c]⟩, fault := none, waiting := false, afterRet := false,
      miss := x.miss.map fun m => { m with load := false } }

/-- An error interrupt reaches the engine: taken at once, joined to an open entry, or pending while masked (R71). -/
def raiseError (x : Engine) (c : CauseVal) : Engine :=
  if x.run = .running then
    if x.entry.isSome || x.eie then openEntry x c
    else { x with pendErr := x.pendErr ++ [c] }
  else x

/-- The cause codes of R116. -/
def causeCode (c : Cause) : Nat :=
  match c with
  | .yield => 0x0002
  | .illegalInstr => 0x0020
  | .privileged => 0x0021
  | .illegalOperand => 0x0022
  | .accSpace => 0x0030
  | .accKernel => 0x0031
  | .accCodeWrite => 0x0032
  | .accFetch => 0x0033
  | .accCr => 0x0034
  | .accIommu => 0x0035
  | .accCam => 0x0036
  | .align => 0x0040
  | .errCsParity => 0x0010
  | .errL1Parity => 0x0011
  | .errMezParity => 0x0012
  | .errPoison => 0x0013
  | .errCsParityK => 0x0014
  | .tick => 0x0001

/-- Place in the table of R116, the top first; every synchronous cause stands above every interrupt. -/
def causeRank (c : Cause) : Nat :=
  match c with
  | .yield => 0
  | .illegalInstr => 1
  | .privileged => 2
  | .illegalOperand => 3
  | .accSpace => 4
  | .accKernel => 5
  | .accCodeWrite => 6
  | .accFetch => 7
  | .accCr => 8
  | .accIommu => 9
  | .accCam => 10
  | .align => 11
  | .errCsParity => 12
  | .errL1Parity => 13
  | .errMezParity => 14
  | .errPoison => 15
  | .errCsParityK => 16
  | .tick => 17

/-- The bit of ECAUSE that records a cause. -/
def causeBit (c : Cause) : Nat :=
  match c with
  | .tick => 16
  | .errCsParity => 17
  | .errCsParityK => 17
  | .errL1Parity => 18
  | .errMezParity => 19
  | .errPoison => 20
  | _ => 21

/-- The highest-priority cause of an entry; the earlier of two of one rank. -/
def topCause (l : List CauseVal) : Option CauseVal :=
  match l with
  | [] => none
  | c :: t =>
    match topCause t with
    | none => some c
    | some b => if causeRank c.cause ≤ causeRank b.cause then some c else some b

/-- ECAUSE of an entry (R116, R117). -/
def ecauseOf (l : List CauseVal) : Dword :=
  let bits := l.foldl (fun v c => v ||| BitVec.ofNat 64 (2 ^ causeBit c.cause)) (0 : Dword)
  match topCause l with
  | some c => bits ||| BitVec.ofNat 64 (causeCode c.cause)
  | none => bits

/-- EVAL of an entry: the value of the cause that CODE names; a tick leaves it unchanged (R116, R117). -/
def evalOf (l : List CauseVal) (old : Dword) : Dword :=
  match topCause l with
  | some c => if c.cause = .tick then old else c.val
  | none => old

/-- The first handler instruction enters F (R68, R70, R71). -/
def enterHandler (x : Engine) : Engine :=
  match x.entry with
  | some en =>
    { x with
      entry := none, epc := en.epc, ecause := ecauseOf en.causes, eval := evalOf en.causes x.eval,
      mode := .kernel, eie := false, pc := 0 }
  | none => x

/-- The error interrupts that waited while they were masked are taken at an instruction boundary (R71). -/
def takePending (x : Engine) : Engine :=
  if x.eie then
    x.pendErr.foldl openEntry { x with pendErr := [] }
  else x

/-- The return from the handler (R107): pc and mode, error interrupts enabled, the CAM latch armed for the first
instruction (R74), and any pending error interrupt taken at once (R71). -/
def handlerReturn (x : Engine) : Engine :=
  takePending { x with pc := x.epc, mode := x.rmode, eie := true, afterRet := true }

/-! ### Issue of an instruction -/

/-- Whether the engine can fetch its next instruction: it runs, and no wait, fault or entry holds it (R57). -/
def fetches (x : Engine) : Bool :=
  x.run == .running && !x.waiting && x.entry.isNone && x.fault.isNone && !(x.cam.any (·.live))

/-- Whether the engine can issue: it can fetch, and the parity of the word it fetches is good (R65). -/
def issuable (x : Engine) : Bool := fetches x && !x.codeBad.contains (x.pc.toNat / 4)

/-- Thread mode fetches only from CODEBASE to CODELIMIT (R94). -/
def fetchable (x : Engine) : Bool :=
  x.mode == .kernel ||
    (decide (x.codeBase.toNat ≤ x.pc.toNat) && decide (x.pc.toNat < x.codeLimit.toNat))

/-- The word of the instruction, for EVAL. -/
def wordOf (i : Instr) : InstrWord := (sirtoWord i).getD 0

/-- Kernel-only instructions (R104): BEATWAIT, ERET and the set/way forms of maintenance. -/
def kernelOnly (i : Instr) : Bool :=
  match i with
  | .beatwait _ _ => true
  | .eret _ _ => true
  | .clean _ f => f.aux.getLsbD 0
  | .inv _ f => f.aux.getLsbD 0
  | .clinv _ f => f.aux.getLsbD 0
  | _ => false

/-- The first instruction after a handler return keeps the CAM latch, or the request in flight, only when it is
that same CAM instruction at the same address; otherwise both are discarded (R74). -/
def settleLatch (x : Engine) (w : InstrWord) : Engine :=
  if x.afterRet then
    { x with
      afterRet := false
      latch := match x.latch with
        | some l => if l.pc = x.pc ∧ l.word = w then some l else none
        | none => none
      cam := x.cam.map fun c =>
        if c.pc = x.pc ∧ c.word = w then c else { c with discard := true } }
  else x

/-- The checks of fetch and decode (R94, R96, R104): the engine after them, and whether the instruction executes. -/
def precheck (i : Instr) (x : Engine) : Engine × Bool :=
  if !issuable x then (x, false)
  else
    let y := settleLatch x (wordOf i)
    if !fetchable y then (note y .accFetch (y.pc.setWidth 64), false)
    else if !sirtoLegal i then (note y .illegalInstr ((wordOf i).setWidth 64), false)
    else if kernelOnly i && y.mode == .thread then (note y .privileged ((wordOf i).setWidth 64), false)
    else (y, true)

/-- One engine instruction that stays within its engine. -/
def engInstr (i : Instr) (f : Engine → Engine) (x : Engine) : Engine :=
  let r := precheck i x
  if r.2 then f r.1 else r.1

/-- The effect of an instruction that stays within engine `e`. -/
def runEng (e : Eng) (i : Instr) (f : Engine → Engine) (s : State) : Host.Outcome State Fault Refusal :=
  act (fun d => updEng d e (engInstr i f)) s

/-- The effect of an instruction of engine `e` that reaches other units. -/
def runDev (e : Eng) (i : Instr) (f : Device → Device) (s : State) : Host.Outcome State Fault Refusal :=
  act (fun d =>
    let r := precheck i d.engines[e]
    let d' := updEng d e fun _ => r.1
    if r.2 then f d' else d') s

end Sys2Proof.Machine
end

