-- ==== Sys2Proof/Machine/Access.lean ====
section
/-! DEFINITION. Who may access a block of the control window and when (R535, R538, R539, R541 to R545). -/

namespace Sys2Proof.Machine

open Sys2Proof

/-- Blocks keep applying accesses from the end of start-up to the next reset (R539). -/
def ready (d : Device) : Bool := d.phase == .run || d.phase == .recovery

/-- Which sub-ports of a ×16 group its straps give (R559). -/
def subPorts (l : Nat) : List Nat :=
  if l = 0 then [0] else if l = 1 then [0, 2] else if l = 2 then [0, 2, 3] else if l = 3 then [0, 1, 2]
  else if l = 4 then [0, 1, 2, 3] else []

/-- Whether root port 4r + s exists. -/
def portExists (d : Device) (rp : Nat) : Bool := (subPorts (regF d PWR_LINKCFG (3 * (rp / 4)) 3)).contains (rp % 4)

/-- Whether a square's router and local port are both out of service (R544). -/
def squareDead (d : Device) (t : Nat) : Bool := regF d (MSH_STAT t) 0 1 == 0 && d.mesh.cut.contains t

/-- Dead blocks (R544). -/
def deadBlk (d : Device) (b : Blk) (i : Nat) : Bool :=
  match b with
  | .eng => squareDead d (i / 4)
  | .tile => squareDead d i
  | .mez => squareDead d i
  | .gal => squareDead d i
  | .cam => squareDead d i
  | .msh => squareDead d i
  | .rp => !portExists d i
  | _ => false

/-- The square named by a DEAD_ACCESS record. -/
def deadSquare (b : Blk) (i : Nat) : Nat := if b = .eng then i / 4 else if b = .rp then 0 else i

/-- Whether a block accepts an access of an agent (R545). -/
def accepts (b : Blk) (off : Nat) (ag : Agent) (wr : Bool) : Bool :=
  match ag with
  | .warden => true
  | .manager => (match b with | .eng => !wr | _ => true)
  | .guest _ => (match b with | .prt => true | .dslot => true | _ => false)
  | .bmc => (match b with | .wrd => decide (0x40 ≤ off) && decide (off < 0x300) | _ => false)

/-- A refused access: HDR_ERR, and the block's own bit for refused writes. -/
def refuse (d : Device) (b : Blk) (i : Nat) (wr : Bool) : Device :=
  let d := incRegSat (setReg d (HDR_ERR b i) 1 1 1) (HDR_ERR b i) 16 16
  if wr then
    (match b with
     | .eng => setReg d (ENG_ERR i) 3 1 1
     | .cam => setReg d (CAM_ERR i) 4 1 1
     | _ => d)
  else d

/-- A dead access is recorded (R358, R520). -/
def deadAccess (d : Device) (b : Blk) (i x : Nat) : Device := raiseEvent d 0x18 (deadSquare b i) x 0 none

/-- A write of a register: discarded by a dead block, ignored before READY, refused, or performed as `f`. -/
def gateWrite (d : Device) (x : Nat) (w : RegAccess) (f : Device → Device) : Device :=
  match blkOf x with
  | none => d
  | some (b, i, off) =>
    if deadBlk d b i then deadAccess d b i x
    else if !ready d && off != 0x20 then d
    else if accepts b off w.agent true then f d
    else refuse d b i true

/-- The fields of a register take a write by their access codes. -/
def plainWrite (d : Device) (x : Nat) (w : RegAccess) : Device := updRegs d fun r => regWrite r x w

/-- A write that only changes fields. -/
def gatedPlain (d : Device) (x : Nat) (w : RegAccess) : Device := gateWrite d x w fun d => plainWrite d x w

/-- The part of a field that a write carries: none where this write does not reach the field. -/
def carried (w : RegAccess) (lo len : Nat) : Option Nat :=
  if (match w.part with
      | .whole => true
      | .low => decide (lo + len ≤ 32)
      | .high => decide (32 ≤ lo)) then some (field (placed w) lo len) else none

end Sys2Proof.Machine
end

