-- ==== Sys2Proof/Machine/CodecFmt.lean ====
section
/-! DEFINITION. The block format of the run-length codecs, the A64's encoder and the decoder (R449 to R454, R456). -/

namespace Sys2Proof.Machine

open Sys2Proof

/-- A code word: its element or elements, and how many elements it decodes to (R451). -/
structure CodeWord where
  run : Bool
  elems : List Nat
  count : Nat
  deriving DecidableEq, Repr

/-- Bytes of a code word whose elements have `e` bytes. -/
def wordSize (e : Nat) (w : CodeWord) : Nat := 1 + e * w.elems.length

/-- A code word as bytes. -/
def wordBytes (e : Nat) (w : CodeWord) : List Byte :=
  BitVec.ofNat 8 (w.count - 1 + if w.run then 128 else 0) :: (w.elems.map fun x => bytesOf x e).flatten

/-- Whether a width is one of the element widths. -/
def isWidth (e : Nat) : Bool := [1, 2, 4, 5, 8].contains e

/-- The first `n` elements of `e` bytes of an input. -/
def elemsOf (e : Nat) (l : List Byte) : Nat → List Nat
  | 0 => []
  | n + 1 => ofBytes (l.take e) :: elemsOf e (l.drop e) n

/-- How many elements equal to `x` open a list, at most `cap`. -/
def runOf (x : Nat) (l : List Nat) (cap : Nat) : Nat :=
  match l, cap with
  | [], _ => 0
  | _, 0 => 0
  | y :: t, c + 1 => if y = x then 1 + runOf x t c else 0

/-- A run of `r` elements is emitted as a run word (R452). -/
def qualifies (e r : Nat) : Bool := decide (3 ≤ r) || (r == 2 && decide (2 ≤ e))

/-- The literal word collected so far, its elements in reverse order. -/
def litWord (lit : List Nat) : List CodeWord :=
  if lit.isEmpty then [] else [⟨false, lit.reverse, lit.length⟩]

/-- The encoder (R452), at most `n` elements. -/
def encodeWords (e : Nat) : Nat → List Nat → List Nat → List CodeWord
  | 0, lit, _ => litWord lit
  | _ + 1, lit, [] => litWord lit
  | n + 1, lit, x :: t =>
    let r := 1 + runOf x t 127
    if qualifies e r then litWord lit ++ ⟨true, [x], r⟩ :: encodeWords e n [] (t.drop (r - 1))
    else if lit.length = 127 then litWord (x :: lit) ++ encodeWords e n [] t
    else encodeWords e n (x :: lit) t

/-- A block: its code words, its tail and its filler, for elements of `e` bytes. -/
structure CodecBlock where
  e : Nat
  words : List CodeWord
  tail : List Byte
  fill : Nat
  deriving DecidableEq, Repr

/-- Elements of a block. -/
def blockElems (b : CodecBlock) : Nat := b.words.foldl (fun n w => n + w.count) 0
/-- IN_BYTES, BODY_BYTES and the whole length of a block. -/
def blockIn (b : CodecBlock) : Nat := b.e * blockElems b + b.tail.length
def blockBody (b : CodecBlock) : Nat := b.words.foldl (fun n w => n + wordSize b.e w) 0 + b.tail.length
def blockSize (b : CodecBlock) : Nat := 16 + blockBody b + b.fill

/-- A block as bytes (R450). -/
def blockBytes (b : CodecBlock) : List Byte :=
  bytesOf 0x4c52 2 ++ bytesOf b.e 1 ++ bytesOf b.tail.length 1 ++ bytesOf (blockIn b) 4 ++ bytesOf (blockBody b) 4 ++
  bytesOf b.fill 2 ++ bytesOf 0 2 ++ (b.words.map (wordBytes b.e)).flatten ++ b.tail ++ bytesOf 0 b.fill

/-- The block of an input, without filler. -/
def encodeBlock (e : Nat) (l : List Byte) : CodecBlock :=
  let n := l.length / e
  ⟨e, encodeWords e n [] (elemsOf e l n), l.drop (n * e), 0⟩

/-- The uncompressed block that the pager writes without a codec: width 1, one literal word per 128 bytes (R460). -/
def litWords : Nat → List Nat → List CodeWord
  | 0, _ => []
  | _ + 1, [] => []
  | n + 1, l => ⟨false, l.take 128, (l.take 128).length⟩ :: litWords n (l.drop 128)

def rawBlock (l : List Byte) : CodecBlock :=
  ⟨1, litWords (l.length / 128 + 1) (l.map (·.toNat)), [], 0⟩

/-! ### The decoder (R454) -/

/-- Decodes code words that fill exactly `left` bytes; none where they do not end there. -/
def decodeWords (e : Nat) : Nat → List Byte → Option (List Byte)
  | 0, l => if l.isEmpty then some [] else none
  | _ + 1, [] => some []
  | n + 1, h :: t =>
    let c := h.toNat % 128 + 1
    let k := if 128 ≤ h.toNat then e else c * e
    if t.length < k then none
    else match decodeWords e n (t.drop k) with
      | none => none
      | some r => some ((if 128 ≤ h.toNat then (List.replicate c (t.take e)).flatten else t.take k) ++ r)

/-- Decodes the block that opens a source: its output and its length in the source; none where R454 rejects it. -/
def decodeBlock (l : List Byte) : Option (List Byte × Nat) :=
  let f := fun b n => ofBytes ((l.drop b).take n)
  let e := f 2 1
  let tail := f 3 1
  let inB := f 4 4
  let body := f 8 4
  let fill := f 12 2
  if l.length < 16 || f 0 2 != 0x4c52 || !isWidth e || f 14 2 != 0 || inB == 0 || decide (65536 < inB) ||
    tail != inB % e || decide (l.length < 16 + body + fill) || decide (body < tail) ||
    ((l.drop (16 + body)).take fill).any (· != 0) then none
  else
    let ws := (l.drop 16).take (body - tail)
    match decodeWords e ws.length ws with
    | some out =>
      if out.length = inB - tail then some (out ++ (l.drop (16 + body - tail)).take tail, 16 + body + fill) else none
    | none => none

/-! ### Blocks across a chain of buffers (R456) -/

/-- The code words that fit in `room` bytes, and whether all of them do. -/
def fitWords (e room : Nat) (l : List CodeWord) : List CodeWord × Bool :=
  match l with
  | [] => ([], true)
  | w :: t =>
    if wordSize e w ≤ room then
      let r := fitWords e (room - wordSize e w) t
      (w :: r.1, r.2)
    else ([], false)

/-- What a COMPRESS writes: bytes by buffer number and offset, input bytes covered, output bytes, the last buffer
written, and whether the input is exhausted. -/
structure Packed where
  out : List (Nat × Nat × List Byte)
  used : Nat
  size : Nat
  last : Nat
  done : Bool
  deriving DecidableEq, Repr

/-- Input bytes of the next block (R449): all that remains of an input of 65,536 bytes or fewer. -/
def blockSpan (e : Nat) (short : Bool) (l : List Byte) : Nat :=
  if short then l.length else min l.length (e * (65536 / e))

/-- Lays the blocks of an input into buffers of the given lengths, from buffer `k`, byte `off` on. A block none of
whose code words fits in its buffer is not written, and the buffer is passed over (DESIGN CHOICE, log entry 40). -/
def packBlocks (e : Nat) (short : Bool) : Nat → List Byte → List Nat → Nat → Nat → Packed
  | 0, _, _, k, _ => ⟨[], 0, 0, k, false⟩
  | _ + 1, [], _, k, _ => ⟨[], 0, 0, k - 1, true⟩
  | _ + 1, _ :: _, [], k, _ => ⟨[], 0, 0, k - 1, false⟩
  | n + 1, l, cap :: caps, k, off =>
    let b := encodeBlock e (l.take (blockSpan e short l))
    let room := cap - off - 16
    let fit := fitWords e room b.words
    let whole : Bool := fit.2 && decide (blockBody b ≤ room)
    if cap - off < 17 + e then packBlocks e short n l caps (k + 1) 0
    else if whole then
      let rest := l.drop (blockIn b)
      let left := cap - off - blockSize b
      if rest.isEmpty then ⟨[(k, off, blockBytes b)], blockIn b, blockSize b, k, true⟩
      else
        let b := { b with fill := if left < 17 + e then left else 0 }
        let r := if left < 17 + e then packBlocks e short n rest caps (k + 1) 0
          else packBlocks e short n rest (cap :: caps) k (off + blockSize b)
        ⟨(k, off, blockBytes b) :: r.out, blockIn b + r.used, blockSize b + r.size, if r.out.isEmpty then k else r.last,
          r.done⟩
    else if fit.1.isEmpty then packBlocks e short n l caps (k + 1) 0
    else
      let c : CodecBlock := ⟨e, fit.1, [], 0⟩
      let c := { c with fill := cap - off - blockSize c }
      let r := packBlocks e short n (l.drop (blockIn c)) caps (k + 1) 0
      ⟨(k, off, blockBytes c) :: r.out, blockIn c + r.used, blockSize c + r.size, if r.out.isEmpty then k else r.last,
        r.done⟩

/-- What a COMPRESS of an input writes into a chain. -/
def packInput (e : Nat) (l : List Byte) (caps : List Nat) : Packed :=
  packBlocks e (decide (l.length ≤ 65536)) (l.length + caps.length + 1) l caps 0 0

/-! ### A source of blocks (R458) -/

/-- Output of the whole blocks that open a source and fit in `room` bytes, the source bytes of those blocks, and the
status: 0, DECODE_ERROR or OUTPUT_FULL. -/
def unpackBlocks : Nat → List Byte → Nat → List Byte × Nat × Nat
  | 0, _, _ => ([], 0, 6)
  | _ + 1, [], _ => ([], 0, 0)
  | n + 1, l, room =>
    match decodeBlock l with
    | none => ([], 0, 6)
    | some (out, size) =>
      if room < out.length then ([], 0, 5)
      else
        let r := unpackBlocks n (l.drop size) (room - out.length)
        (out ++ r.1, size + r.2.1, r.2.2)

def unpackInput (l : List Byte) (room : Nat) : List Byte × Nat × Nat := unpackBlocks (l.length + 1) l room

end Sys2Proof.Machine
end

