-- ==== Sys2Proof/Machine/Keccak.lean ====
section
/-! DEFINITION. Keccak-f[1600], the sponge of FIPS 202 and the encodings of NIST SP 800-185, which R461 names. -/

namespace Sys2Proof.Machine

open Sys2Proof

/-- The 25 lanes of a sponge, lane k at index k (R464). -/
abbrev Lanes := Vector Dword 25

/-- The state with every bit 0. -/
def zeroLanes : Lanes := Vector.replicate 25 0

/-- Lane (x, y), with both coordinates modulo 5. -/
def laneAt (a : Lanes) (x y : Nat) : Dword :=
  a[5 * (y % 5) + x % 5]'(by have := Nat.mod_lt x (show 5 > 0 by omega); have := Nat.mod_lt y (show 5 > 0 by omega); omega)

/-- Rotation offsets of rho, lane by lane. -/
def rhoOf (k : Nat) : Nat :=
  [0, 1, 62, 28, 27, 36, 44, 6, 55, 20, 3, 10, 43, 25, 39, 41, 45, 15, 21, 8, 18, 2, 61, 56, 14][k]?.getD 0

/-- Round constants of iota. -/
def roundConst : List Dword :=
  [0x0000000000000001, 0x0000000000008082, 0x800000000000808a, 0x8000000080008000, 0x000000000000808b,
   0x0000000080000001, 0x8000000080008081, 0x8000000000008009, 0x000000000000008a, 0x0000000000000088,
   0x0000000080008009, 0x000000008000000a, 0x000000008000808b, 0x800000000000008b, 0x8000000000008089,
   0x8000000000008003, 0x8000000000008002, 0x8000000000000080, 0x000000000000800a, 0x800000008000000a,
   0x8000000080008081, 0x8000000000008080, 0x0000000080000001, 0x8000000080008008]

/-- Parity of column x. -/
def column (a : Lanes) (x : Nat) : Dword :=
  laneAt a x 0 ^^^ laneAt a x 1 ^^^ laneAt a x 2 ^^^ laneAt a x 3 ^^^ laneAt a x 4

def theta (a : Lanes) : Lanes :=
  Vector.ofFn fun k => a[k] ^^^ column a (k.val + 4) ^^^ (column a (k.val + 1)).rotateLeft 1

/-- Lane (x, y) of the result is lane (x + 3 y, x) of the argument, rotated. -/
def rhoPi (a : Lanes) : Lanes :=
  Vector.ofFn fun k =>
    let x := k.val % 5
    let y := k.val / 5
    (laneAt a (x + 3 * y) x).rotateLeft (rhoOf (5 * x + (x + 3 * y) % 5))

def chi (a : Lanes) : Lanes :=
  Vector.ofFn fun k => a[k] ^^^ (~~~(laneAt a (k.val % 5 + 1) (k.val / 5)) &&& laneAt a (k.val % 5 + 2) (k.val / 5))

/-- One round with its constant. -/
def keccakRound (a : Lanes) (c : Dword) : Lanes :=
  let b := chi (rhoPi (theta a))
  b.set 0 (b[0] ^^^ c)

/-- Keccak-f[1600]. -/
def keccakF (a : Lanes) : Lanes := roundConst.foldl keccakRound a

/-! ### The sponge -/

/-- XORs a word into lane `k`; a lane beyond the state takes nothing. -/
def xorLane (a : Lanes) (k : Nat) (w : Dword) : Lanes :=
  if h : k < 25 then a.set k (a[k] ^^^ w) else a

/-- XORs words into the lanes from `k` on. -/
def xorWords (a : Lanes) (k : Nat) (l : List Byte) : Nat → Lanes
  | 0 => a
  | n + 1 => xorWords (xorLane a k (BitVec.ofNat 64 (ofBytes (l.take 8)))) (k + 1) (l.drop 8) n

/-- Absorbs whole blocks of `rate` bytes. -/
def absorb (a : Lanes) (rate : Nat) (l : List Byte) : Nat → Lanes
  | 0 => a
  | n + 1 => if l.length < rate then a
      else absorb (keccakF (xorWords a 0 (l.take rate) (rate / 8))) rate (l.drop rate) n

/-- The bytes of the state, lane 0 first. -/
def laneBytes (a : Lanes) : List Byte := (a.toList.map fun w => bytesOf w.toNat 8).flatten

/-- Squeezes `n` bytes from a state whose last absorbed block has been permuted. -/
def squeeze (a : Lanes) (rate : Nat) : Nat → Nat → List Byte
  | 0, _ => []
  | k + 1, n =>
    if n ≤ rate then (laneBytes a).take n
    else (laneBytes a).take rate ++ squeeze (keccakF a) rate k (n - rate)

/-- pad10*1 after the domain bits: the byte that holds both, zeros, and the last bit. -/
def padded (rate : Nat) (l : List Byte) (dom : Byte) : List Byte :=
  let gap := rate - l.length % rate
  if gap = 1 then l ++ [dom ||| 0x80]
  else l ++ dom :: (List.replicate (gap - 2) 0 ++ [0x80])

/-- A sponge from a starting state. -/
def sponge (a : Lanes) (rate : Nat) (l : List Byte) (dom : Byte) (n : Nat) : List Byte :=
  let m := padded rate l dom
  squeeze (absorb a rate m (m.length / rate)) rate (n / rate + 1) n

/-- Bytes needed for a number, at least one. -/
def byteLen (n : Nat) : Nat := max 1 (ceilDiv (if n = 0 then 0 else Nat.log2 n + 1) 8)

/-- left_encode and right_encode of SP 800-185. -/
def leftEncode (n : Nat) : List Byte := BitVec.ofNat 8 (byteLen n) :: (bytesOf n (byteLen n)).reverse
def rightEncode (n : Nat) : List Byte := (bytesOf n (byteLen n)).reverse ++ [BitVec.ofNat 8 (byteLen n)]
def encodeString (l : List Byte) : List Byte := leftEncode (8 * l.length) ++ l
def bytePad (l : List Byte) (w : Nat) : List Byte :=
  let m := leftEncode w ++ l
  m ++ List.replicate ((w - m.length % w) % w) 0

/-- The keyed state of KMAC256 with customization `s` and key `k` (R466). -/
def kmacKeyed (s k : List Byte) : Lanes :=
  let m := bytePad (encodeString [0x4b, 0x4d, 0x41, 0x43] ++ encodeString s) 136 ++ bytePad (encodeString k) 136
  absorb zeroLanes 136 m (m.length / 136)

/-- Bytes of the rate of an algorithm (R461). -/
def rateBytes (alg : Nat) : Nat := if alg = 1 then 72 else 136

/-- A digest of a message by algorithm, from a starting state (R466). -/
def digestOf (alg : Nat) (a : Lanes) (l : List Byte) (n : Nat) : List Byte :=
  match alg with
  | 0 => sponge a 136 l 0x06 n
  | 1 => sponge a 72 l 0x06 n
  | 2 => sponge a 136 l 0x1f n
  | _ => sponge a 136 (l ++ rightEncode (8 * n)) 0x04 n

/-- SHA3-256 of a message as a number, byte 0 lowest. -/
def sha3 (l : List Byte) : Nat := ofBytes (digestOf 0 zeroLanes l 32)

end Sys2Proof.Machine
end

