-- ==== Sys2Proof/Machine/Memory.lean ====
section
/-! DEFINITION. Coherent memory: address map, home slices, channels, the gallery and its directory, and the reads and
writes that engines' caches, cores and units make there (R335 to R341, R373, R386 to R399, R435). -/

namespace Sys2Proof.Machine

open Sys2Proof

/-! ### Address map -/

/-- Capacity C of one channel in bytes, as start-up found it (R387). -/
def chanCap (d : Device) : Nat := regF d (DRC_CFG 0) 8 10 * 2 ^ 30

/-- Whether an address lies in populated DRAM (R373, R389). -/
def inDram (d : Device) (a : Nat) : Bool := decide (a < 16 * chanCap d)

/-- Whether an address lies in the CXL type-3 memory windows (R373). -/
def inCxl (a : Nat) : Bool := decide (2 ^ 48 ≤ a) && decide (a < 2 ^ 50)

/-- The CXL window, one per root port, that holds an address: eight equal windows (DESIGN CHOICE, log entry 24). -/
def cxlWindow (a : Nat) : Nat := (a - 2 ^ 48) / 0x600000000000

/-- Whether a window is populated: a link of its group is up as CXL (R559, R373). -/
def cxlUp (d : Device) (a : Nat) : Bool := d.pkg.cxl.any fun p => p / 4 == cxlWindow a

/-- Main memory: populated DRAM and CXL memory. -/
def inMain (d : Device) (a : Nat) : Bool := inDram d a || (inCxl a && cxlUp d a)

/-- The quadrant whose channels hold an address; for CXL memory PA[15:14] (R335, R389). -/
def quadOf (d : Device) (a : Nat) : Nat :=
  if inCxl a then a / 2 ^ 14 % 4 else a / (4 * chanCap d) % 4

/-- The XOR of `n` four-bit groups from bit 6 on (R335). -/
def homeHash (a : Nat) : Nat → Nat
  | 0 => 0
  | n + 1 => Nat.xor (homeHash a n) (fieldN a (4 * n + 6) 4)

/-- Square `j` of quadrant `q`, counted in increasing tile index (R16). -/
def quadSquare (q j : Nat) : Tile :=
  ⟨((4 * (q / 2 % 2) + j / 4 % 4) * 8 + 4 * (q % 2) + j % 4) % 64, Nat.mod_lt _ (by omega)⟩

/-- The home slice of an address (R335). -/
def homeOf (d : Device) (a : Nat) : Tile := quadSquare (quadOf d a) (homeHash a 12 % 16)

/-- The channel that holds a DRAM address (R389). -/
def chanOf (d : Device) (a : Nat) : Chan :=
  ⟨(4 * quadOf d a + (a - quadOf d a * (4 * chanCap d)) / 4096 % 4) % 16, Nat.mod_lt _ (by omega)⟩

/-- The local address of a DRAM address on its channel (R389). -/
def localOf (d : Device) (a : Nat) : Nat :=
  let o := a - quadOf d a * (4 * chanCap d)
  o / 2 ^ 14 * 2 ^ 12 + o % 2 ^ 12

/-- The DRAM address of a local address of channel `c`. -/
def globalOf (d : Device) (c : Chan) (l : Nat) : Nat :=
  c.val / 4 * (4 * chanCap d) + (l / 2 ^ 12 * 2 ^ 14 + c.val % 4 * 2 ^ 12 + l % 2 ^ 12)

/-! ### Replacement (R315) -/

/-- The victim among the candidate ways, each with its age or none where it is invalid, and what is added to every
candidate's age. -/
def pickVictim (l : List (Nat × Option Nat)) : Option (Nat × Nat) :=
  match takeFirst (fun w => w.2.isNone) l with
  | some (w, _) => some (w.1, 0)
  | none =>
    let top := l.foldl (fun m w => max m (w.2.getD 0)) 0
    match takeFirst (fun w => w.2 == some top) l with
    | some (w, _) => some (w.1, 3 - top)
    | none => none

/-! ### Channels -/

def updChan (d : Device) (c : Chan) (f : Channel → Channel) : Device :=
  { d with chans := d.chans.set c.val (f d.chans[c]) }

/-- Whether every byte of a line is enabled. -/
def fullLine (en : BitVec 64) : Bool := en == BitVec.allOnes 64

/-- A waiting write laid over a line and its poison mark (R393, R399). -/
def overWrite (l : Line × Bool) (w : WriteReq) : Line × Bool :=
  (lineMerge l.1 w.data w.bytes, if fullLine w.bytes then w.poison else l.2 || w.poison)

/-- Whether a channel has failed: its reads are uncorrectable and its writes discarded (R408). -/
def chanFailed (d : Device) (c : Chan) : Bool := regF d (DRC_STAT c.val) 0 2 == 3

/-- A line as its memory holds it, apart from flipped bits: the stored line, then every write that waits at its
channel. -/
def mediaRaw (d : Device) (a : Nat) : Line × Bool :=
  let base := (mline d.mem a, d.poison.contains a)
  if inDram d a then
    if chanFailed d (chanOf d a) then (base.1, true) else
      (d.chans[chanOf d a].wrq.filter (fun w => w.line == a)).foldl overWrite base
  else base

/-- Whether a write of the whole line waits at its channel, so that its reads do not meet the stored bits (R393). -/
def lineQueued (d : Device) (a : Nat) : Bool :=
  inDram d a && !chanFailed d (chanOf d a) && d.chans[chanOf d a].wrq.any fun w => w.line == a && fullLine w.bytes

/-- A line as its memory returns it: 3 flipped bits in a word cannot be corrected (R396). -/
def mediaLine (d : Device) (a : Nat) : Line × Bool :=
  let l := mediaRaw d a
  (l.1, l.2 || (decide (3 ≤ sget d.flips a 0) && !lineQueued d a))

/-- A write reaches the medium of its memory (R399); marks and flipped bits of the line are lost (R524). -/
def mediaWrite (d : Device) (w : WriteReq) : Device :=
  let l := overWrite (mline d.mem w.line, d.poison.contains w.line) w
  let marks := d.ras.marks.filter fun m => !((m.cls == 0x06 || m.cls == 0x15) && m.addr == w.line)
  { d with
    ras := { d.ras with marks := marks }
    flips := if fullLine w.bytes then sdel d.flips w.line else d.flips
    mem := mwrite d.mem w.line 64 l.1.toNat
    poison := if l.2 then insertNat d.poison w.line else d.poison.filter (· != w.line) }

/-- The partner granule of a mirrored primary granule (R391). -/
def partnerOf (d : Device) (a : Nat) : Option Nat :=
  match takeFirst (fun p => decide (p.prim * 4096 ≤ a) && decide (a < p.prim * 4096 + 65536)) d.mirrors with
  | some (p, _) => some (p.partner * 4096 + (a - p.prim * 4096))
  | none => none

/-- A write is accepted by its channel. -/
def chanAccept (d : Device) (w : WriteReq) : Device :=
  if inDram d w.line then updChan d (chanOf d w.line) fun c => { c with wrq := c.wrq ++ [w] }
  else if inMain d w.line then mediaWrite d w
  else d

/-! ### Gallery slices -/

def updGal (d : Device) (t : Tile) (f : Gallery → Gallery) : Device :=
  { d with gal := d.gal.set t.val (f d.gal[t]) }

/-- Way keys of the set of an address (R314). -/
def galKey (a w : Nat) : Nat := a / 64 % 4096 * 12 + w

/-- The way that holds a line, if any way does. -/
def galFindFrom (l : Sparse GalLine) (a : Nat) : Nat → Option (Nat × GalLine)
  | 0 => none
  | w + 1 =>
    match sfind l (galKey a w) with
    | some x => if x.line = a then some (galKey a w, x) else galFindFrom l a w
    | none => galFindFrom l a w

def galFind (g : Gallery) (a : Nat) : Option (Nat × GalLine) := galFindFrom g.lines a 12

/-- Ages of the candidate ways that a mask allows (R315, R336). -/
def galWays (l : Sparse GalLine) (a mask : Nat) : Nat → List (Nat × Option Nat)
  | 0 => []
  | n + 1 => galWays l a mask n ++
      (if mask / 2 ^ n % 2 = 1 then [(n, (sfind l (galKey a n)).map (·.age))] else [])

/-- Adds to the ages of the candidate ways. -/
def galAge (l : Sparse GalLine) (a add : Nat) (ws : List (Nat × Option Nat)) : Sparse GalLine :=
  ws.foldl (fun l w => supd l (galKey a w.1) fun x => { x with age := x.age + add }) l

/-- The ways in which a partition may allocate at a slice (R336, R337). -/
def wayMask (d : Device) (t : Tile) (p : Nat) : Nat := regF d (GAL_WAYMASK t.val p) 0 12

/-- A line that leaves its slice for DRAM under a class; one with an error that cannot be corrected leaves poisoned
(R341, R392). -/
def leaving (d : Device) (v : GalLine) (cls : Nat) : GalLine :=
  { v with cls := cls, poison := v.poison || decide (3 ≤ sget d.galFlips v.line 0) }

/-- Allocates a line in its home slice under a way mask; a dirty victim waits for its channel. With no candidate
way the line is not allocated. -/
def galInstall (d : Device) (mask : Nat) (x : GalLine) (cls : Nat) : Device :=
  let t := homeOf d x.line
  updGal { d with galFlips := sdel d.galFlips x.line } t fun g =>
    let ws := galWays g.lines x.line mask 12
    match pickVictim ws with
    | none => g
    | some (w, add) =>
      let key := galKey x.line w
      let old := sfind g.lines key
      { g with
        lines := sput (galAge g.lines x.line add ws) key x
        victims := match old with
          | some v => if v.dirty || v.poison then g.victims ++ [leaving d v cls] else g.victims
          | none => g.victims }

/-- A line as the slice and the memory behind it hold it. -/
def sliceLine (d : Device) (a : Nat) : Line × Bool :=
  let g := d.gal[homeOf d a]
  match galFind g a with
  | some (_, x) => (x.data, x.poison)
  | none =>
    match takeFirst (fun v => v.line == a) g.victims.reverse with
    | some (v, _) => (v.data, v.poison)
    | none => mediaLine d a

/-! ### Directory and core caches (R338, R339, R352) -/

def updHart (d : Device) (h : Hart) (f : HartState → HartState) : Device :=
  { d with harts := d.harts.set h.val (f d.harts[h]) }

/-- Changes every hart. -/
def allHarts (d : Device) (f : HartState → HartState) : Device :=
  { d with harts := d.harts.map f }

/-- The two harts of a square (R12). -/
def hartsOf (t : Nat) : List Hart :=
  [⟨2 * t % 128, Nat.mod_lt _ (by omega)⟩, ⟨(2 * t + 1) % 128, Nat.mod_lt _ (by omega)⟩]

/-- The harts a directory entry names. -/
def dirHarts (e : DirEntry) : List Hart :=
  (match e.owner with | some h => [h] | none => []) ++ (e.sharers.map hartsOf).flatten

/-- The harts that may hold a line. -/
def holders (d : Device) (a : Nat) : List Hart :=
  match sfind d.gal[homeOf d a].dir a with
  | some e => dirHarts e
  | none => []

/-- The modified copy of a line in a core, if there is one. -/
def modified (d : Device) (a : Nat) : Option (Line × Bool) :=
  match takeFirst (fun h => match sfind d.harts[h].lines a with | some l => l.dirty | none => false) (holders d a) with
  | some (h, _) => (sfind d.harts[h].lines a).map fun l => (l.data, l.poison)
  | none => none

/-- A line as every coherent read sees it, and whether it is poisoned. -/
def cohLine (d : Device) (a : Nat) : Line × Bool :=
  match modified d a with
  | some x => x
  | none => sliceLine d a

/-! ### The persistent window (R434, R435, R441) -/

/-- Pages of the window, and its base. -/
def winPages (d : Device) : Nat := regF d HUP_LIMIT 0 19
def winBase (d : Device) : Nat := regF d HUP_WIN 16 36 * 65536

/-- The window page an address lies in. -/
def winPage (d : Device) (a : Nat) : Option Nat :=
  if decide (winBase d ≤ a) && decide (a < winBase d + winPages d * 65536) then some ((a - winBase d) / 65536)
  else none

/-- Whether a write to an address waits: its page is clean, its record has not completed, or an earlier write to the
line waits. -/
def winHolds (d : Device) (a : Nat) : Bool :=
  match winPage d a with
  | none => false
  | some p => d.hup.clean.contains p || d.hup.records.contains p ||
      d.hup.held.any (fun h => h.line == lineOf a)

/-- Whether a write that has been performed at its slice is complete only once its page has been cleaned (R441). -/
def winStrict (d : Device) (a : Nat) : Bool :=
  match winPage d a with
  | none => false
  | some p => d.hup.strict.contains p

/-! ### The granule log (R484) -/

/-- A line with one bit set. -/
def lineOr (l : Line) (bit : Nat) : Line := l ||| ((1 : Line) <<< (bit % 512))

/-- Harts other than `by` lose a reservation of the line (R352). -/
def loseReserve (d : Device) (a : Nat) (by_ : Option Hart) : Device :=
  { d with harts := Vector.ofFn fun i =>
      if by_ == some i then d.harts[i]
      else { d.harts[i] with reserve := if d.harts[i].reserve == some a then none else d.harts[i].reserve } }

/-- A write enters the queue of its channel, and of its mirror partner (R391). -/
def chanPut (d : Device) (w : WriteReq) : Device :=
  match (if inDram d w.line then partnerOf d w.line else none) with
  | some b => chanAccept (chanAccept d w) { w with line := b }
  | none => chanAccept d w

/-- Sets a bit of memory wherever the newest copies of its line are: in cores, in the gallery, or in memory.
Reservations of the line are lost (R352). -/
def setBitNow (d : Device) (a bit : Nat) : Device :=
  let l := lineOf a
  let k := 8 * (a % 64) + bit
  let d := loseReserve d l none
  let g := d.gal[homeOf d l]
  let inGal := (g.lines.any fun x => x.2.line == l) || g.victims.any fun v => v.line == l
  let hold := fun x : GalLine => if x.line = l then { x with data := lineOr x.data k, dirty := true } else x
  let d' := { d with
    harts := d.harts.map fun h => { h with lines := h.lines.map fun x =>
      if x.1 = l then (x.1, { x.2 with data := lineOr x.2.data k }) else x }
    gal := d.gal.set (homeOf d l).val { g with
      lines := g.lines.map fun x => (x.1, hold x.2), victims := g.victims.map hold } }
  if inGal then d'
  else chanPut d' ⟨l, lineOr (mediaRaw d l).1 k, enables (a % 64) 1, false, 3, d.cycle⟩

/-- The line with the writes that wait at its home slice for a clean page. -/
def heldOver (d : Device) (a : Nat) (l : Line) : Line :=
  (d.hup.held.filter fun h => h.line == a).foldl (fun l h => lineMerge l h.data h.bytes) l

/-- Asks for window pages that a waiting write needs. -/
def askPages (d : Device) (l : List Nat) : Device :=
    { d with hup := { d.hup with wants := l.foldl insertNat d.hup.wants } }

/-- The window page for which a write to an address would wait. -/
def winWaits (d : Device) (a : Nat) : List Nat := if winHolds d a then (winPage d a).toList else []

/-- Whether a write of a partition waits at its home slice for a clean page. -/
def partHeld (d : Device) (p : Part) : Bool := d.hup.held.any fun h => h.part == p

/-- Sets a bit of memory; in a window page that is clean the write waits as any other does (R368, R435). -/
def setMemBit (d : Device) (a bit : Nat) : Device :=
  let l := lineOf a
  if winHolds d l then
    let v := lineOr (heldOver d l (cohLine d l).1) (8 * (a % 64) + bit)
    { d with hup := { d.hup with held := d.hup.held ++ [⟨l, v, enables (a % 64) 1, 0, false⟩] } }
  else setBitNow d a bit

/-- The IOVA of a donated granule that holds an address, with its partition. -/
def donatedAt (d : Device) (a : Nat) : Option (Part × Nat) :=
  (d.pager.ranges.find? fun r => r.granules.any fun g => decide (g * 4096 ≤ a) && decide (a < g * 4096 + 65536)).map
    fun r => (r.part, r.iova + 65536 * r.granules.findIdx fun g => decide (g * 4096 ≤ a) &&
        decide (a < g * 4096 + 65536))

/-- The A64 writes a donated granule by physical address: the bit of that granule is set in its partition's log. -/
def logGranule (d : Device) (a : Nat) : Device :=
  match donatedAt d a with
  | none => d
  | some (p, va) =>
    match sfind d.parts p.val with
    | none => d
    | some x =>
      let i := (va - x.logBase) / 65536
      if decide (x.logBase ≤ va) && decide (i < x.logGranules) then setMemBit d (x.logAddr + i / 8) (i % 8) else d

/-- A write is accepted by its channel, and by its mirror partner's channel with it (R391, R393). -/
def chanWrite (d : Device) (a : Nat) (data : Line) (en : BitVec 64) (poison : Bool) (cls : Nat) : Device :=
  let w : WriteReq := ⟨a, data, en, poison, cls, d.cycle⟩
  match (if inDram d a then partnerOf d a else none) with
  | some b => chanAccept (logGranule (chanAccept d w) b) { w with line := b }
  | none => chanAccept d w

/-! ### Writes at the slices (R336, R339, R340) -/

/-- Dirty victims of a line leave their slice before anything later reaches the channel (R340). -/
def flushVictims (d : Device) (a cls : Nat) : Device :=
  let t := homeOf d a
  let vs := d.gal[t].victims.filter (fun v => v.line == a)
  let d := updGal d t fun g => { g with victims := g.victims.filter (fun v => v.line != a) }
  vs.foldl (fun d v => chanWrite d v.line v.data (BitVec.allOnes 64) v.poison cls) d

/-- A line is updated in its slice, or allocated there, or written to its channel (R336, R339). -/
def slicePut (d : Device) (a : Nat) (data : Line) (en : BitVec 64) (poison : Bool) (mask : Nat) (alloc : Bool)
    (cls : Nat) : Device :=
  let t := homeOf d a
  match galFind d.gal[t] a with
  | some (k, x) =>
    let bad := decide (3 ≤ sget d.galFlips a 0)
    updGal { d with galFlips := sdel d.galFlips a } t fun g => { g with
      hits := g.hits + 1
      lines := sput g.lines k { x with
        data := lineMerge x.data data en, dirty := true, age := 0,
        poison := if fullLine en then poison else x.poison || poison || bad } }
  | none =>
    if alloc && mask != 0 then
      let old := sliceLine d a
      galInstall (flushVictims d a cls) mask
        ⟨a, lineMerge old.1 data en, true, if fullLine en then poison else old.2 || poison, 0, cls⟩ cls
    else chanWrite (flushVictims d a cls) a data en poison cls

/-- The directory invalidates a line in every core; a modified copy is written to the slice first (R339). -/
def recallLine (d : Device) (a : Nat) : Device :=
  let hs := holders d a
  let d := match modified d a with
    | some (x, p) => slicePut d a x (BitVec.allOnes 64) p (wayMask d (homeOf d a) 0) true 1
    | none => d
  let d := hs.foldl (fun d h => updHart d h fun s =>
    { s with lines := sdel s.lines a, reserve := if s.reserve == some a then none else s.reserve }) d
  updGal d (homeOf d a) fun g => { g with dir := sdel g.dir a }

/-- The package leaves deep idle, and its DRAM self-refresh (R281, R384). -/
def wakePackage (d : Device) : Device :=
  if d.packageIdle then
    { d with packageIdle := false, chans := d.chans.map fun c => { c with selfRefresh := false } }
  else d

/-! ### Coherent accesses of engines' caches and of units -/

/-- A write reaches its home slice and is performed there (R339). -/
def sliceWrite (d : Device) (w : HeldWrite) (cls : Nat) : Device :=
  let d := loseReserve (recallLine d w.line) w.line none
  slicePut d w.line w.data w.bytes false (wayMask d (homeOf d w.line) w.part.val) w.alloc cls

/-- A write of enabled bytes of one line by an engine-side agent or a unit: performed, or held at its home slice
under R435 and R441. A write outside main memory is dropped. -/
def lineWrite (d : Device) (a : Nat) (data : Line) (en : BitVec 64) (p : Part) (alloc : Bool) (cls : Nat) : Device :=
  if !inMain d a then d
  else if winHolds d a then
    { d with hup := { d.hup with held := d.hup.held ++ [⟨a, data, en, p, alloc⟩] } }
  else sliceWrite d ⟨a, data, en, p, alloc⟩ cls

/-- The bytes of memory as a reader sees them, held writes of the window left out. -/
def cohByte (d : Device) (a : Nat) : Byte := lineByte (cohLine d (lineOf a)).1 (a % 64)

/-- The part of an access from `a` that lies in its first line. -/
def chunkLen (a n : Nat) : Nat := min n (64 - a % 64)

/-- Reads `n` bytes line by line, at most `k` lines: the value and whether any line is poisoned. -/
def cohReadGo (d : Device) (a n : Nat) : Nat → Nat × Bool
  | 0 => (0, false)
  | k + 1 =>
    if n = 0 then (0, false)
    else
      let c := chunkLen a n
      let l := cohLine d (lineOf a)
      let r := cohReadGo d (a + c) (n - c) k
      (lineRead l.1 (a % 64) c + 2 ^ (8 * c) * r.1, l.2 || r.2)

/-- `n` bytes of memory as a number, and whether any of them lies in a poisoned line. -/
def cohRead (d : Device) (a n : Nat) : Nat × Bool := cohReadGo d a n (n / 64 + 2)

def cohWriteGo (d : Device) (a n v : Nat) (p : Part) (cls : Nat) : Nat → Device
  | 0 => d
  | k + 1 =>
    if n = 0 then d
    else
      let c := chunkLen a n
      let w : Line := BitVec.ofNat 512 (v % 2 ^ (8 * c) * 2 ^ (8 * (a % 64)))
      cohWriteGo (lineWrite d (lineOf a) w (enables (a % 64) c) p false cls) (a + c) (n - c) (v / 2 ^ (8 * c)) p cls k

/-- A unit writes `n` bytes of memory for partition `p`, without allocating in the gallery (R336). -/
def cohWrite (d : Device) (a n v : Nat) (p : Part) (cls : Nat) : Device :=
  cohWriteGo d a n v p cls (n / 64 + 2)

end Sys2Proof.Machine
end

