-- ==== Sys2Proof/Machine/Channel.lean ====
section
/-! DEFINITION. The DRAM channels as every reader meets them: decoding, activations, the commands and alerts of a
subchannel, the order of requests, error checks, healing and poisoning, and the reads that units make through the
gallery (R311, R312, R336, R341, R343, R390 to R400, R403, R407, R437, R476). -/

namespace Sys2Proof.Machine

open Sys2Proof

/-! ### Decoding a local address (R390) -/

/-- Ranks of a channel. -/
def chanRanks (d : Device) : Nat := regF d (DRC_CFG 0) 0 2 * regF d (DRC_CFG 0) 2 2

/-- Rank, row and bank of a local address; subchannel, bank group and bank stand in one bank number with the rank. -/
def rankOf (d : Device) (l : Nat) : Nat := l / (chanCap d / max 1 (chanRanks d))
def rowOf (d : Device) (l : Nat) : Nat := l % (chanCap d / max 1 (chanRanks d)) / 2 ^ 19
def subOf (l : Nat) : Nat := fieldN l 6 1
def bankKey (d : Device) (l : Nat) : Nat :=
  ((rankOf d l * 2 + subOf l) * 8 + Nat.xor (fieldN l 14 3) (rowOf d l % 8)) * 4 + fieldN l 17 2
def rowKey (d : Device) (l : Nat) : Nat := 256 * rowOf d l + bankKey d l

/-! ### Activations (R403) -/

/-- Adds an activation of a row to a table of 32 entries. -/
def countRow (l : List RowCount) (r : Nat) : List RowCount :=
  if l.any fun x => x.row == r then l.map fun x => if x.row = r then { x with count := x.count + 1 } else x
  else if l.length < 32 then l ++ [⟨r, 1⟩]
  else
    let low := l.foldl (fun m x => min m x.count) (l.headD ⟨0, 0⟩).count
    match l.findIdx? fun x => x.count == low with
    | some i => updAt l i fun _ => ⟨r, low + 1⟩
    | none => l

/-- A row is activated in its bank unless it is open; a count that reaches the threshold gives a DRFM. -/
def activate (d : Device) (c : Chan) (l : Nat) : Device :=
  let b := bankKey d l
  let r := rowOf d l
  if sfind d.chans[c].openRow b = some r then d
  else
    let t := countRow (sget d.chans[c].acts b []) r
    let n := (t.filter fun x => x.row == r).foldl (fun n x => n + x.count) 0
    let d := setReg d (DRC_RH c.val) 32 14 (max n (regF d (DRC_RH c.val) 32 14))
    let past := decide (regF d (DRC_CTL c.val) 8 14 ≤ n)
    let t := if past then t.map fun x => if x.row = r then { x with count := 0 } else x else t
    let d := if past then incReg d (DRC_RH c.val) 0 32 1 else d
    updChan d c fun x => { x with openRow := sput x.openRow b r, acts := sput x.acts b t }

/-! ### Command and link errors (R406 to R408) -/

/-- The link must retrain before the channel serves anything else. -/
def startRetrain (d : Device) (c : Chan) : Device :=
  if chanFailed d c then d else setReg d (DRC_STAT c.val) 0 2 1

/-- Whether an alert comes within 32 commands of the one before. -/
def alertAgain (x : Channel) (sub : Nat) : Bool :=
  match sfind x.since sub with
  | some n => decide (n ≤ 32)
  | none => false

/-- The counter of an alert in DRC_LINK. -/
def alertBit (k : AlertKind) : Nat :=
  match k with
  | .caParity => 0
  | .writeCrc => 16

/-- An alert of a subchannel: the commands are replayed, and an alert within the next 32 commands makes the replay
before it a failed one; the third failed in a row makes the link retrain. -/
def alert (d : Device) (c : Chan) (sub : Nat) (k : AlertKind) : Device :=
  let d := incRegSat d (DRC_LINK c.val) (alertBit k) 16
  let d := raiseEvent d 0x0d c.val 0 0 none
  let again := alertAgain d.chans[c] sub
  let n := if again then sget d.chans[c].replayFails sub 0 + 1 else 0
  let d := if again then incRegSat d (DRC_LINK c.val) 32 8 else d
  let d := updChan d c fun x => { x with
    since := sput x.since sub 0, replayFails := sput x.replayFails sub (if n = 3 then 0 else n) }
  if n = 3 then startRetrain d c else d

/-- A command goes to a subchannel; an armed injection sends it with bad parity first (R524). -/
def command (d : Device) (c : Chan) (l : Nat) : Device :=
  let a := takeArmed d 0x0d c.val 0
  let d := if a.1 then alert a.2 c (subOf l) .caParity else d
  activate (updChan d c fun x => { x with since := supd x.since (subOf l) (· + 1) }) c l

/-! ### The order of requests (R392 to R395, R476) -/

/-- Whether a channel is in a quiet window: it ends 1,600 engine cycles after the tick at the latest (R43). -/
def inQuiet (d : Device) (c : Chan) : Bool := d.chans[c].quiet && decide (d.cycle < d.beat.lastTick + 1600)

/-- Whether a channel can send commands. -/
def chanReady (d : Device) (c : Chan) : Bool :=
  !inQuiet d c && !d.chans[c].selfRefresh && regF d (DRC_STAT c.val) 0 2 != 1

/-- Age limit in engine cycles. -/
def ageLimit (d : Device) (c : Chan) : Nat := 1000 * regF d (DRC_CTL c.val) 0 8

/-- Writes in the queue, and one that goes ahead of every read. -/
def wrQueue (d : Device) (c : Chan) : List WriteReq := d.chans[c].wrq.take 64
def urgentWrite (d : Device) (c : Chan) : Option WriteReq :=
  (wrQueue d c).find? fun w => w.cls == 0 || decide (ageLimit d c < d.cycle - w.arrived)

/-- A burst of writes runs from 48 entries down to 16. -/
def burst (d : Device) (c : Chan) : Bool :=
  decide (48 ≤ (wrQueue d c).length) || (d.chans[c].bursting && decide (16 < (wrQueue d c).length))

/-- The resource descriptor of a partition in force; none of its resources where it does not exist. -/
def partDesc (d : Device) (p : Part) : Nat :=
  match sfind d.parts p.val with
  | some x => x.desc.toNat
  | none => 0

/-- Field of `n` bytes at byte `b` of the descriptor (R472). -/
def partF (d : Device) (p : Part) (b n : Nat) : Nat := fieldN (partDesc d p) (8 * b) (8 * n)

def dramWeight (d : Device) (p : Part) : Nat := partF d p 0x4a 1

/-- Partitions that have a read waiting. -/
def waitingParts (l : List ReadReq) : List Part := (List.finRange 64).filter fun p => l.any fun r => r.req.part == p

/-- The partition with the largest balance; the lowest number of equals (DESIGN CHOICE, log entry 44). -/
def nextPart (d : Device) (c : Chan) (l : List Part) : Option Part :=
  l.foldl (fun (m : Option Part) p =>
    match m with
    | none => some p
    | some o => if sget d.chans[c].balance o.val 0 < sget d.chans[c].balance p.val 0 then some p else m) none

/-- Balances after a service of class 2 (R476). -/
def balances (d : Device) (c : Chan) (served : Part) (l : List Part) : Sparse Int :=
  let sum := l.foldl (fun n p => n + dramWeight d p) 0
  l.foldl (fun m p =>
    let gain : Int := Int.ofNat (dramWeight d p * 256 / max 1 sum)
    sput m p.val (min 4096 (sget d.chans[c].balance p.val 0 + gain - (if p = served then 256 else 0)))) []

/-- The balances after a unit's read of class 2 for a partition (R476). -/
def chargeRead (d : Device) (c : Chan) (p : Part) : Device :=
  let q := (d.chans[c].rdq.take 128).filter fun r => !r.promoted
  let ps := (List.finRange 64).filter fun x => x == p || (waitingParts q).contains x
  updChan d c fun x => { x with balance := balances d c p ps }

/-- A read on behalf of a unit, as the channel orders it: its class, the partition it is made for, and whether it is
promoted (R392, R394). -/
structure UnitReq where
  cls : Nat
  part : Part
  promoted : Bool
  deriving DecidableEq, Repr

/-- Whether a channel takes a unit's read now: not in a quiet window, in self-refresh or while the link retrains; not
while writes go ahead of every read; and not while a read of a higher tier waits. Reads of the same tier in its queue
do not hold it up (DESIGN CHOICE, log entry 113). -/
def mayRead (d : Device) (c : Chan) (r : UnitReq) : Bool :=
  let q := d.chans[c].rdq.take 128
  chanReady d c && !burst d c && (urgentWrite d c).isNone &&
    (r.cls == 0 || r.promoted || !q.any fun x => x.promoted) && (decide (r.cls ≤ 2) || r.promoted || q.isEmpty)

/-- A unit's read waits: the command that makes it has no effect yet. -/
def waiting (d : Device) : Device := { d with waits := true }

/-- The effect of a command that reads memory: none while a read of it waits (R43, R393, R394, R406). -/
def served (f : Device → Device) (d : Device) : Device :=
  let r := f { d with waits := false }
  if r.waits then d else { r with waits := d.waits }

/-- An effect that only a running part has, and that waits for its reads. -/
def whenServed (f : Device → Device) : Device → Device := whenRun (served f)

/-! ### Healing and retirement (R311, R312, R400, R437) -/

/-- Bytes of a granule. -/
def granBytes : Nat := 65536

/-- Whether an address lies in one of a list of granules. -/
def inGran (gs : List Nat) (a : Nat) : Bool :=
  gs.any fun g => decide (g * 4096 ≤ a) && decide (a < g * 4096 + granBytes)

/-- The state of the ledger (R414). -/
def ldgState (d : Device) : Nat := regF d LDG_STAT 8 2

def updPager (d : Device) (f : Pager → Pager) : Device := { d with pager := f d.pager }

/-- Whether a granule holds part of a 16 KiB block of a channel's local addresses. -/
def granHits (d : Device) (c : Chan) (blk g : Nat) : Bool :=
  let a := globalOf d c (blk * 2 ^ 14)
  (List.range 4).any fun j => overlaps (g * 4096) granBytes (a - a % 2 ^ 16 + 4096 * (c.val % 4) + 16384 * j) 4096

/-- The heap range and granule that hold an address. -/
def heapAt (d : Device) (a : Nat) : Option (DonRange × Nat) :=
  (d.pager.ranges.filter fun r => r.kind != 2).findSome? fun r =>
    (r.granules.find? fun g => inGran [g] a).map fun g => (r, g)

/-- The other copy of a mirrored line. -/
def twinOf (d : Device) (a : Nat) : Option Nat :=
  match partnerOf d a with
  | some b => some b
  | none => (d.mirrors.find? fun m => inGran [m.partner] a).map fun m => m.prim * 4096 + (a - m.partner * 4096)

/-- A line of the copy of the segment that holds a granule. -/
def copyLineOf (d : Device) (g a : Nat) : Option Line :=
  match d.pager.segs.find? fun s => s.2.granules.contains g with
  | none => none
  | some (_, s) =>
    let i := s.granules.idxOf g
    let off := a - g * 4096
    match s.copy with
    | some (.cxl gs) =>
      (match gs[i]? with
       | some x => let l := cohLine d (x * 4096 + off); if l.2 then none else some l.1
       | none => none)
    | some (.ledger bs) =>
      (match bs[i]? with
       | some b => if b.digest = sha3 b.bytes && ldgState d != 3 then
           (decodeBlock b.bytes).map fun r => BitVec.ofNat 512 (ofBytes ((r.1.drop off).take 64)) else none
       | none => none)
    | none => none

/-- A line of the image of a clean window page. -/
def imageLine (d : Device) (a : Nat) : Option Line :=
  match winPage d a with
  | some p => if d.hup.clean.contains p && !d.hup.imagePoison.contains (a - winBase d) then
      some (mline d.hup.image (a - winBase d)) else none
  | none => none

/-- The data an uncorrectable line is healed with, if there are any. -/
def healSource (d : Device) (a : Nat) : Option Line :=
  match (match twinOf d a with
      | some b => let l := mediaLine d b; if l.2 then none else some l.1
      | none => none) with
  | some l => some l
  | none =>
    match heapAt d a with
    | some (_, g) => (match copyLineOf d g a with
        | some l => some l
        | none => imageLine d a)
    | none => imageLine d a

/-- IOVA of a granule of a range. -/
def granIova (r : DonRange) (g : Nat) : Nat := r.iova + granBytes * r.granules.idxOf g

/-- A granule is never allocated again (R312, R400); the pager moves its segment at a later step. -/
def retireGranule (d : Device) (r : DonRange) (g : Nat) : Device :=
  if d.pager.retired.contains g then d
  else
    let d := updPager d fun x => { x with retired := x.retired ++ [g] }
    let d := incRegSat (setReg d PGR_ERR 2 1 1) PGR_ERR 32 16
    let d := raiseEvent d 0x0c (chanOf d (g * 4096)).val (granIova r g) 0 (some r.part)
    lifeRetire d .granule g 0x0c

/-- A healing is counted; the second of a granule within 24 hours retires it (R311, R312). -/
def countHeal (d : Device) (c : Chan) (a : Nat) : Device :=
  let d := match takeMark d.ras.marks 0x15 c.val a with
    | some r => { d with ras := { d.ras with marks := r ++ [⟨0x0a, c.val, a, 1⟩] } }
    | none => d
  let d := raiseEvent d 0x0a c.val a 0 none
  match heapAt d a with
  | none => d
  | some (r, g) =>
    let d := incRegSat (setReg d PGR_ERR 0 1 1) PGR_ERR 16 16
    if d.pager.healed.contains g then retireGranule d r g
    else updPager d fun x => { x with healed := x.healed ++ [g] }

/-- A row becomes suspect: it joins the repair list, and the heap granules that hold lines of it are retired (R400). -/
def suspectRow (d : Device) (c : Chan) (l : Nat) : Device :=
  let k := rowKey d l
  if d.chans[c].suspect.contains k then d
  else
    let d := updChan d c fun x => { x with suspect := x.suspect ++ [k] }
    let d := raiseEvent (setReg d (DRC_ERR c.val) 1 1 1) 0x0b c.val (globalOf d c l) k none
    let d := lifeNote d .row c.val (l / 2 ^ 14 * 2 + subOf l)
    let own := granHits d c (l / 2 ^ 14)
    (d.pager.ranges.filter fun r => r.kind != 2).foldl (fun d r =>
      (r.granules.filter own).foldl (fun d g => retireGranule d r g) d) d

/-- A line that failed R398 is healed from other data, or marked poisoned (R311, R437). -/
def healLine (d : Device) (c : Chan) (a : Nat) : Option Line × Device :=
  match healSource d a with
  | some l => (some l, countHeal (chanWrite (logGranule d a) a l (BitVec.allOnes 64) false 3) c a)
  | none =>
    let heap := heapAt d a
    let d := if heap.isSome then setReg d PGR_ERR 1 1 1 else d
    let d := chanWrite (logGranule d a) a (mediaLine d a).1 (BitVec.allOnes 64) true 3
    (none, raiseEvent d 0x15 c.val a 0xb (heap.map fun x => x.1.part))

/-- The outcome of a line that failed R398: it is healed or poisoned before its row becomes suspect, so that what leaves
the row's granules is good (R311, R398, R400). -/
def uncorrectable (d : Device) (c : Chan) (a : Nat) : Option Line × Device :=
  let r := DRC_ERR_ADDR c.val
  let d := incRegSat (setReg d (DRC_ERR c.val) 0 1 1) (DRC_ECC c.val) 48 16
  let x := healLine (setReg (setReg d r 0 52 a) r 63 1 1) c a
  (x.1, suspectRow x.2 c (localOf d a))

/-- A corrected error is counted, and counted against its row, and the line is rewritten in class 3 (R397, R400). -/
def corrected (d : Device) (c : Chan) (a : Nat) : Device :=
  let l := localOf d a
  let k := rowKey d l
  let n := sget d.chans[c].ceRows k 0 + 1
  let d := lifeAdd (incReg d (DRC_ECC c.val) 0 32 1) 3 (256 * c.val + bankKey d l) 1
  let d := updChan (raiseEvent d 0x06 c.val a 0 none) c fun x => { x with ceRows := sput x.ceRows k n }
  let d := chanWrite d a (mediaRaw d a).1 (BitVec.allOnes 64) false 3
  if regF d (DRC_CTL c.val) 22 8 ≤ n then suspectRow d c l else d

/-! ### Error checks (R341, R396 to R399, R408, R524) -/

/-- What a check finds in a word with some bits flipped: 1 or 2 are corrected and 3 detected (R341, R396). More than 3
count as detected (DESIGN CHOICE, log entry 114). -/
def eccOf (bits : Nat) : EccOutcome :=
  if bits = 0 then .clean else if bits ≤ 2 then .corrected else .bad

/-- The flipped bits of a line and an error of the read itself, taken together. -/
def eccWith (bits : Nat) (o : EccOutcome) : EccOutcome :=
  match eccOf bits with
  | .clean => o
  | .corrected => if o = .clean then .corrected else o
  | x => x

/-- What the read of a line finds: the check's outcome, or what an injection has put there (R524). -/
def lineOutcome (d : Device) (c : Chan) (a : Nat) (o : EccOutcome) : EccOutcome :=
  if d.ras.marks.any fun m => m.cls == 0x15 && m.inst == c.val && m.addr == a then .bad
  else if d.ras.marks.any fun m => m.cls == 0x06 && m.inst == c.val && m.addr == a then .corrected
  else eccWith (sget d.flips a 0) o

/-- Reads a line of DRAM: its data, or none where it is poisoned (R397 to R399, R408). -/
def readDram (d : Device) (a : Nat) (o : EccOutcome) : Option Line × Device :=
  let c := chanOf d a
  let l := mediaRaw d a
  if chanFailed d c then uncorrectable d c a
  else if l.2 then (none, d)
  else if lineQueued d a then (some l.1, d)
  else match lineOutcome d c a o with
    | .clean => (some l.1, d)
    | .corrected => (some l.1, corrected d c a)
    | .retryOk =>
      let d := raiseEvent (incRegSat d (DRC_ECC c.val) 32 16) 0x09 c.val a 0 none
      (some l.1, corrected d c a)
    | .bad => uncorrectable d c a

/-- A line found in a slice with what its check finds (R341): corrected in place and counted; an uncorrectable one
leaves the slice, to DRAM and poisoned where it was dirty, and the answer is none. -/
def galCheck (d : Device) (t : Tile) (k : Nat) (x : GalLine) (cls : Nat) (o : EccOutcome) : Option GalLine × Device :=
  let r := GAL_ERR t.val
  let w := eccWith (sget d.galFlips x.line 0) o
  let d := { d with galFlips := sdel d.galFlips x.line }
  match w with
  | .clean => (some x, d)
  | .bad =>
    let d := updGal (incRegSat d r 32 16) t fun g => { g with lines := sdel g.lines k }
    if x.dirty then
      let d := raiseEvent d 0x15 (chanOf d x.line).val x.line 0 none
      (none, chanWrite (setReg d r 2 1 1) x.line x.data (BitVec.allOnes 64) true cls)
    else (none, setReg d r 1 1 1)
  | _ => (some x, raiseEvent (incRegSat (setReg d r 0 1 1) r 16 16) 0x07 t.val x.line 0 none)

/-! ### Reads of units through the gallery (R336, R340, R343, R392) -/

/-- What a read found: the data, whether they are poisoned, and whether the slice missed. -/
structure Found where
  data : Line
  poison : Bool
  miss : Bool
  deriving DecidableEq, Repr

/-- The data of a read, none where they are poisoned. -/
def Found.get (x : Found) : Option Line := if x.poison then none else some x.data

/-- A read that misses its slice: the channel serves it, or it waits there; CXL memory answers at once. -/
def missRead (d : Device) (a : Nat) (r : UnitReq) (o : EccOutcome) : Found × Device :=
  let d := updGal d (homeOf d a) fun g => { g with misses := g.misses + 1 }
  let c := chanOf d a
  if !inDram d a then (let l := mediaLine d a; (⟨l.1, l.2, true⟩, d))
  else if lineQueued d a then (let l := mediaRaw d a; (⟨l.1, l.2, true⟩, d))
  else if !mayRead d c r then (⟨0, true, true⟩, waiting d)
  else
    let d := if r.cls = 2 && !r.promoted then chargeRead d c r.part else d
    match readDram (command d c (localOf d a)) a o with
    | (some l, d) => (⟨l, false, true⟩, d)
    | (none, d) => (⟨(mediaLine d a).1, true, true⟩, d)

/-- A read at the home slice: a dirty victim of the line has left first (R340); a hit takes age 0 and is counted. -/
def sliceRead (d : Device) (a : Nat) (r : UnitReq) (o : EccOutcome) : Found × Device :=
  let d := flushVictims d a r.cls
  let t := homeOf d a
  match galFind d.gal[t] a with
  | none => missRead d a r o
  | some (k, x) =>
    match galCheck d t k x r.cls o with
    | (some x, d) => (⟨x.data, x.poison, false⟩, updGal d t fun g => { g with
        hits := g.hits + 1, lines := sput g.lines k { x with age := 0 } })
    | (none, d) => missRead d a r .clean

/-- A coherent read of a line by a unit: a core's modified copy, the slice, or the memory behind it. -/
def unitRead (d : Device) (a : Nat) (r : UnitReq) (o : EccOutcome) : Found × Device :=
  match modified d a with
  | some (x, p) => (⟨x, p, false⟩, updGal d (homeOf d a) fun g => { g with hits := g.hits + 1 })
  | none => sliceRead d a r o

def memReadGo (d : Device) (a n : Nat) (r : UnitReq) : Nat → (Nat × Bool) × Device
  | 0 => ((0, false), d)
  | k + 1 =>
    if n = 0 then ((0, false), d)
    else
      let c := chunkLen a n
      let x := unitRead d (lineOf a) r .clean
      let y := memReadGo x.2 (a + c) (n - c) r k
      ((lineRead x.1.data (a % 64) c + 2 ^ (8 * c) * y.1.1, x.1.poison || y.1.2), y.2)

/-- `n` bytes of memory that a unit reads, as a number, and whether any of them lies in a poisoned line. -/
def memRead (d : Device) (a n : Nat) (r : UnitReq) : (Nat × Bool) × Device := memReadGo d a n r (n / 64 + 2)

end Sys2Proof.Machine
end

