-- ==== Sys2Proof/Machine/Iommu.lean ====
section
/-! DEFINITION. The IOMMU (R378 to R381) in the layout of the RISC-V IOMMU specification (PRESUMED, log entry 25):
device contexts, two-stage translation, the fault queue; and the interrupt files (R376, R377). -/

namespace Sys2Proof.Machine

open Sys2Proof

/-- Doubleword of a table in memory; none where it is not in main memory or lies in a poisoned line. -/
def tblGet (d : Device) (a : Nat) : Option Nat :=
  if inMain d a && !(cohRead d a 8).2 then some (cohRead d a 8).1 else none

/-- Walks a page table of `n` more levels; the root of a second stage has two more index bits. Answers the leaf's
address, its value and its level. -/
def ptWalk (get : Nat → Option Nat) (va : Nat) (wide : Bool) : Nat → Nat → Option (Nat × Nat × Nat)
  | 0, _ => none
  | n + 1, a =>
    let p := a + 8 * fieldN va (12 + 9 * n) (if wide then 11 else 9)
    match get p with
    | none => none
    | some e =>
      if fieldN e 0 1 = 0 || fieldN e 1 2 = 2 || fieldN e 54 10 != 0 then none
      else if fieldN e 1 3 = 0 then ptWalk get va false n (fieldN e 10 44 * 4096)
      else if fieldN e 10 (9 * n) != 0 then none
      else some (p, e, n)

/-- The address a leaf of level `n` maps to. -/
def leafAddr (e n va : Nat) : Nat := fieldN e 10 44 * 4096 + va % 2 ^ (12 + 9 * n)

/-- Levels of a paging mode of fsc or iohgatp. -/
def modeLevels (m : Nat) : Nat := if 8 ≤ m ∧ m ≤ 10 then m - 5 else 0

/-- A leaf that allows an access, with its A and D bits as the access leaves them; none where the access faults. -/
def leafAllows (e : Nat) (wr hwad : Bool) : Option Nat :=
  let need := if wr then 0xc0 else 0x40
  if fieldN e 4 1 = 0 || (if wr then fieldN e 2 1 = 0 else fieldN e 1 1 = 0) then none
  else if Nat.land e need = need then some e
  else if hwad then some (Nat.lor e need)
  else none

/-- A device context (R378, R379). -/
structure DevCtx where
  tc : Nat
  iohgatp : Nat
  fsc : Nat
  msiptp : Nat
  mask : Nat
  pattern : Nat
  deriving DecidableEq, Repr

/-- Finds a device context in the three-level directory of 64-byte entries. -/
def ddtGo (d : Device) (dev : Nat) : Nat → Nat → Option DevCtx
  | 0, a =>
    let p := a + 64 * fieldN dev 0 6
    if !inMain d p then none
    else
      let f := fun k => (cohRead d (p + 8 * k) 8).1
      if fieldN (f 0) 0 1 = 1 then some ⟨f 0, f 1, f 3, f 4, f 5, f 6⟩ else none
  | n + 1, a =>
    match tblGet d (a + 8 * fieldN dev (6 + 9 * n) 9) with
    | some e => if fieldN e 0 1 = 1 then ddtGo d dev n (fieldN e 10 44 * 4096) else none
    | none => none

/-- Second stage: guest physical to physical, and the leaf to be updated. -/
def stage2 (d : Device) (c : DevCtx) (gpa : Nat) (wr : Bool) : Option (Nat × List (Nat × Nat)) :=
  let n := modeLevels (fieldN c.iohgatp 60 4)
  if fieldN c.iohgatp 60 4 = 0 then some (gpa, [])
  else if n = 0 || decide (2 ^ (14 + 9 * n) ≤ gpa) then none
  else match ptWalk (tblGet d) gpa true n (fieldN c.iohgatp 0 44 * 4096) with
    | none => none
    | some (p, e, l) =>
      match leafAllows e wr (fieldN c.tc 7 1 == 1) with
      | none => none
      | some e' => some (leafAddr e l gpa, if e' = e then [] else [(p, e')])

/-- The MSI page table's answer for a guest physical address it covers (flat tables). -/
def msiMap (d : Device) (c : DevCtx) (gpa : Nat) : Option (Option Nat) :=
  let pg := gpa / 4096
  if fieldN c.msiptp 60 4 = 1 && Nat.land pg (Nat.xor (2 ^ 52 - 1) c.mask) == Nat.land c.pattern (Nat.xor (2 ^ 52 - 1) c.mask) then
    let idx := (List.range 52).foldl (fun (x : Nat × Nat) b =>
      if c.mask.testBit b then (x.1 + (if pg.testBit b then 2 ^ x.2 else 0), x.2 + 1) else x) (0, 0)
    some (match tblGet d (fieldN c.msiptp 0 44 * 4096 + 16 * idx.1) with
      | some e => if fieldN e 0 3 = 7 then some (fieldN e 10 44 * 4096 + gpa % 4096) else none
      | none => none)
  else none

/-- First stage, then the MSI page table or the second stage. -/
def twoStage (d : Device) (c : DevCtx) (va : Nat) (wr : Bool) : Option (Nat × List (Nat × Nat)) :=
  let finish := fun gpa up =>
    match msiMap d c gpa with
    | some (some pa) => some (pa, up)
    | some none => none
    | none => (stage2 d c gpa wr).map fun r => (r.1, up ++ r.2)
  let n := modeLevels (fieldN c.fsc 60 4)
  if fieldN c.fsc 60 4 = 0 then finish va []
  else if n = 0 then none
  else
    let top := va / 2 ^ (11 + 9 * n)
    if top != 0 && top != 2 ^ (53 - 9 * n) - 1 then none
    else
      let get := fun g => match stage2 d c g false with
        | some (pa, _) => tblGet d pa
        | none => none
      match ptWalk get va false n (fieldN c.fsc 0 44 * 4096) with
      | none => none
      | some (p, e, l) =>
        match leafAllows e wr (fieldN c.tc 8 1 == 1) with
        | none => none
        | some e' =>
          let up := if e' = e then [] else
            match stage2 d c p true with
            | some (pa, _) => [(pa, e')]
            | none => []
          finish (leafAddr e l va) up

/-- The device ID of requests on behalf of a partition (R378). -/
def devOf (p : Part) : Nat := 0x10000 + p.val

/-- The first-stage root of a process, found in a directory of `n` more levels at a guest physical address (R379). -/
def pdtGo (d : Device) (c : DevCtx) (pid : Nat) : Nat → Nat → Option Nat
  | 0, gpa =>
    match stage2 d c (gpa + 16 * fieldN pid 0 8) false with
    | some (a, _) =>
      (match tblGet d a, tblGet d (a + 8) with
       | some ta, some fsc => if fieldN ta 0 1 = 1 then some fsc else none
       | _, _ => none)
    | none => none
  | n + 1, gpa =>
    match stage2 d c (gpa + 8 * fieldN pid (8 + 9 * n) 9) false with
    | some (a, _) =>
      (match tblGet d a with
       | some e => if fieldN e 0 1 = 1 then pdtGo d c pid n (fieldN e 10 44 * 4096) else none
       | none => none)
    | none => none

/-- The context of a request: with a process directory its first stage is that of the PASID, that of process 0, or none;
a PASID without one is not allowed. -/
def procCtx (d : Device) (c : DevCtx) (pasid : Option Nat) : Option DevCtx :=
  let mode := fieldN c.fsc 60 4
  if fieldN c.tc 5 1 = 0 then (if pasid.isSome then none else some c)
  else match (match pasid with | some k => some k | none => if fieldN c.tc 9 1 = 1 then some 0 else none) with
    | none => some { c with fsc := 0 }
    | some k =>
      if mode = 0 then some { c with fsc := 0 }
      else if decide (3 < mode) || decide (2 ^ ([8, 17, 20].getD (mode - 1) 0) ≤ k) then none
      else (pdtGo d c k (mode - 1) (fieldN c.fsc 0 44 * 4096)).map fun f => { c with fsc := f }

/-- The context of a device, where the directory has one. -/
def devCtx (d : Device) (dev : Nat) : Option DevCtx :=
  let m := regF d IOM_DDTP 0 4
  if m < 2 || decide (4 < m) || decide (2 ^ (6 + 9 * (m - 2)) ≤ dev) then none
  else ddtGo d dev (m - 2) (regF d IOM_DDTP 10 44 * 4096)

/-- Translates an address of a device and PASID: the physical address and the leaves to update. -/
def xlatFor (d : Device) (dev : Nat) (pasid : Option Nat) (va : Nat) (wr : Bool) : Option (Nat × List (Nat × Nat)) :=
  if regF d IOM_DDTP 0 4 = 1 then some (va, [])
  else match devCtx d dev with
    | none => none
    | some c =>
      match procCtx d c pasid with
      | none => none
      | some c => twoStage d c va wr

/-- Translates an I/O virtual address of a device: the physical address and the leaves to update. -/
def xlatPure (d : Device) (dev va : Nat) (wr : Bool) : Option (Nat × List (Nat × Nat)) := xlatFor d dev none va wr

/-- Writes back leaves whose A and D bits changed. -/
def leafUpdate (d : Device) (l : List (Nat × Nat)) : Device :=
  l.foldl (fun d u => cohWrite d u.1 8 u.2 0 1) d

/-! ### Interrupt files (R376, R377) -/

/-- The hart and file of an interrupt-file page. -/
def fileOf (a : Nat) : Option (Hart × Nat) :=
  if decide (0xe000000000000 ≤ a) && decide (a < 0xe000000080000) then
    some (⟨(a - 0xe000000000000) / 0x1000 % 128, Nat.mod_lt _ (by omega)⟩, 0)
  else if decide (0xe000001000000 ≤ a) && decide (a < 0xe000001400000) then
    some (⟨(a - 0xe000001000000) / 0x8000 % 128, Nat.mod_lt _ (by omega)⟩, 1 + (a - 0xe000001000000) % 0x8000 / 0x1000)
  else none

/-- The empty interrupt file. -/
def noFile : IntFile := ⟨[], [], false⟩

/-- The identity that a 4-byte write at an offset of a file's page names: little endian at 0, big endian at 4. -/
def msiIdent (off : Nat) (v : BitVec 32) : Nat :=
  if off = 0 then v.toNat
  else if off = 4 then ofBytes (bytesOf v.toNat 4).reverse
  else 0

/-- A write of an interrupt-file page records an identity at once, in any idle state; a hart out of service
discards it (R375, R377). -/
def msiWrite (d : Device) (a : Nat) (v : BitVec 32) : Device :=
  match fileOf a with
  | none => d
  | some (h, f) =>
    let id := msiIdent (a % 4096) v
    if d.harts[h].held || id = 0 || decide (2047 < id) then d
    else updHart d h fun s =>
      let x := sget s.files f noFile
      { s with files := sput s.files f { x with pending := insertNat x.pending id } }

/-- A 4-byte message write at a physical address: an interrupt file takes it as an MSI, main memory as a store. -/
def busWrite4 (d : Device) (a : Nat) (v : BitVec 32) (p : Part) : Device :=
  if inMain d a then cohWrite d a 4 v.toNat p 1 else msiWrite d a v

/-! ### Fault queue (R380) -/

/-- Sends the IOMMU's own interrupt of a vector field of icvec. -/
def iommuMsi (d : Device) (vecLo : Nat) : Device :=
  let k := regF d IOM_ICVEC vecLo 4
  if regF d (IOM_MSI (2 * k + 1)) 32 1 = 1 then d
  else busWrite4 d (regF d (IOM_MSI (2 * k)) 2 54 * 4) (BitVec.ofNat 32 (regF d (IOM_MSI (2 * k + 1)) 0 32)) 0

/-- Records a fault of a transaction type with its device ID, PASID and address in the fault queue. -/
def ioFaultAs (d : Device) (dev : Nat) (pasid : Option Nat) (va cause ttyp : Nat) : Device :=
  if regF d IOM_CSR 48 1 = 0 then d
  else
    let size := 2 ^ (regF d IOM_FQB 0 5 + 1)
    let head := regF d IOM_FQ 0 32
    let tail := regF d IOM_FQ 32 32
    if (tail + 1) % size = head then setReg d IOM_CSR 41 1 1
    else
      let a := regF d IOM_FQB 10 44 * 4096 + 32 * tail
      let pid := match pasid with | some k => k * 2 ^ 12 + 2 ^ 32 | none => 0
      let w0 := cause + pid + ttyp * 2 ^ 34 + dev * 2 ^ 40
      let d := cohWrite d a 32 (w0 + va * 2 ^ 128) 0 1
      let d := setReg d IOM_FQ 32 32 ((tail + 1) % size)
      if regF d IOM_CSR 33 1 = 1 then iommuMsi (setReg d IOM_PQCSR 33 1 1) 4 else d

/-- Records a fault of an untranslated read or write with its device ID and address. -/
def ioFault (d : Device) (dev va cause : Nat) (wr : Bool) : Device :=
  ioFaultAs d dev none va cause (if wr then 3 else 2)

/-- Translates an address for a device and PASID; a fault is recorded (R380). -/
def xlatReq (d : Device) (dev : Nat) (pasid : Option Nat) (va : Nat) (wr : Bool) : Option Nat × Device :=
  match xlatFor d dev pasid va wr with
  | some (pa, up) => (some pa, leafUpdate d up)
  | none => (none, ioFaultAs d dev pasid va (if regF d IOM_DDTP 0 4 = 0 then 256 else if wr then 15 else 13)
      (if wr then 3 else 2))

/-- Translates an address for a device; a fault is recorded (R380). -/
def xlatDev (d : Device) (dev va : Nat) (wr : Bool) : Option Nat × Device := xlatReq d dev none va wr

/-- Translates an address of partition `p`. -/
def xlat (d : Device) (p : Part) (va : Nat) (wr : Bool) : Option Nat × Device := xlatDev d (devOf p) va wr

/-- Translates an access to main memory of partition `p`; a target outside main memory faults too (R373). -/
def xlatMem (d : Device) (p : Part) (va : Nat) (wr : Bool) : Option Nat × Device :=
  match xlat d p va wr with
  | (some pa, d') => if inMain d' pa then (some pa, d') else (none, ioFault d' (devOf p) va (if wr then 7 else 5) wr)
  | r => r

/-! ### Reading and writing a partition's memory by I/O virtual address -/

def ioReadGo (d : Device) (p : Part) (va n cls : Nat) : Nat → (Option Nat × Bool) × Device
  | 0 => ((some 0, false), d)
  | k + 1 =>
    if n = 0 then ((some 0, false), d)
    else
      let c := min n (4096 - va % 4096)
      match xlatMem d p va false with
      | (none, d') => ((none, false), d')
      | (some pa, d') =>
        let v := memRead d' pa c ⟨cls, p, false⟩
        match ioReadGo v.2 p (va + c) (n - c) cls k with
        | ((some r, q), d'') => ((some (v.1.1 + 2 ^ (8 * c) * r), v.1.2 || q), d'')
        | ((none, q), d'') => ((none, q), d'')

/-- `n` bytes at an I/O virtual address of partition `p`, read in a class: the value, none on a fault, and whether any
line of it is poisoned. -/
def ioRead (d : Device) (p : Part) (va n cls : Nat) : (Option Nat × Bool) × Device :=
  ioReadGo d p va n cls (n / 4096 + 2)

def ioWriteGo (d : Device) (p : Part) (va n v : Nat) : Nat → Bool × Device
  | 0 => (true, d)
  | k + 1 =>
    if n = 0 then (true, d)
    else
      let c := min n (4096 - va % 4096)
      match xlatMem d p va true with
      | (none, d') => (false, d')
      | (some pa, d') => ioWriteGo (cohWrite d' pa c (v % 2 ^ (8 * c)) p 1) p (va + c) (n - c) (v / 2 ^ (8 * c)) k

/-- Writes `n` bytes at an I/O virtual address of partition `p`; false when a page faults, with the pages before it
written. -/
def ioWrite (d : Device) (p : Part) (va n v : Nat) : Bool × Device :=
  ioWriteGo d p va n v (n / 4096 + 2)

/-- An MSI of partition `p` at an I/O virtual address: performed where it translates to an interrupt file or to main
memory, otherwise lost (R280, R380). -/
def ioMsi (d : Device) (p : Part) (va : Nat) (v : BitVec 32) : Device :=
  match xlat d p va true with
  | (some pa, d') => busWrite4 d' pa v p
  | (none, d') => d'

end Sys2Proof.Machine
end

