-- ==== Sys2Proof/Machine/Caches.lean ====
section
/-! DEFINITION. The engine's L1, the mezzanine with its victim buffer, and the gallery's requests: fills,
write-backs, maintenance, discards and parity (R314 to R332, R336, R340, R341, R575, R576). -/

namespace Sys2Proof.Machine

open Sys2Proof

/-! ### Tables by set and way -/

def l1Key (a w : Nat) : Nat := a / 64 % 128 * 4 + w

def l1FindFrom (l : Sparse L1Line) (a : Nat) : Nat → Option (Nat × L1Line)
  | 0 => none
  | w + 1 =>
    match sfind l (l1Key a w) with
    | some x => if x.tag = a then some (l1Key a w, x) else l1FindFrom l a w
    | none => l1FindFrom l a w

/-- The L1 line that holds a line address. -/
def l1Find (x : Engine) (a : Nat) : Option (Nat × L1Line) := l1FindFrom x.l1 a 4

/-- A 256-byte mezzanine line address, and the sector of an address. -/
def mezBase (a : Nat) : Nat := a / 256 * 256
def mezSec (a : Nat) : Fin 4 := ⟨a / 64 % 4, Nat.mod_lt _ (by omega)⟩
def mezKey (a w : Nat) : Nat := a / 256 % 256 * 16 + w

def mezFindFrom (l : Sparse MezLine) (a : Nat) : Nat → Option (Nat × MezLine)
  | 0 => none
  | w + 1 =>
    match sfind l (mezKey a w) with
    | some x => if x.tag = mezBase a then some (mezKey a w, x) else mezFindFrom l a w
    | none => mezFindFrom l a w

/-- The mezzanine line that holds an address. -/
def mezFind (m : Mez) (a : Nat) : Option (Nat × MezLine) := mezFindFrom m.lines a 16

/-- Age list of the ways of a set. -/
def waysOf (n : Nat) (age : Nat → Option Nat) : List (Nat × Option Nat) :=
  (List.range n).map fun w => (w, age w)

def updMez (d : Device) (t : Tile) (f : Mez → Mez) : Device :=
  { d with mez := d.mez.set t.val (f d.mez[t]) }

/-- Engine `k` of a square (R13). -/
def engAt (t : Tile) (k : Fin 4) : Eng := ⟨4 * t.val + k.val, by omega⟩

/-- An empty sector and an empty line. -/
def noSector : MezSector := ⟨false, false, false, 0, 0, false⟩
def noSectors : Vector MezSector 4 := Vector.replicate 4 noSector

/-- The partition an engine works for. -/
def partOf (x : Engine) : Part := x.owner.getD 0

/-! ### Errors and their charges (R332, R334) -/

/-- A dirty error is counted and charged to an engine. -/
def chargeDirty (d : Device) (e : Eng) : Device :=
  let r := MEZ_L1ERR (e.val / 4) (e.val % 4)
  let d := incRegSat d r 32 16
  let d := setReg d r 48 2 (min 3 (regF d r 48 2 + 1))
  updEng d e fun x => { x with dirty24 := x.dirty24 + 1 }

/-- A marked line is read out: the replay that its error leads to is an injected event (R524). -/
def markReplay (d : Device) (e : Eng) (a : Nat) : Device :=
  match takeMark d.ras.marks 0x01 e.val a with
  | some r => { d with ras := { d.ras with marks := r ++ [⟨0x01, e.val, 0, 1⟩] } }
  | none => d

/-- An L1 line found with a parity error: invalidated, counted, and a dirty one reported (R332). -/
def l1Error (d : Device) (e : Eng) (k : Nat) (l : L1Line) : Device :=
  let d := markReplay d e l.tag
  let d := updEng d e fun x => { x with l1 := sdel x.l1 k }
  let r := MEZ_L1ERR (e.val / 4) (e.val % 4)
  if l.dirty then
    let d := setReg d r 1 1 1
    updEng (chargeDirty d e) e fun x => raiseError x ⟨.errL1Parity, BitVec.ofNat 64 l.tag⟩
  else incRegSat (setReg d r 0 1 1) r 16 16

/-- The line's parity is checked where an access finds it. -/
def l1Check (d : Device) (e : Eng) (a : Nat) : Device :=
  match l1Find d.engines[e] a with
  | some (k, l) => if l.bad then l1Error d e k l else d
  | none => d

/-- A mezzanine sector found with a parity error (R332). -/
def mezError (d : Device) (t : Tile) (k : Nat) (l : MezLine) (j : Fin 4) : Device :=
  let d := updMez d t fun m => { m with lines := sput m.lines k { l with sec := l.sec.set j.val noSector } }
  let r := MEZ_ERR t.val
  if l.sec[j].dirty then
    let d := incRegSat (setReg d r 1 1 1) r 32 16
    let e := engAt t l.sec[j].writer
    updEng (chargeDirty d e) e fun x => raiseError x ⟨.errMezParity, BitVec.ofNat 64 (l.tag + 64 * j.val)⟩
  else incRegSat (setReg d r 0 1 1) r 16 16

/-- The sector's parity is checked where an access finds it. -/
def mezCheck (d : Device) (t : Tile) (a : Nat) : Device :=
  match mezFind d.mez[t] a with
  | some (k, l) => if l.sec[mezSec a].bad then mezError d t k l (mezSec a) else d
  | none => d

/-! ### Mezzanine -/

/-- A sector that a discard under way drops instead of writing it back (R329). -/
def doomed (d : Device) (t : Tile) (s : MezSector) : Bool :=
  s.t && d.engines[engAt t s.writer].discard

/-- Dirty sectors of a line that must reach their home slices. -/
def liveSectors (d : Device) (t : Tile) (sec : Vector MezSector 4) : Vector MezSector 4 :=
  sec.map fun s => if doomed d t s || s.bad then noSector else s

def anyDirty (sec : Vector MezSector 4) : Bool := sec.any (fun s => s.valid && s.dirty)

/-- Dirty sectors that an eviction finds with parity errors (R332). -/
def evictErrors (d : Device) (t : Tile) (k : Nat) (l : MezLine) : Device :=
  [(0 : Fin 4), 1, 2, 3].foldl (fun d j =>
    if l.sec[j].bad && l.sec[j].dirty && !doomed d t l.sec[j] then mezError d t k l j else d) d

/-- Makes room for a line and allocates it with no valid sector, under `age`; none while the victim buffer is full
(R315, R322, R324). -/
def mezAlloc (d : Device) (t : Tile) (a age : Nat) : Option Device :=
  let m := d.mez[t]
  let ws := waysOf 16 fun w => (sfind m.lines (mezKey a w)).map (·.age)
  match pickVictim ws with
  | none => none
  | some (w, add) =>
    let key := mezKey a w
    let old := sfind m.lines key
    let vict := match old with
      | some l => let s := liveSectors d t l.sec
                  if anyDirty s then some (⟨l.tag, s, false⟩ : Victim) else none
      | none => none
    if vict.isSome && decide (8 ≤ m.vb.length) then none
    else
      let gone := match old with
        | some l => l.sec.toList.countP fun s => s.valid && doomed d t s
        | none => 0
      let d := match old with | some l => incReg (evictErrors d t key l) (MEZ_EVT t.val) 48 16 gone | none => d
      some (updMez d t fun m => { m with
        lines := sput (ws.foldl (fun l v => supd l (mezKey a v.1) fun x => { x with age := x.age + add }) m.lines)
          key ⟨mezBase a, age, noSectors⟩
        vb := match vict with | some v => m.vb ++ [v] | none => m.vb })

/-- Sets a sector of a line that the mezzanine holds. -/
def mezPut (d : Device) (t : Tile) (a : Nat) (s : MezSector) : Device :=
  match mezFind d.mez[t] a with
  | some (k, l) => updMez d t fun m => { m with
      lines := sput m.lines k { l with age := 0, sec := l.sec.set (mezSec a).val s } }
  | none => d

/-- A write-back merges into the victim buffer's copy of its line (R324). -/
def mergeVictim (l : List Victim) (a : Nat) (s : MezSector) : List Victim :=
  l.map fun u => if u.line = mezBase a then { u with sec := u.sec.set (mezSec a).val s } else u

/-- An L1 writes a full sector back (R320, R322, R324); none while the mezzanine cannot accept it. -/
def mezWriteBack (d : Device) (e : Eng) (a : Nat) (data : Line) (thr : Bool) : Option Device :=
  let t := tileOf e
  let s : MezSector := ⟨true, true, thr, engInTile e, data, false⟩
  let m := d.mez[t]
  if m.fill.isSome then none
  else match takeFirst (fun v => v.line == mezBase a) m.vb with
    | some (v, _) =>
      if v.started then none
      else some (updMez d t fun m => { m with vb := mergeVictim m.vb a s })
    | none =>
      match mezFind m a with
      | some _ => some (mezPut d t a s)
      | none => (mezAlloc d t a 0).map fun d => mezPut d t a s

/-- Starts a fill of every invalid sector of a line the mezzanine holds, the requested one first (R321). -/
def mezStartFill (d : Device) (e : Eng) (a : Nat) (l : MezLine) : Device :=
  let t := tileOf e
  let want := (mezSec a).val :: (List.range 4).filter fun j => j != (mezSec a).val && !(l.sec[j]?.getD noSector).valid
  let d := incReg d (MEZ_EVT t.val) 0 32 1
  let d := updMez d t fun m => { m with
    fill := some ⟨mezBase a, want, engInTile e, (mezSec a).val⟩
    lines := match mezFind m a with
      | some (k, x) => sput m.lines k { x with age := 0 }
      | none => m.lines }
  want.foldl (fun d j =>
    let pa := mezBase a + 64 * j
    updGal d (homeOf d pa) fun g => { g with reqs := g.reqs ++ [⟨t, pa, partOf d.engines[e]⟩] }) d

/-- An L1 request joins those that the mezzanine has not accepted. -/
def mezHold (d : Device) (e : Eng) : Device :=
  updMez d (tileOf e) fun m => { m with queue := m.queue ++ [engInTile e] }

/-- Answers the L1 miss of an engine. -/
def missAnswer (d : Device) (e : Eng) (r : Option Line) : Device :=
  updEng d e fun x => { x with miss := x.miss.map fun m => { m with answer := some r } }

/-- The L1 miss of engine `e` reaches its mezzanine (R321, R324). -/
def mezAsk (d : Device) (e : Eng) : Device :=
  match d.engines[e].miss with
  | none => d
  | some q =>
    let t := tileOf e
    let a := q.line
    if q.answer.isSome then d
    else if d.mez[t].fill.isSome then mezHold d e
    else match takeFirst (fun v => v.line == mezBase a) d.mez[t].vb with
      | some (v, _) =>
        if v.sec[mezSec a].valid then missAnswer (incReg d (MEZ_EVT t.val) 32 16 1) e (some v.sec[mezSec a].data)
        else mezHold d e
      | none =>
        let d := mezCheck d t a
        match mezFind d.mez[t] a with
        | some (_, l) =>
          if l.sec[mezSec a].valid then missAnswer (mezPut d t a l.sec[mezSec a]) e (some l.sec[mezSec a].data)
          else mezStartFill d e a l
        | none =>
          match mezAlloc d t a 0 with
          | some d' => mezStartFill d' e a ⟨mezBase a, 0, noSectors⟩
          | none => mezHold d e

/-- The mezzanine takes the L1 requests that waited, in order of arrival. -/
def mezServe (d : Device) (t : Tile) : Device :=
  let q := d.mez[t].queue
  q.foldl (fun d k => mezAsk d (engAt t k)) (updMez d t fun m => { m with queue := [] })

/-! ### Engine L1 -/

/-- Starts the one L1 miss in progress; while another is in progress the access waits (R318). -/
def l1Miss (d : Device) (e : Eng) (a : Nat) (ea : Dword) (load : Bool) : Device :=
  match d.engines[e].miss with
  | some m =>
    if m.line = a && load then updEng d e fun x => { x with miss := some { m with load := true, addr := ea } } else d
  | none => mezAsk (updEng d e fun x => { x with miss := some ⟨a, ea, load, none⟩ }) e

/-- Allocates an L1 line; a dirty victim is written back first, or dropped under a discard; none while the
mezzanine cannot accept it (R315, R317, R329). -/
def l1Install (d : Device) (e : Eng) (l : L1Line) : Option Device :=
  let x := d.engines[e]
  let ws := waysOf 4 fun w => (sfind x.l1 (l1Key l.tag w)).map (·.age)
  match pickVictim ws with
  | none => none
  | some (w, add) =>
    let key := l1Key l.tag w
    let place := fun d => updEng d e fun x => { x with
      l1 := sput (ws.foldl (fun m v => supd m (l1Key l.tag v.1) fun y => { y with age := y.age + add }) x.l1) key l }
    match sfind x.l1 key with
    | some v =>
      if v.dirty && !(x.discard && v.t) then
        (if v.bad then some (place (l1Error d e key v))
         else (mezWriteBack d e v.tag v.data v.t).map place)
      else some (place d)
    | none => some (place d)

/-- The data of a poisoned fill reaches a waiting load (R102, R576). -/
def poisonLoad (x : Engine) (m : L1Miss) : Engine :=
  let y := { x with miss := none }
  if m.load then raiseError y ⟨.errPoison, m.addr⟩ else y

/-- An answered miss completes: the line is installed with T = 0, or the waiting load receives the poison. -/
def fillComplete (d : Device) (e : Eng) : Device :=
  match d.engines[e].miss with
  | some m =>
    match m.answer with
    | some (some data) =>
      (match l1Install d e ⟨m.line, data, false, false, 0, false⟩ with
       | some d' => updEng d' e fun x => { x with miss := none }
       | none => d)
    | some none => updEng d e fun x => poisonLoad x m
    | none => d
  | none => d

/-! ### Discard and clean-line invalidation (R329, R330, R360) -/

/-- The L1 drops every line with T = 1. -/
def l1Discard (x : Engine) : Engine := { x with l1 := x.l1.filter fun l => !l.2.t }

/-- Sectors that engine `k` wrote in thread mode. -/
def ofWriter (k : Fin 4) (s : MezSector) : Bool := s.valid && s.t && s.writer == k

/-- The square's mezzanine and victim buffer drop the sectors of engine `e` with T = 1. -/
def mezDiscard (d : Device) (e : Eng) : Device :=
  let t := tileOf e
  let k := engInTile e
  let m := d.mez[t]
  let inLines := m.lines.foldl (fun n l => n + (l.2.sec.toList.filter (ofWriter k)).length) 0
  let open_ := m.vb.filter (fun v => !v.started)
  let inVb := open_.foldl (fun n v => n + (v.sec.toList.filter (ofWriter k)).length) 0
  let drop := fun (s : MezSector) => if ofWriter k s then noSector else s
  let d := incReg d (MEZ_EVT t.val) 48 16 (inLines + inVb)
  updMez d t fun m => { m with
    lines := m.lines.map fun l => (l.1, { l.2 with sec := l.2.sec.map drop })
    vb := (m.vb.map fun v => if v.started then v else { v with sec := v.sec.map drop }).filter
      fun v => v.started || anyDirty v.sec }

/-- The discard of an engine at a tick. -/
def startDiscard (d : Device) (e : Eng) : Device :=
  let d := updEng d e fun x => l1Discard { x with discard := true, sb := x.sb.map fun b => { b with old := true } }
  mezDiscard d e

/-- The dirty sectors of a line. -/
def dirtySectors (sec : Vector MezSector 4) : Vector MezSector 4 := sec.map fun s => if s.dirty then s else noSector

/-- A sector that a fill had been answered with before an invalidation is asked for again at its slice. -/
def askAgain (d : Device) (t : Tile) (p : Part) (pa : Nat) : Device :=
  updGal d (homeOf d pa) fun g => { g with reqs := g.reqs ++ [⟨t, pa, p⟩] }

/-- Clean L1 lines and clean sectors of the square's mezzanine and victim buffer are invalidated, and what a slice has
answered before is asked for again, so that no fill brings a value from before the tick (R360, R361). -/
def invalidateClean (d : Device) (e : Eng) : Device :=
  let t := tileOf e
  let d := updEng d e fun x => { x with
    l1 := x.l1.filter fun l => l.2.dirty, miss := x.miss.map fun m => { m with answer := none } }
  let old := d.mez[t].answers
  let p := match d.mez[t].fill with
    | some f => partOf d.engines[engAt t f.eng]
    | none => partOf d.engines[e]
  let filling := match d.mez[t].fill with
    | some f => f.eng == engInTile e && f.waitFor.contains f.sector
    | none => false
  let waits := d.engines[e].miss.isSome && !filling && !d.mez[t].queue.contains (engInTile e)
  let d := updMez d t fun m => { m with
    answers := []
    queue := if waits then m.queue ++ [engInTile e] else m.queue
    lines := m.lines.map fun l => (l.1, { l.2 with sec := dirtySectors l.2.sec })
    vb := m.vb.map fun v => { v with sec := dirtySectors v.sec } }
  mezServe (old.foldl (fun d r => askAgain d t p r.1) d) t

/-! ### Maintenance (R325 to R328) -/

/-- Invalidates a mezzanine line, or all its sectors while it is listed. -/
def mezDrop (d : Device) (t : Tile) (k : Nat) : Device :=
  updMez d t fun m => { m with lines := sdel m.lines k }

/-- A clean page of the window that a waiting writer wants (R435). -/
def wantPage (d : Device) (a : Nat) : Device :=
  match winPage d a with
  | some p => if d.hup.clean.contains p then { d with hup := { d.hup with wants := insertNat d.hup.wants p } } else d
  | none => d

/-- Writes the dirty sectors of a mezzanine line to their home slices; none while a slice holds one of them. -/
def mezClean (d : Device) (t : Tile) (k : Nat) (l : MezLine) : Option Device :=
  let js := [(0 : Fin 4), 1, 2, 3].filter fun j => l.sec[j].valid && l.sec[j].dirty
  if js.any fun j => winHolds d (l.tag + 64 * j.val) then none
  else
    let d := js.foldl (fun d j =>
      lineWrite d (l.tag + 64 * j.val) l.sec[j].data (BitVec.allOnes 64) (partOf d.engines[engAt t l.sec[j].writer]) true 2) d
    some (updMez d t fun m => { m with
      lines := sput m.lines k { l with sec := l.sec.map fun s => { s with dirty := false, t := false } } })

/-- One operation on an L1 line; none while it must wait. -/
def maintL1 (d : Device) (e : Eng) (clean inv : Bool) (k : Nat) : Option Device :=
  match sfind d.engines[e].l1 k with
  | none => some d
  | some l =>
    if l.bad then some (l1Error d e k l)
    else
      let step1 := if clean && l.dirty then
          (mezWriteBack d e l.tag l.data l.t).map fun d =>
            updEng d e fun x => { x with l1 := sput x.l1 k { l with dirty := false } }
        else some d
      step1.map fun d => if inv then updEng d e fun x => { x with l1 := sdel x.l1 k } else d

/-- One operation on a mezzanine line; none while it must wait: for a clean page of the window, which is then noted,
or, its data written, for the clean of the page (R441). -/
def maintMez (d : Device) (t : Tile) (clean inv : Bool) (k : Nat) : Option Device × Device :=
  match sfind d.mez[t].lines k with
  | none => (some d, d)
  | some l0 =>
    let d := [(0 : Fin 4), 1, 2, 3].foldl (fun d j =>
      match sfind d.mez[t].lines k with
      | some l => if l.sec[j].bad then mezError d t k l j else d
      | none => d) d
    let l := (sfind d.mez[t].lines k).getD l0
    let bad := l0.sec.any fun s => s.bad
    let step1 := if clean then mezClean d t k l else some d
    match step1 with
    | some d' =>
      if clean && winStrict d' l.tag then (none, d') else (some (if inv || bad then mezDrop d' t k else d'), d)
    | none => (none, [(0 : Fin 4), 1, 2, 3].foldl (fun d j => wantPage d (l.tag + 64 * j.val)) d)

/-- Whether a maintenance operation waits for its line (R328). -/
def maintWaits (d : Device) (e : Eng) (a : Nat) (mez : Bool) : Bool :=
  if mez then
    (match d.mez[tileOf e].fill with | some f => f.line == mezBase a | none => false) ||
      d.mez[tileOf e].vb.any fun v => v.line == mezBase a
  else match d.engines[e].miss with
    | some m => m.line == a
    | none => false

/-- The key of the way that holds a line at one level. -/
def lineKey (d : Device) (e : Eng) (mez : Bool) (a : Nat) : Option Nat :=
  if mez then (match mezFind d.mez[tileOf e] a with | some r => some r.1 | none => none)
  else match l1Find d.engines[e] a with
    | some r => some r.1
    | none => none

/-- A maintenance entry at the head of the store buffer: the device, and whether the entry is complete. -/
def maintain (d : Device) (e : Eng) (clean inv mez : Bool) (k : Option Nat) (a : Nat) : Device × Bool :=
  if maintWaits d e a mez then (d, false)
  else match k with
    | none => (d, true)
    | some k =>
      if mez then
        (match maintMez d (tileOf e) clean inv k with
         | (some d', _) => (d', true)
         | (none, d') => (d', false))
      else match maintL1 d e clean inv k with
        | some d' => (d', true)
        | none => (d, false)

/-! ### Store buffer (R76 to R79, R317, R319) -/

/-- A store drains into a line that L1 holds. -/
def l1Store (x : Engine) (k : Nat) (l : L1Line) (data : Line) (en : BitVec 64) (thr : Bool) : Engine :=
  { x with l1 := sput x.l1 k { l with
      data := lineMerge l.data data en, dirty := true, t := l.t || thr, age := 0 } }

/-- A line that has just become dirty takes an armed injection (R524). -/
def armLine (d : Device) (e : Eng) (a : Nat) (was : Bool) : Device :=
  if was then d
  else
    let r := takeArmed d 0x01 e.val a
    if r.1 then updEng r.2 e fun x =>
      match l1Find x a with
      | some (k, l) => { x with l1 := sput x.l1 k { l with bad := true } }
      | none => x
    else d

/-- A store at the head of the store buffer: the device, and whether the entry has drained. -/
def drainStore (d : Device) (e : Eng) (b : SbEntry) (data : Line) (en : BitVec 64) : Device × Bool :=
  let d := l1Check d e b.line
  match l1Find d.engines[e] b.line with
  | some (k, l) => (armLine (updEng d e fun x => l1Store x k l data en b.thread) e b.line l.dirty, true)
  | none =>
    if d.engines[e].miss.any fun m => m.line == b.line then (d, false)
    else if fullLine en then
      (match l1Install d e ⟨b.line, data, true, b.thread, 0, false⟩ with
       | some d' => (armLine d' e b.line false, true)
       | none => (d, false))
    else (l1Miss d e b.line 0 false, false)

/-- The oldest entry drains. -/
def drainHead (d : Device) (e : Eng) : Device :=
  match d.engines[e].sb with
  | [] => d
  | b :: rest =>
    let r := match b.kind with
      | .store data en => drainStore d e b data en
      | .maintAddr clean inv mez => maintain d e clean inv mez (lineKey d e mez b.line) b.line
      | .maintWay clean inv mez set way =>
        let k := if mez then set * 16 + way else set * 4 + way
        let a := if mez then (match sfind d.mez[tileOf e].lines k with | some l => l.tag | none => 1)
                 else (match sfind d.engines[e].l1 k with | some l => l.tag | none => 1)
        maintain d e clean inv mez (some k) a
    if r.2 then
      updEng r.1 e fun x =>
        let y := { x with sb := rest }
        if y.discard then l1Discard y else y
    else r.1

/-- STORE_BUFFER_DRAIN (R77, R79, R317, R325, R327). -/
def execStoreBufferDrain (e : Eng) (s : State) : Host.Outcome State Fault Refusal :=
  act (whenRun fun d => drainHead d e) s

/-- DISCARD_END (R329): no thread-mode entry from before the tick remains. -/
def execDiscardEnd (e : Eng) (s : State) : Host.Outcome State Fault Refusal :=
  act (whenRun fun d => updEng d e fun x =>
    if x.sb.any fun b => b.thread && b.old then x
    else { x with discard := false, sb := x.sb.map fun b => { b with old := false } }) s

/-- L1_FILL_COMPLETE (R318, R102, R576). -/
def execL1FillComplete (e : Eng) (s : State) : Host.Outcome State Fault Refusal :=
  act (whenRun fun d => fillComplete d e) s

/-- A sector of the fill arrives (R321, R576). -/
def sectorArrives (d : Device) (t : Tile) (pa : Nat) : Device :=
  match takeFirst (fun r => r.1 == pa) d.mez[t].answers with
  | none => d
  | some (r, rest) =>
    let d := updMez d t fun m => { m with answers := rest }
    match d.mez[t].fill with
    | none => d
    | some f =>
      let j := mezSec pa
      if f.line != mezBase pa || !f.waitFor.contains j.val then d
      else
        let d := match r.2 with
          | some data => (match mezFind d.mez[t] pa with
              | some (k, l) => updMez d t fun m => { m with
                  lines := sput m.lines k { l with sec := l.sec.set j.val ⟨true, false, false, 0, data, false⟩ } }
              | none => d)
          | none => d
        let d := if f.sector = j.val then missAnswer d (engAt t f.eng) r.2 else d
        let left := f.waitFor.filter (· != j.val)
        if left.isEmpty then mezServe (updMez d t fun m => { m with fill := none }) t
        else updMez d t fun m => { m with fill := some { f with waitFor := left } }

/-- MEZZANINE_SECTOR_ARRIVAL (R321, R576). -/
def execMezzanineSectorArrival (t : Tile) (pa : Nat) (s : State) : Host.Outcome State Fault Refusal :=
  act (whenRun fun d => sectorArrives d t pa) s

/-- Marks the first line whose write has not started. -/
def startFirst (l : List Victim) : List Victim :=
  match l with
  | [] => []
  | v :: rest => if v.started then v :: startFirst rest else { v with started := true } :: rest

/-- VICTIM_WRITE_START (R575): the writes start in the order in which the lines entered the buffer. -/
def execVictimWriteStart (t : Tile) (s : State) : Host.Outcome State Fault Refusal :=
  act (whenRun fun d => updMez d t fun m => { m with vb := startFirst m.vb }) s

/-- The home slices accept the write of the line that started; none while one of them holds it. -/
def victimAccept (d : Device) (t : Tile) : Device :=
  match d.mez[t].vb with
  | [] => d
  | v :: rest =>
    if !v.started then d
    else
      let js := [(0 : Fin 4), 1, 2, 3].filter fun j => v.sec[j].valid && v.sec[j].dirty
      if js.any fun j => winHolds d (v.line + 64 * j.val) then
        js.foldl (fun d j => wantPage d (v.line + 64 * j.val)) d
      else
        let d := js.foldl (fun d j =>
          lineWrite d (v.line + 64 * j.val) v.sec[j].data (BitVec.allOnes 64)
            (partOf d.engines[engAt t v.sec[j].writer]) true 2) d
        mezServe (updMez d t fun m => { m with vb := rest }) t

/-- VICTIM_WRITE_ACCEPT (R324, R328). -/
def execVictimWriteAccept (t : Tile) (s : State) : Host.Outcome State Fault Refusal :=
  act (whenRun fun d => victimAccept d t) s

/-! ### Gallery requests (R336, R339 to R341) -/

/-- A slice answers a mezzanine. -/
def answerMez (d : Device) (q : GalReq) (data : Option Line) : Device :=
  updMez d q.tile fun m => { m with answers := m.answers ++ [(q.addr, data)] }

/-- A miss goes to the channel; CXL memory answers at once. -/
def galMiss (d : Device) (t : Tile) (q : GalReq) : Device :=
  let d := updGal d t fun g => { g with misses := g.misses + 1 }
  if inDram d q.addr then
    updChan d (chanOf d q.addr) fun c => { c with rdq := c.rdq ++ [⟨t, q, d.cycle, false⟩] }
  else
    let l := mediaLine d q.addr
    let d := if l.2 then d else galInstall d (wayMask d t q.part.val) ⟨q.addr, l.1, false, false, 0, 2⟩ 2
    answerMez d q (if l.2 then none else some l.1)

/-- A hit with what the error check finds (R341). -/
def galHit (d : Device) (t : Tile) (q : GalReq) (k : Nat) (x : GalLine) (o : EccOutcome) : Device :=
  match galCheck d t k x 2 o with
  | (none, d) => galMiss d t q
  | (some x, d) =>
    let d := updGal d t fun g => { g with hits := g.hits + 1, lines := sput g.lines k { x with age := 0 } }
    answerMez d q (if x.poison then none else some x.data)

/-- A slice serves the first request that no pending victim of its line holds back (R340). -/
def galServe (d : Device) (t : Tile) (o : EccOutcome) : Device :=
  match takeFirst (fun q => !(d.gal[t].victims.any fun v => v.line == q.addr)) d.gal[t].reqs with
  | none => d
  | some (q, rest) =>
    let d := updGal d t fun g => { g with reqs := rest }
    match modified d q.addr with
    | some (x, p) => answerMez (updGal d t fun g => { g with hits := g.hits + 1 }) q (if p then none else some x)
    | none =>
      match galFind d.gal[t] q.addr with
      | some (k, x) => galHit d t q k x o
      | none => galMiss d t q

/-- GALLERY_REQUEST (R336, R339, R341). -/
def execGalleryRequest (t : Tile) (o : EccOutcome) (s : State) : Host.Outcome State Fault Refusal :=
  act (whenRun fun d => galServe d t o) s

/-- Whether a write finds room in the queue of its channel, with its mirror partner's write where there is one (R391,
R393). -/
def roomFor (d : Device) (a : Nat) : Bool :=
  !inDram d a ||
    decide (d.chans[chanOf d a].wrq.length + (if (partnerOf d a).isSome then 2 else 1) ≤ 64)

/-- GALLERY_VICTIM_WRITEBACK (R340, R391 to R393): the channel accepts the oldest dirty victim in the class of what
displaced it, once it fits its queue. -/
def execGalleryVictimWriteback (t : Tile) (s : State) : Host.Outcome State Fault Refusal :=
  act (whenRun fun d =>
    match d.gal[t].victims with
    | [] => d
    | v :: _ =>
      if !roomFor d v.line then d
      else
        let d := updGal d t fun g => { g with victims := g.victims.tail }
        chanWrite d v.line v.data (BitVec.allOnes 64) v.poison v.cls) s

end Sys2Proof.Machine
end

