-- ==== Sys2Proof/Machine/Operands.lean ====
section
/-! DEFINITION. Operand forms of Sirto instructions: immediates, lanes, pairs, second operands, active lanes, and the
bit counts (R95, R121 to R126). -/

namespace Sys2Proof.Machine

open Sys2Proof

/-! ### Bits -/

/-- Number of indices below `n` at which `f` holds. -/
def countBits (f : Nat → Bool) : Nat → Nat
  | 0 => 0
  | n + 1 => countBits f n + (if f n then 1 else 0)

/-- The lowest index from `i` on, within `n` steps, at which `f` holds; `i + n` where there is none. -/
def firstBit (f : Nat → Bool) (i : Nat) : Nat → Nat
  | 0 => i
  | n + 1 => if f i then i else firstBit f (i + 1) n

/-- Number of 1 bits. -/
def popCount {w : Nat} (v : BitVec w) : Nat := countBits v.getLsbD w
/-- Number of trailing 0 bits, the width for 0. -/
def trailingZeros {w : Nat} (v : BitVec w) : Nat := firstBit v.getLsbD 0 w
/-- Number of leading 0 bits, the width for 0. -/
def leadingZeros {w : Nat} (v : BitVec w) : Nat := firstBit v.getMsbD 0 w

/-- The 16-bit mask whose bit `i` is `f i`. -/
def maskAux (f : Nat → Bool) : Nat → Mask
  | 0 => 0
  | n + 1 => maskAux f n ||| (if f n then BitVec.ofNat 16 (2 ^ n) else 0)

def maskOf (f : Nat → Bool) : Mask := maskAux f 16

/-! ### Signed and unsigned choice, and products -/

def smin {w : Nat} (a b : BitVec w) : BitVec w := if b.slt a then b else a
def smax {w : Nat} (a b : BitVec w) : BitVec w := if a.slt b then b else a
def umin {w : Nat} (a b : BitVec w) : BitVec w := if b < a then b else a
def umax {w : Nat} (a b : BitVec w) : BitVec w := if a < b then b else a

/-- Bits [2w − 1 : w] of the signed product. -/
def mulHigh {w : Nat} (a b : BitVec w) : BitVec w :=
  (a.signExtend (w + w) * b.signExtend (w + w)).extractLsb' w w

/-- Bits [2w − 1 : w] of the unsigned product. -/
def mulHighU {w : Nat} (a b : BitVec w) : BitVec w :=
  (a.setWidth (w + w) * b.setWidth (w + w)).extractLsb' w w

/-- A truth value as a 64-bit 0 or 1. -/
def flag64 (b : Bool) : Dword := if b then 1 else 0

/-- imm16 or off16 sign-extended (R95). -/
def sext16 (i : BitVec 16) : Dword := i.signExtend 64
/-- imm12 sign-extended. -/
def sext12 (i : BitVec 12) : Dword := i.signExtend 64

/-! ### Lanes and pairs -/

/-- Lane `i` is active when bit `i` of the governing predicate is 1. -/
def active (x : Engine) (f : VForm) (i : Nat) : Bool := (getP x f.pm).getLsbD i

/-- The vector register that src2 names when F is 0. -/
def vs2 (f : VForm) : BitVec 4 := f.src2.setWidth 4

/-- Lane `i` of a vector, 0 beyond the last. -/
def lane (v : Vector Cell 16) (i : Nat) : Cell := v[i]?.getD 0

/-- Lane `i` of the first operand. -/
def src1 (x : Engine) (f : VForm) (i : Nat) : Cell := lane (getV x f.vs1) i
/-- Lane `i` of the second operand: vs2's lane, or rs2[39:0] (R126). -/
def src2 (x : Engine) (f : VForm) (i : Nat) : Cell :=
  if f.f then (getS x f.src2).setWidth 40 else lane (getV x (vs2 f)) i

/-- Validity of the first operand's lane. -/
def ok1 (x : Engine) (f : VForm) (i : Nat) : Bool := (getVm x f.vs1).getLsbD i
/-- Validity of the second operand's lane; a scalar counts as valid (R126). -/
def ok2 (x : Engine) (f : VForm) (i : Nat) : Bool := f.f || (getVm x (vs2 f)).getLsbD i

/-- Pair `k` of a vector: the odd lane holds the upper half (R121). -/
def pairOf (c : Vector Cell 16) (k : Nat) : Wide := lane c (2 * k + 1) ++ lane c (2 * k)
/-- Pair `k` is valid when both its lanes are (R122). -/
def pairOk (m : Mask) (k : Nat) : Bool := m.getLsbD (2 * k) && m.getLsbD (2 * k + 1)

def psrc1 (x : Engine) (f : VForm) (k : Nat) : Wide := pairOf (getV x f.vs1) k
/-- Pair `k` of the second operand: a scalar is sign-extended to 80 bits (R126). -/
def psrc2 (x : Engine) (f : VForm) (k : Nat) : Wide :=
  if f.f then (getS x f.src2).signExtend 80 else pairOf (getV x (vs2 f)) k
def pok1 (x : Engine) (f : VForm) (k : Nat) : Bool := pairOk (getVm x f.vs1) k
def pok2 (x : Engine) (f : VForm) (k : Nat) : Bool := f.f || pairOk (getVm x (vs2 f)) k

/-- Writes the lanes that `w` selects with values and validity; the other lanes keep theirs (R123). -/
def putLanes (x : Engine) (vd : BitVec 4) (w : Nat → Bool) (val : Nat → Cell) (ok : Nat → Bool) : Engine :=
  let old := getV x vd
  let oldM := getVm x vd
  setV x vd (Vector.ofFn fun i => if w i.val then val i.val else old[i])
    (maskOf fun i => if w i then ok i else oldM.getLsbD i)

/-- Half of a pair by lane number. -/
def half (v : Wide) (i : Nat) : Cell := if i % 2 = 0 then v.setWidth 40 else v.extractLsb' 40 40

/-- Writes the pairs that `w` selects: both lanes and both validity bits (R122). -/
def putPairs (x : Engine) (vd : BitVec 4) (w : Nat → Bool) (val : Nat → Wide) (ok : Nat → Bool) : Engine :=
  putLanes x vd (fun i => w (i / 2)) (fun i => half (val (i / 2)) i) (fun i => ok (i / 2))

/-- Pair `k` is written when bit 2k of the governing predicate is 1 (R122). -/
def pairActive (x : Engine) (f : VForm) (k : Nat) : Bool := active x f (2 * k)

end Sys2Proof.Machine
end

