-- ==== Sys2Proof/Machine/LoadStore.lean ====
section
/-! DEFINITION. Loads and stores of an engine (R53, R55, R61, R66, R76 to R82, R101, R102). -/

namespace Sys2Proof.Machine

open Sys2Proof

/-- The spaces of R53 that an access can use. -/
inductive Space where
  | landing
  | code
  | memory
  deriving DecidableEq, Repr

/-- The space that an access of `n` bytes lies in wholly; none where any byte lies in a faulting range (R53). -/
def spaceOf (a n : Nat) : Option Space :=
  if a + n ≤ 0x40000 then some .landing
  else if decide (0x100000 ≤ a) && decide (a + n ≤ 0x110000) then some .code
  else if decide (2 ^ 48 ≤ a) && decide (a + n ≤ 2 ^ 49) then some .memory
  else none

/-- Whether a landing access is barred from thread mode (R55). -/
def kernelArea (x : Engine) (a n : Nat) : Bool := x.mode == .thread && decide (0x3e000 < a + n)

/-- The alignment of a memory-space access: its size rounded up to a power of two, at most 64 (R80). -/
def memAlign (n : Nat) : Nat := min 64 (2 ^ log2Ceil n)

/-- The space and alignment checks of a load: a cause, or the space (R53, R55, R80). -/
def loadCheck (x : Engine) (ea n : Nat) : Cause ⊕ Space :=
  match spaceOf ea n with
  | none => .inl .accSpace
  | some .landing => if kernelArea x ea n then .inl .accKernel else .inr .landing
  | some .code => .inr .code
  | some .memory => if ea % memAlign n = 0 then .inr .memory else .inl .align

/-- The checks of a store; R61 gives their order for the code-store window. -/
def storeCheck (x : Engine) (ea n : Nat) : Cause ⊕ Space :=
  match spaceOf ea n with
  | none => .inl .accSpace
  | some .landing => if kernelArea x ea n then .inl .accKernel else .inr .landing
  | some .code =>
    if ea < 0x102000 then .inl .accCodeWrite
    else if n != 4 && n != 8 then .inl .accSpace
    else if ea % n = 0 then .inr .code else .inl .align
  | some .memory => if ea % memAlign n = 0 then .inr .memory else .inl .align

/-! ### Code-store window -/

/-- A byte of the code store. -/
def codeByte (x : Engine) (off : Nat) : Byte := (codeWord x (off / 4)).extractLsb' (8 * (off % 4)) 8

/-- Writes a word of the code store: its parity is good, and until an IFLUSH a fetch may still take the old word
(R61, R63). -/
def codePut (x : Engine) (k : Nat) (w : InstrWord) : Engine :=
  { x with
    code := sput x.code k w
    codeBad := x.codeBad.filter (· != k)
    stale := if (sfind x.stale k).isSome then x.stale else sput x.stale k (codeWord x k) }

/-- A 4- or 8-byte store to the window. -/
def codeStore (x : Engine) (off n : Nat) (v : Nat) : Engine :=
  let y := codePut x (off / 4) (BitVec.ofNat 32 v)
  if n = 8 then codePut y (off / 4 + 1) (BitVec.ofNat 32 (v / 2 ^ 32)) else y

/-! ### Memory space -/

/-- Bytes that an entry stores in a line. -/
def sbBytes (b : SbEntry) (line : Nat) : BitVec 64 :=
  match b.kind with
  | .store _ en => if b.line = line then en else 0
  | _ => 0

/-- What the store buffer answers a load (R78): nothing overlaps, the data of the youngest overlapping entry, or a
wait. -/
inductive Forward where
  | clear
  | data (v : Nat)
  | wait
  deriving DecidableEq, Repr

def forwarding (sb : List SbEntry) (pa n : Nat) : Forward :=
  let need := enables (pa % 64) n
  match takeFirst (fun b => sbBytes b (lineOf pa) &&& need != 0) sb.reverse with
  | none => .clear
  | some (b, _) =>
    match b.kind with
    | .store data en => if en &&& need = need then .data (lineRead data (pa % 64) n) else .wait
    | _ => .wait

/-- A load from memory space after its checks: the value once the load completes (R54, R78, R316, R318). -/
def loadMem (d : Device) (e : Eng) (ea : Dword) (n : Nat) : Option Nat × Device :=
  let va := ea.toNat % 2 ^ 48
  match xlatMem d (partOf d.engines[e]) va false with
  | (none, d) => (none, updEng d e fun x => note x .accIommu ea)
  | (some pa, d) =>
    match forwarding d.engines[e].sb pa n with
    | .data v => (some v, d)
    | .wait => (none, d)
    | .clear =>
      let d := l1Check d e (lineOf pa)
      match l1Find d.engines[e] (lineOf pa) with
      | some (k, l) =>
        (some (lineRead l.data (pa % 64) n), updEng d e fun x => { x with l1 := sput x.l1 k { l with age := 0 } })
      | none => (none, l1Miss d e (lineOf pa) ea true)

/-- A store to memory space after its checks takes one entry of the store buffer, or waits for it (R76, R77). -/
def storeMem (d : Device) (e : Eng) (ea : Dword) (n v : Nat) : Bool × Device :=
  let va := ea.toNat % 2 ^ 48
  match xlatMem d (partOf d.engines[e]) va true with
  | (none, d) => (false, updEng d e fun x => note x .accIommu ea)
  | (some pa, d) =>
    if 4 ≤ d.engines[e].sb.length then (false, d)
    else
      let data : Line := BitVec.ofNat 512 (v % 2 ^ (8 * n) * 2 ^ (8 * (pa % 64)))
      (true, updEng d e fun x => { x with
        sb := x.sb ++ [⟨lineOf pa, .store data (enables (pa % 64) n), x.mode == .thread, false⟩] })

/-! ### The instructions -/

/-- The effective address of an M-format instruction. -/
def effAddr (x : Engine) (f : MForm) : Dword := getS x f.rs1 + sext12 f.imm

/-- A load of `n` bytes. -/
def load (e : Eng) (i : Instr) (f : MForm) (n : Nat) (ext : Nat → Dword) (s : State) :
    Host.Outcome State Fault Refusal :=
  runDev e i (fun d =>
    let x := d.engines[e]
    let ea := effAddr x f
    match loadCheck x ea.toNat n with
    | .inl c => updEng d e fun x => note x c ea
    | .inr .landing => updEng d e fun x => adv (setS x f.rt (ext (mread x.landing ea.toNat n)))
    | .inr .code => updEng d e fun x => adv (setS x f.rt (ext (readLE (codeByte x) (ea.toNat - 0x100000) n)))
    | .inr .memory =>
      match loadMem d e ea n with
      | (some v, d) => updEng d e fun x => adv (setS x f.rt (ext v))
      | (none, d) => d) s

/-- A store of the low `n` bytes of rt. -/
def store (e : Eng) (i : Instr) (f : MForm) (n : Nat) (s : State) : Host.Outcome State Fault Refusal :=
  runDev e i (fun d =>
    let x := d.engines[e]
    let ea := effAddr x f
    let v := (getS x f.rt).toNat
    match storeCheck x ea.toNat n with
    | .inl c => updEng d e fun x => note x c ea
    | .inr .landing => updEng d e fun x => adv { x with landing := mwrite x.landing ea.toNat n v }
    | .inr .code => updEng d e fun x => adv (codeStore x (ea.toNat - 0x100000) n v)
    | .inr .memory =>
      match storeMem d e ea n v with
      | (true, d) => updEng d e adv
      | (false, d) => d) s

/-- The first half of a landing store that crosses an 8-byte boundary, with its instruction abandoned before the
second half (R82); a store that crosses none, or that lies elsewhere, is unchanged by it. -/
def splitCut (x : Engine) (i : Instr) (f : MForm) (n : Nat) : Engine × Bool :=
  let ea := (effAddr x f).toNat
  let k := 8 - ea % 8
  if (precheck i x).2 && storeCheck x ea n == .inr .landing && decide (k < n) then
    ({ x with landing := mwrite x.landing ea k (getS x f.rt).toNat }, true)
  else (x, false)

/-- Sign extension of an `8n`-bit value. -/
def sextN (n v : Nat) : Dword :=
  if v < 2 ^ (8 * n - 1) then BitVec.ofNat 64 v else BitVec.ofNat 64 (v + 2 ^ 64 - 2 ^ (8 * n))

def zextN (v : Nat) : Dword := BitVec.ofNat 64 v

/-- LB (R101). -/
def execLb (e : Eng) (f : MForm) (s : State) : Host.Outcome State Fault Refusal :=
  load e (.lb e f) f 1 (sextN 1) s

/-- LH (R101). -/
def execLh (e : Eng) (f : MForm) (s : State) : Host.Outcome State Fault Refusal :=
  load e (.lh e f) f 2 (sextN 2) s

/-- LW (R101). -/
def execLw (e : Eng) (f : MForm) (s : State) : Host.Outcome State Fault Refusal :=
  load e (.lw e f) f 4 (sextN 4) s

/-- LD (R101). -/
def execLd (e : Eng) (f : MForm) (s : State) : Host.Outcome State Fault Refusal :=
  load e (.ld e f) f 8 zextN s

/-- LBU (R101). -/
def execLbu (e : Eng) (f : MForm) (s : State) : Host.Outcome State Fault Refusal :=
  load e (.lbu e f) f 1 zextN s

/-- LHU (R101). -/
def execLhu (e : Eng) (f : MForm) (s : State) : Host.Outcome State Fault Refusal :=
  load e (.lhu e f) f 2 zextN s

/-- LWU (R101). -/
def execLwu (e : Eng) (f : MForm) (s : State) : Host.Outcome State Fault Refusal :=
  load e (.lwu e f) f 4 zextN s

/-- LC (R101). -/
def execLc (e : Eng) (f : MForm) (s : State) : Host.Outcome State Fault Refusal :=
  load e (.lc e f) f 5 (sextN 5) s

/-- LCU (R101). -/
def execLcu (e : Eng) (f : MForm) (s : State) : Host.Outcome State Fault Refusal :=
  load e (.lcu e f) f 5 zextN s

/-- SB (R101). -/
def execSb (e : Eng) (f : MForm) (s : State) : Host.Outcome State Fault Refusal :=
  store e (.sb e f) f 1 s

/-- SH (R101). -/
def execSh (e : Eng) (f : MForm) (s : State) : Host.Outcome State Fault Refusal :=
  store e (.sh e f) f 2 s

/-- SW (R101). -/
def execSw (e : Eng) (f : MForm) (s : State) : Host.Outcome State Fault Refusal :=
  store e (.sw e f) f 4 s

/-- SD (R101). -/
def execSd (e : Eng) (f : MForm) (s : State) : Host.Outcome State Fault Refusal :=
  store e (.sd e f) f 8 s

/-- SC (R101). -/
def execSc (e : Eng) (f : MForm) (s : State) : Host.Outcome State Fault Refusal :=
  store e (.sc e f) f 5 s

end Sys2Proof.Machine
end

