-- ==== Sys2Proof/Machine/Heap.lean ====
section
/-! DEFINITION. Segments by handle, partitions by number and queues by name: what the scheduler, the streams, the
pager and the rings share (R156, R157, R160, R260 to R265, R296 to R299, R472). -/

namespace Sys2Proof.Machine

open Sys2Proof

/-! ### Segments -/

/-- The partition of a handle, its map index and its generation (R156, R296). -/
def hPart (h : Nat) : Nat := fieldN h 34 6
def hIndex (h : Nat) : Nat := fieldN h 0 20
def hGen (h : Nat) : Nat := fieldN h 20 14

/-- The key of a segment in the map. -/
def segKey (h : Nat) : Nat := hPart h * 2 ^ 20 + hIndex h

/-- The handle of a segment. -/
def handleOf (p gen idx : Nat) : Nat := p * 2 ^ 34 + gen * 2 ^ 20 + idx

/-- The segment that a handle of partition `p` names, a freed one that waits included (R296, R302). -/
def segHeld (d : Device) (p h : Nat) : Option Segment :=
  if decide (h < 2 ^ 40) && hPart h == p && hIndex h != 0 then
    match sfind d.pager.segs (segKey h) with
    | some s => if s.gen = hGen h then some s else none
    | none => none
  else none

/-- The segment that a new request may name. -/
def segOf (d : Device) (p h : Nat) : Option Segment :=
  match segHeld d p h with
  | some s => if s.freeing then none else some s
  | none => none

/-- Changes a segment. -/
def updSeg (d : Device) (h : Nat) (f : Segment → Segment) : Device :=
  { d with pager := { d.pager with segs := supd d.pager.segs (segKey h) f } }

/-- The physical address of a segment byte (R298). -/
def segPhys (s : Segment) (x : Nat) : Nat := s.granules[x / 65536]?.getD 0 * 4096 + x % 65536

/-- Size of a segment in bytes. -/
def segBytes (s : Segment) : Nat := 65536 * 2 ^ s.sizeK

/-- Whether a segment's data are in heap granules that a new use may rely on (R297). -/
def isResident (s : Segment) : Bool :=
  match s.state with
  | .resident => true
  | .pinned => true
  | .movingOut => true
  | .paged => false
  | .movingIn => false

/-- The quadrant that holds a segment. -/
def segQuad (d : Device) (s : Segment) : Nat := quadOf d (segPhys s 0)

/-- The 64-byte header of a resident segment, none where its line is poisoned. -/
def segHeader (d : Device) (s : Segment) : Option Line :=
  let l := cohLine d (segPhys s 0)
  if l.2 then none else some l.1

/-- Fields of a segment header (R160). -/
def hdrFormat (h : Line) : Nat := lineRead h 3 1
def hdrWidth (h : Line) : Nat := lineRead h 4 1
def hdrRows (h : Line) : Nat := lineRead h 8 8
def hdrBytes (h : Line) : Nat := lineRead h 16 8
def hdrDict (h : Line) : Nat := lineRead h 24 8
def hdrValid (h : Line) : Nat := lineRead h 32 8
def hdrBlocks (h : Line) : Nat := lineRead h 40 4

/-- A page-out of the segment is cancelled (R306, R308). -/
def cancelOut (s : Segment) : Segment :=
  if s.state = .movingOut then { s with state := .resident } else s

/-! ### Partitions -/

def quotaQueues (d : Device) (p : Part) : Nat := partF d p 0x4e 2
def quotaThreads (d : Device) (p : Part) : Nat := partF d p 0x50 4
def quotaFlows (d : Device) (p : Part) : Nat := partF d p 0x54 2

/-- Changes a partition. -/
def updPart (d : Device) (p : Part) (f : Partition → Partition) : Device :=
  { d with parts := supd d.parts p.val f }

/-- Whether a partition exists and is not freezing or frozen. -/
def partRuns (d : Device) (p : Part) : Bool :=
  match sfind d.parts p.val with
  | some x => x.state == .running && !x.destroying
  | none => false

/-- Whether a partition is frozen, and not being destroyed (R483). -/
def partFrozen (d : Device) (p : Part) : Bool :=
  match sfind d.parts p.val with
  | some x => x.state == .frozen && !x.destroying
  | none => false

/-- Whether a partition's threads may be dispatched: a pending freeze has not taken effect (R239, R482). -/
def partDispatches (d : Device) (p : Part) : Bool :=
  match sfind d.parts p.val with
  | some x => !x.destroying && (x.state == .running || (x.state == .freezing && x.freezeAt.isSome))
  | none => false

/-- Whether an engine is in service (R257). -/
def inService (x : Engine) : Bool := x.run == .running

/-- The engines of a partition in service, in increasing order; one that PART_ENGINES takes away counts no longer
(R475). -/
def partEngines (d : Device) (p : Part) : List Eng :=
  (List.finRange 256).filter fun e =>
    d.engines[e].owner == some p && (partF d p 8 32).testBit e && inService d.engines[e]

/-- Whether bank `b` is assigned to partition `p` (R112, R232). -/
def bankOf (d : Device) (b p : Nat) : Bool :=
  regF d (CAM_CFG (b / 4) (b % 4)) 22 1 == 1 && regF d (CAM_CFG (b / 4) (b % 4)) 16 6 == p

/-! ### Queues -/

/-- The key of queue `q` of partition `p`. -/
def qKey (p : Part) (q : QueueId) : Nat := 16384 * p.val + q.val

def qFind (d : Device) (p : Part) (q : QueueId) : Option Queue := sfind d.queues (qKey p q)

def updQueue (d : Device) (p : Part) (q : QueueId) (f : Queue → Queue) : Device :=
  { d with queues := supd d.queues (qKey p q) f }

/-- The accepted entry at a ring index. -/
def accFind (d : Device) (p : Part) (q : QueueId) (i : Nat) : Option Accepted :=
  match qFind d p q with
  | some x => (takeFirst (fun a => a.index == i) x.entries).map (·.1)
  | none => none

/-- Changes the accepted entry at a ring index. -/
def updAcc (d : Device) (p : Part) (q : QueueId) (i : Nat) (f : Accepted → Accepted) : Device :=
  updQueue d p q fun x => { x with entries := x.entries.map fun a => if a.index = i then f a else a }

/-- Decides the completion of an accepted entry, once (R265, R276). -/
def decideEntry (d : Device) (p : Part) (q : QueueId) (i status : Nat) (results : List (Nat × Nat × Nat)) : Device :=
  updAcc d p q i fun a =>
    if a.outcome.isSome then a else { a with outcome := some ⟨status, results⟩ }

/-- Field of `n` bytes at byte `b` of an entry (R260). -/
def entF (raw : BitVec 512) (b n : Nat) : Nat := lineRead raw b n

/-- Opcode of an entry. -/
def entOp (raw : BitVec 512) : Nat := entF raw 1 1

/-- An accepted entry of a queue of the given type, with the given opcode, that is not decided. -/
def openEntryOf (d : Device) (p : Part) (q : QueueId) (i type op : Nat) : Option Accepted :=
  match qFind d p q with
  | some x =>
    if x.type = type then
      match accFind d p q i with
      | some a => if a.outcome.isNone && entOp a.raw == op then some a else none
      | none => none
    else none
  | none => none

/-- Whether every byte of an entry's body outside the listed fields, as offset and length, is 0. -/
def bodyClear (raw : BitVec 512) (fields : List (Nat × Nat)) : Bool :=
  (List.range 56).all fun k => entF raw (k + 8) 1 == 0 ||
    fields.any fun f => decide (f.1 ≤ k + 8) && decide (k + 8 < f.1 + f.2)

end Sys2Proof.Machine
end

