-- ==== Sys2Proof/Machine/Sched.lean ====
section
/-! DEFINITION. The scheduler's operations: threads, instances, slots, flows, completion reports, stops, replays,
halts and admission (R230 to R257, R67, R36 to R40, R284, R285). -/

namespace Sys2Proof.Machine

open Sys2Proof

/-! ### Tables -/

def updSched (d : Device) (f : Sched → Sched) : Device := { d with sched := f d.sched }

def instOf (d : Device) (k : Nat) : Option Instance := sfind d.sched.insts k
def updInst (d : Device) (k : Nat) (f : Instance → Instance) : Device :=
  updSched d fun s => { s with insts := supd s.insts k f }

def threadOf (d : Device) (k : Nat) : Option Thread := sfind d.sched.threads k
def updThread (d : Device) (k : Nat) (f : Thread → Thread) : Device :=
  updSched d fun s => { s with threads := supd s.threads k f }

/-- The threads of an instance. -/
def threadsOf (d : Device) (k : Nat) : List (Nat × Thread) := d.sched.threads.filter fun t => t.2.inst == k

def flowKey (p : Part) (f : Nat) : Nat := 65536 * p.val + f
def flowOf (d : Device) (p : Part) (f : Nat) : Option Flow := sfind d.sched.flows (flowKey p f)
def updFlow (d : Device) (p : Part) (f : Nat) (g : Flow → Flow) : Device :=
  updSched d fun s => { s with flows := supd s.flows (flowKey p f) g }

/-- Field of `n` bytes at byte `b` of a flight descriptor (R230). -/
def dF (x : Instance) (b n : Nat) : Nat := fieldN x.desc.toNat (8 * b) (8 * n)

def codeHandle (x : Instance) : Nat := dF x 0x08 8
def outHandle (x : Instance) : Nat := dF x 0x28 8
def slotBytes (x : Instance) : Nat := dF x 0x30 4
def outSlots (x : Instance) : Nat := dF x 0x34 4
def minMorsel (x : Instance) : Nat := dF x 0x18 4
def maxMorsel (x : Instance) : Nat := dF x 0x1c 4

/-- Byte D of the output segment where slot 0 begins (R233). -/
def slotBase (slots : Nat) : Nat := 256 * ceilDiv (64 + 8 * slots) 256

/-- Whether the cursor has given every row to a morsel (R236). -/
def exhausted (x : Instance) : Bool := decide (x.firstRow + x.rows ≤ x.cursor)

/-- Whether a unit of an instance runs in the current beat. -/
def unitRuns (d : Device) (k : Nat) : Bool :=
  (List.finRange 256).any fun e =>
    match d.engines[e].dispatch with
    | some u => u.inst == k && u.fate == .running
    | none => false

/-- A unit status under which a unit is published (R248). -/
def goodStatus (st : Nat) : Bool := st == 0 || st == 9

/-! ### System threads (R242) -/

/-- `n` numbers below `total` that a table does not use, the first at or after `k`. -/
def takeNums (used : List Nat) (total : Nat) : Nat → Nat → Nat → List Nat
  | 0, _, _ => []
  | fuel + 1, k, n =>
    if n = 0 then []
    else if used.contains (k % total) then takeNums used total fuel (k + 1) n
    else (k % total) :: takeNums used total fuel (k + 1) (n - 1)

/-- The thread numbers in use (R237). -/
def threadNums (d : Device) : List Nat := d.sched.threads.map (·.1) ++ d.sched.sysTable.map (·.num)

/-- Thread descriptors that are not FREE (R259). -/
def threadCount (d : Device) : Nat := d.sched.threads.length + d.sched.sysTable.length

/-- A service unit is asked for a piece of work, once; its system thread takes a descriptor where one is free. -/
def askSystem (d : Device) (t : SystemThread) : Device :=
  if (d.sched.system ++ d.sched.serving).contains t then d
  else
    let slot := (takeNums (threadNums d) 262144 (threadCount d + 1) 0 1).map fun n => ⟨t, n, beatNow d⟩
    updSched d fun s => { s with system := s.system ++ [t], sysTable := s.sysTable ++ slot }

/-- A piece of work is done. -/
def endSystem (d : Device) (t : SystemThread) : Device :=
  updSched d fun s => { s with
    system := s.system.erase t, serving := s.serving.erase t, sysTable := s.sysTable.filter fun x => x.thread != t }

/-- The system thread a service unit takes next: strict order of priority, then order of arrival. -/
def nextSystem (l : List SystemThread) (u : ServiceUnit) : Option SystemThread :=
  let mine := l.filter fun t => t.unit == u
  let best := mine.foldl (fun m t => min m t.prio) 8
  mine.find? fun t => t.prio == best

/-- Whether a service unit does a piece of work now: it runs its thread, or it runs none and would take it next. -/
def servesNow (d : Device) (t : SystemThread) : Bool :=
  if d.sched.serving.any fun x => x.unit == t.unit then d.sched.serving.contains t
  else nextSystem (if d.sched.system.contains t then d.sched.system else d.sched.system ++ [t]) t.unit == some t

/-- The page-in of a segment, at priority 0 (R306), and the release of a flow. -/
def pageInWork (h : Nat) : SystemThread := ⟨.pager, 0, h⟩
def flowWork (p : Part) (f : Nat) : SystemThread := ⟨.flowPublisher, 0, flowKey p f⟩

/-! ### Stops (R254, R285) -/

/-- The instance stops. An earlier cause stays, but of two units the one with the lower first row is reported; an
abort names no unit, and its `rows` is 0. -/
def stopInst (d : Device) (k st row rows : Nat) : Device :=
  let new : StopInfo := ⟨BitVec.ofNat 16 st, row, rows, beatNow d⟩
  updInst d k fun x => { x with stop :=
    match x.stop with
    | none => some new
    | some o => if rows != 0 && o.rows != 0 && decide (row < o.row) then some { new with beat := o.beat }
                else some o }

/-! ### Publication (R233) -/

/-- Publishes one unit: its directory entry and the instance's counts. -/
def publishUnit (d : Device) (k : Nat) (u : DoneUnit) : Device :=
  match instOf d k with
  | none => d
  | some x =>
    let d := match segHeld d x.part.val (outHandle x) with
      | some s => cohWrite d (segPhys s (64 + 8 * x.published)) 8 (u.slot + 2 ^ 24 * u.row) x.part 1
      | none => d
    updInst d k fun x => { x with
      published := x.published + 1, rowsDone := x.rowsDone + u.rows
      mismatch := if u.status = 9 then
          (match x.mismatch with
           | some m => if u.row < m.1 then some (u.row, u.rows) else some m
           | none => some (u.row, u.rows))
        else x.mismatch }

/-! ### Cost (R245) -/

/-- SCH_CTL.KOVH. -/
def kovh (d : Device) : Nat := regF d SCH_CTL 16 16

/-- A cost moved an eighth of the way to a sample, rounded toward minus infinity and kept in range. -/
def learn (c : Nat) (s : Int) : Nat :=
  let x : Int := Int.ofNat c + Int.fdiv (s - Int.ofNat c) 8
  max 1 (min (2 ^ 32 - 1) x.toNat)

/-- The sample of an overrun of `n` rows in a beat of `b` engine cycles; it is negative where the beat is shorter than
the kernel's overhead `k`. -/
def overSample (b k n : Nat) : Int := Int.fdiv (512 * (Int.ofNat b - Int.ofNat k)) (Int.ofNat n)

/-! ### Completion reports (R32, R39, R248) -/

/-- A unit is complete with a status: its thread's piece is done, and the unit is published, queued for its flow,
or stops its instance. -/
def completeUnit (d : Device) (e : Eng) (u : Dispatch) (st bcycle : Nat) : Device :=
  let d := updEng d e fun x => { x with dispatch := some { u with fate := .complete } }
  let ctx := u.yielded
  let d := updThread d u.thread fun t => { t with
    todo := t.todo.tail, stalls := 0, started := true
    ctx := match ctx with | some c => some c | none => t.ctx }
  let d := if goodStatus st then
      updInst d u.inst fun x => { x with cost := learn x.cost (Int.ofNat (256 * (bcycle - kovh d) / u.rows)) }
    else stopInst d u.inst st u.first u.rows
  let done : DoneUnit := ⟨u.seq, u.first, u.rows, u.slot, BitVec.ofNat 16 st⟩
  match instOf d u.inst with
  | none => d
  | some x =>
    match x.flow with
    | some f => askSystem (updFlow d x.part f fun g => { g with done := g.done ++ [done] }) (flowWork x.part f)
    | none => if goodStatus st then publishUnit d u.inst done else d

/-- A unit is replayed: abandoned without being split, and counted (R256). -/
def replayUnit (d : Device) (e : Eng) (u : Dispatch) : Device :=
  let d := updEng d e fun x => { x with dispatch := some { u with fate := .replay } }
  raiseEvent (incRegSat (lifeAdd d 4 1 1) SCH_EVT1 32 10) 0x01 e.val 0 0 (d.engines[e].owner)

/-- Engine cycles since the tick of the current beat (R92). -/
def bcycle (d : Device) : Nat := d.cycle - d.beat.lastTick

/-! ### Streams and sieve jobs of an engine that stops (R87, R200) -/

/-- A streamer that is not busy. -/
def freeStreamer : Streamer :=
  { st := .free, kernel := false, descAt := 0, desc := 0, filled := 0, status := 0, consumed := 0, hdr := none,
    handle := 0, rows := 0, endStatus := 0, nextLine := 0, asked := [], stage := [], bitPos := 0, bitsLeft := 0,
    acc := 0, accLen := 0, rle := none, job := none }

/-- Waiting jobs take the free places of a sieve (R197). -/
def fillPlaces (s : Sieve) : Sieve :=
  let n := 64 - s.active.length
  { s with active := s.active ++ s.waiting.take n, waiting := s.waiting.drop n }

/-- Removes the jobs that a test selects from every channel's sieve; waiting jobs take their places. -/
def dropChanJobs (d : Device) (p : ChanJob → Bool) : Device :=
  let keep := fun j => !p j
  { d with sieves := d.sieves.map fun s =>
      fillPlaces { s with active := s.active.filter keep, waiting := s.waiting.filter keep,
                          sent := s.sent.filter keep } }

/-- Cancels every sieve job of an engine at its channels (R200); its streams deliver nothing more. -/
def cancelJobs (d : Device) (e : Eng) : Device :=
  let d := if d.engines[e].jobs.isEmpty then d else dropChanJobs d fun j => j.eng == e
  updEng d e fun x => { x with
    jobs := []
    streams := x.streams.map fun s => if s.job.isSome then { s with job := none, acc := 0, accLen := 0 } else s }

/-- Cancels every stream and every sieve job of an engine. -/
def cancelStreams (d : Device) (e : Eng) : Device :=
  let d := if d.engines[e].jobs.isEmpty then d else dropChanJobs d fun j => j.eng == e
  updEng d e fun x => { x with streams := Vector.replicate 4 freeStreamer, jobs := [] }

/-! ### Halts and retirement (R67, R257, R334) -/

/-- An engine leaves service for good. -/
def retireEngine (d : Device) (e : Eng) : Device :=
  let d := updEng d e fun x => { x with run := .retired, entry := none, waiting := false, reload := false }
  lifeRetire (raiseEvent d 0x02 e.val 0 0 (d.engines[e].owner)) .engine e.val 0x02

/-- The engine halts with a cause: its unit is replayed, or ended after an IOMMU fault (R67, R118). -/
def haltEngine (d : Device) (e : Eng) (c : CauseVal) : Device :=
  let x := d.engines[e]
  let d := setReg d (ENG_STAT e.val) 16 16 (causeCode c.cause)
  let d := setReg d (ENG_HALT_PC e.val) 0 16 x.pc.toNat
  let d := if c.cause = .errCsParityK then setReg d (ENG_ERR e.val) 1 1 1 else setReg d (ENG_ERR e.val) 2 1 1
  let d := incRegSat d (ENG_EVT_CNT e.val) 32 16
  let iommu := c.cause == .accIommu
  let d := cancelJobs d e
  let d := updEng d e fun x => { abandonCam x with
    run := .halted, fault := none, entry := none, waiting := false, reload := true
    halts24 := if iommu then x.halts24 else x.halts24 + 1 }
  let d := match x.dispatch with
    | some u =>
      if u.fate != .running then d
      else if iommu then completeUnit d e { u with yielded := none } 0xf 0
      else replayUnit d e u
    | none => d
  if d.engines[e].halts24 ≥ 3 then retireEngine d e else d

/-! ### Overruns (R33, R36, R40, R245) -/

/-- Pieces that an overrun of `r` rows re-queues under a minimum of `m`; none where the whole piece is kept. -/
def splitRows (r m : Nat) : Option (Nat × Nat) :=
  if 2 * m ≤ r then some (ceilDiv r 2, r / 2)
  else if m < r then some (m, r - m)
  else none

/-- The generator's shortest beat of a length, under external lock (R244, R47). -/
def shortest (d : Device) (b : Nat) : Nat := if regF d BEAT_CTL 0 1 = 1 then b - b / 1000 else b

/-- A thread whose unit overran: its piece is split or kept, and a third stall stops the instance. -/
def overrun (d : Device) (u : Dispatch) (b : Nat) : Device :=
  let d := incReg (lifeAdd d 4 0 1) SCH_EVT1 0 32 1
  match instOf d u.inst, threadOf d u.thread with
  | some x, some t =>
    let k := kovh d
    let d := updInst d u.inst fun x => { x with cost := learn x.cost (overSample (shortest d b) k u.rows) }
    match t.todo with
    | [] => d
    | c :: rest =>
      (match splitRows c.rows (minMorsel x) with
       | some (a, z) =>
         updThread d u.thread fun t => { t with todo := ⟨c.off, a, some u.slot⟩ :: ⟨c.off + a, z, none⟩ :: rest }
       | none =>
         let d := updThread d u.thread fun t => { t with
           todo := ⟨c.off, c.rows, some u.slot⟩ :: rest, stalls := t.stalls + 1 }
         if 2 ≤ t.stalls then
           stopInst (incRegSat (updThread (lifeAdd d 4 2 1) u.thread fun t => { t with st := .stalled }) SCH_EVT1 42 10)
             u.inst 0xe u.first u.rows
         else d)
  | _, _ => d

/-! ### Drawing (R236, R244, R250, R251) -/

/-- Rows of a newly drawn morsel for a beat of `b` engine cycles. -/
def morselSize (d : Device) (x : Instance) (b : Nat) : Nat :=
  let b := shortest d b
  let k := kovh d
  if b ≤ k then minMorsel x
  else max (minMorsel x) (min (maxMorsel x) (85 * (b - k) * 256 / (100 * x.cost)))

/-- Whether every instance of a flow before `k` has drawn its last morsel, or has stopped and been released. -/
def earlierDrawn (d : Device) (l : List Nat) (k : Nat) : Bool :=
  match l with
  | [] => true
  | i :: t =>
    if i = k then true
    else match instOf d i with
      | none => earlierDrawn d t k
      | some x => (if x.stop.isSome || x.failed.isSome then x.released else exhausted x) && earlierDrawn d t k

/-- Whether the flow lets an instance draw its next sequence number. -/
def flowAllows (d : Device) (k : Nat) (x : Instance) : Bool :=
  match x.flow with
  | none => true
  | some f =>
    match flowOf d x.part f with
    | none => true
    | some g => earlierDrawn d g.insts k && decide (g.next < g.low + 256)

/-! ### Header checks and residency (R232, R305, R306) -/

/-- A further segment joins those an instance holds. -/
def holdSeg (d : Device) (k h : Nat) : Device :=
  match instOf d k with
  | none => d
  | some x =>
    match segOf d x.part.val h with
    | none => d
    | some _ =>
      let d := updSeg d h cancelOut
      if x.held.contains h then d else updInst d k fun x => { x with held := x.held ++ [h] }

/-- Reads the header of one segment that the descriptor names, once the segment is resident: check 6, check 3 on
the code segment, and the further segments it names. -/
def readHeader (d : Device) (k h : Nat) : Device :=
  match instOf d k with
  | none => d
  | some x =>
    match segHeld d x.part.val h with
    | none => d
    | some s =>
      if !isResident s || x.failed.isSome then d
      else
        let d := updInst d k fun x => { x with unread := x.unread.filter (· != h) }
        match segHeader d s with
        | none => updInst d k fun x => { x with failed := some 0xb }
        | some l =>
          if h = codeHandle x && (hdrFormat l != 5 || hdrWidth l != 32 || decide (hdrBytes l < dF x 4 4)) then
            updInst d k fun x => { x with failed := some 3 }
          else holdSeg (holdSeg d k (hdrDict l)) k (hdrValid l)

/-- Reads every header that has become readable; a failed check frees the instance's threads, and the pager is
asked for what is not resident. -/
def readHeaders (d : Device) (k : Nat) : Device :=
  match instOf d k with
  | none => d
  | some x =>
    let d := x.unread.foldl (fun d h => readHeader d k h) d
    match instOf d k with
    | some x => if x.failed.isSome then
        updSched d fun s => { s with threads := s.threads.filter fun t => t.2.inst != k }
      else x.held.foldl (fun d h =>
        match segHeld d x.part.val h with
        | some g => if isResident g then d else askSystem d (pageInWork h)
        | none => d) d
    | none => d

/-- Whether every segment an instance holds is resident and read. -/
def instResident (d : Device) (x : Instance) : Bool :=
  x.unread.isEmpty && x.held.all fun h =>
    match segHeld d x.part.val h with
    | some s => isResident s
    | none => true

/-! ### Instance completion (R245, R253, R285) -/

/-- Whether every earlier instance of its flow has completed. -/
def firstOfFlow (d : Device) (k : Nat) (x : Instance) : Bool :=
  match x.flow with
  | none => true
  | some f =>
    match flowOf d x.part f with
    | some g => g.insts.head? == some k
    | none => true

/-- Whether every sequence number the instance drew has been released. -/
def allReleased (d : Device) (x : Instance) : Bool :=
  match x.flow with
  | none => true
  | some f =>
    match flowOf d x.part f with
    | some g => decide (x.seqTo ≤ g.low)
    | none => true

/-- Threads of an instance that are not kept as STALLED. -/
def liveThreads (d : Device) (k : Nat) : Bool := (threadsOf d k).any fun t => t.2.st != .stalled

/-- Whether an instance has come to its end; an ABORT of it takes effect at a tick first (R278). -/
def instDone (d : Device) (k : Nat) (x : Instance) : Bool :=
  !x.decided && !unitRuns d k && !liveThreads d k && firstOfFlow d k x && (!x.abort || x.stop.isSome) &&
    (x.failed.isSome || (if x.stop.isSome then x.flow.isNone || x.released
                         else exhausted x && allReleased d x))

/-- Status, FAIL_ROW and FAIL_ROWS of a finished instance; one whose ABORT succeeded ends with ABORTED (R276, R285). -/
def instStatus (x : Instance) : Nat × Nat × Nat :=
  if x.abort then (1, 0, 0)
  else match x.failed with
  | some st => (st, 0, 0)
  | none =>
    match x.stop with
    | some o => if o.status = 1 then (1, 0, 0) else (o.status.toNat, o.row, o.rows)
    | none =>
      match x.mismatch with
      | some m => (9, m.1, m.2)
      | none => (0, 0, 0)

/-- The result fields of RUN (R284). -/
def runResults (row rows units done : Nat) : List (Nat × Nat × Nat) :=
  [(0x28, 8, row % 2 ^ 40), (0x30, 4, rows), (0x34, 4, units), (0x38, 8, done % 2 ^ 40)]

/-- Ends an instance once its directory entries are visible (R252): COST_OUT, then the ring entry's status. -/
def finishInst (d : Device) (k : Nat) : Device :=
  match instOf d k with
  | none => d
  | some x =>
    if instDone d k x && !partHeld d x.part then
      let d := (ioWrite d x.part (x.descAddr + 0x24) 4 x.cost).2
      let r := instStatus x
      let d := updInst d k fun x => { x with decided := true }
      decideEntry d x.part ⟨x.queue % 16384, Nat.mod_lt _ (by omega)⟩ x.index r.1
        (runResults r.2.1 r.2.2 x.published x.rowsDone)
    else d

/-- The instance leaves the table when its ring entry completes; a STALLED thread becomes FREE with it. -/
def dropInst (d : Device) (k : Nat) : Device :=
  let d := allEngines d fun _ x => if x.lastInst = some k then { x with lastInst := none } else x
  updSched d fun s => { s with
    insts := sdel s.insts k
    threads := s.threads.filter fun t => t.2.inst != k
    flows := s.flows.map fun g => (g.1, { g.2 with insts := g.2.insts.filter (· != k) }) }

/-! ### Flow release (R252, R254) -/

/-- The instance that drew a sequence number. -/
def seqOwner (d : Device) (l : List Nat) (n : Nat) : Option Nat :=
  match l with
  | [] => none
  | k :: t =>
    match instOf d k with
    | some x => if x.seqFrom ≤ n ∧ n < x.seqTo then some k else seqOwner d t n
    | none => seqOwner d t n

/-- Units in order of their first rows. -/
def byRow (l : List DoneUnit) (u : DoneUnit) : List DoneUnit :=
  match l with
  | [] => [u]
  | a :: t => if u.row < a.row then u :: a :: t else a :: byRow t u

/-- Whether an instance has stopped and the beat of its stop has ended (R254). -/
def stopOver (d : Device) (x : Instance) : Bool :=
  x.failed.isSome || (match x.stop with
    | some o => decide (o.beat < beatNow d)
    | none => false)

/-- One step of the flow publisher: it releases the lowest number, or passes the numbers of a stopped instance. -/
def releaseOne (d : Device) (p : Part) (f : Nat) : Option Device :=
  match flowOf d p f with
  | none => none
  | some g =>
    match seqOwner d g.insts g.low with
    | none => none
    | some k =>
      match instOf d k with
      | none => none
      | some x =>
        let us := g.done.filter fun u => u.seq == g.low
        let rows := us.foldl (fun n u => n + u.rows) 0
        if rows = sget g.drawn g.low 0 && us.all fun u => goodStatus u.status.toNat then
          let d := (us.foldl byRow []).foldl (fun d u => publishUnit d k u) d
          some (updFlow d p f fun g => { g with
            low := g.low + 1, drawn := sdel g.drawn g.low, done := g.done.filter fun u => u.seq != g.low })
        else if stopOver d x && !unitRuns d k then
          some (updFlow (updInst d k fun x => { x with released := true }) p f fun g => { g with
            low := x.seqTo
            drawn := g.drawn.filter fun n => decide (x.seqTo ≤ n.1)
            done := g.done.filter fun u => decide (x.seqTo ≤ u.seq) })
        else none

/-- The flow publisher at work, at most `n` steps. -/
def releaseFlow (d : Device) (p : Part) (f : Nat) : Nat → Device
  | 0 => d
  | n + 1 =>
    match releaseOne d p f with
    | some d' => releaseFlow d' p f n
    | none => d

/-- A stopped instance all of whose numbers have been passed is released. -/
def markReleased (d : Device) (p : Part) (f : Nat) : Device :=
  match flowOf d p f with
  | none => d
  | some g => g.insts.foldl (fun d k =>
      match instOf d k with
      | some x => if stopOver d x && decide (x.seqTo ≤ g.low) && !unitRuns d k then
          updInst d k fun x => { x with released := true } else d
      | none => d) d

/-- FLOW_RELEASE (R252 to R254): flow `f` of partition `p`; `f` = 0 ends the partition's unordered instances that
have come to their end. -/
def execFlowRelease (p : Part) (flow : Nat) (s : State) : Host.Outcome State Fault Refusal :=
  act (whenRun fun d =>
    if partFrozen d p then d
    else if flow = 0 then
      (d.sched.insts.filter fun i => i.2.part == p && i.2.flow.isNone).foldl (fun d i => finishInst d i.1) d
    else if !servesNow d (flowWork p flow) then d
    else
      let d := endSystem (markReleased (releaseFlow d p flow 512) p flow) (flowWork p flow)
      match flowOf d p flow with
      | some g => g.insts.foldl (fun d k => finishInst d k) d
      | none => d) s

/-! ### Admission (R230 to R236, R255, R284) -/

/-- Check 1 of R232. -/
def descBad (g : Nat → Nat → Nat) (flow : Nat) : Bool :=
  let out := g 0x28 8
  g 0 2 != 0x4654 || g 2 1 != 1 || decide (1 < g 3 1) || g 4 4 % 4 != 0 || decide (g 4 4 < 4) ||
  decide (57344 < g 4 4) || decide (2 ^ 40 ≤ g 8 8) || g 0x10 4 % 4 != 0 || decide (g 4 4 ≤ g 0x10 4) ||
  decide (256 < g 0x14 2) || g 0x16 2 != 0 || decide (2 ^ 24 ≤ g 0x18 4) || g 0x18 4 == 0 ||
  decide (2 ^ 24 ≤ g 0x1c 4) || decide (g 0x1c 4 < g 0x18 4) || g 0x20 4 == 0 || decide (2 ^ 40 ≤ out) ||
  g 0x30 4 % 256 != 0 || (g 0x30 4 == 0) != (out == 0) || decide (2 ^ 24 ≤ g 0x34 4) ||
  (g 0x34 4 == 0) != (out == 0) || (List.range 8).any (fun i => decide (2 ^ 40 ≤ g (0x40 + 8 * i) 8)) ||
  (List.range 4).any (fun i => decide (2 ^ 18 ≤ g (0x80 + 4 * i) 4) || fieldN (g (0x80 + 4 * i) 4) 16 2 == 3 ||
    decide (2 ^ 40 ≤ g (0x90 + 8 * i) 8)) ||
  g 0xb0 16 != 0 || (g 3 1 == 1) != (flow != 0)

/-- The handles of a descriptor: code, output and inputs, without repeats. -/
def descHandles (g : Nat → Nat → Nat) : List Nat :=
  let l := [g 0x28 8] ++ (List.range 8).map fun i => g (0x40 + 8 * i) 8
  l.foldl (fun r h => if h = 0 ∨ r.contains h then r else r ++ [h]) [g 8 8]

/-- Check 5 of R232. -/
def camBad (d : Device) (p : Part) (g : Nat → Nat → Nat) : Bool :=
  (List.range 4).any fun i =>
    let c := g (0x80 + 4 * i) 4
    decide (fieldN c 0 8 + fieldN c 8 8 ≤ 255) &&
      (List.range (fieldN c 8 8 + 1)).any fun b => !bankOf d (fieldN c 0 8 + b) p.val

/-- Checks 1 to 6 of R232 as far as admission can make them; 0 where they hold. -/
def admitChecks (d : Device) (p : Part) (g : Nat → Nat → Nat) (flow : Nat) : Nat :=
  if descBad g flow then 3
  else if (descHandles g).any fun h => (segOf d p.val h).isNone then 2
  else
    let code := segOf d p.val (g 8 8)
    let hdr := match code with | some s => if isResident s then some (segHeader d s) else none | none => none
    if hdr == some none then 0xb
    else if (match hdr with
        | some (some l) => hdrFormat l != 5 || hdrWidth l != 32 || decide (hdrBytes l < g 4 4)
        | _ => false) then 3
    else if (match segOf d p.val (g 0x28 8) with
        | some s => decide (segBytes s < slotBase (g 0x34 4) + g 0x34 4 * g 0x30 4)
        | none => false) then 4
    else if camBad d p g then 3
    else if (descHandles g).any fun h =>
        match segOf d p.val h with
        | some s => isResident s && (segHeader d s).isNone
        | none => false then 0xb
    else 0

/-- Threads of a partition. -/
def partThreads (d : Device) (p : Part) : Nat := (d.sched.threads.filter fun t => t.2.part == p).length

/-- Accepted RUN entries, of one partition or of all, that are not admitted yet; with `rows`, those that have rows. Each
keeps an entry of the instance table, and a thread context, for its admission (R255, R267). -/
def runsAhead (d : Device) (one : Option Part) (rows : Bool) : Nat :=
  d.queues.foldl (fun n x =>
    if x.2.type != 1 || (match one with | some p => x.1 / 16384 != p.val | none => false) then n
    else n + x.2.entries.countP fun a => a.outcome.isNone && !(rows && entF a.raw 0x18 8 == 0) &&
      !(d.sched.insts.any fun i => i.2.part.val == x.1 / 16384 && i.2.queue == x.1 % 16384 && i.2.index == a.index)) 0

/-- The bits of SCH_BP that hold a ring now (R255); the instance table alone holds an instance with no rows. At the
acceptance of an entry, those accepted `ahead` of it count. -/
def heldBits (d : Device) (p : Part) (empty ahead : Bool) : List Nat :=
  let n := fun one rows => if ahead then runsAhead d one rows else 0
  (if 262144 ≤ threadCount d + n none true && !empty then [0] else []) ++
  (if quotaThreads d p ≤ partThreads d p + n (some p) true && !empty then [1] else []) ++
  (if 65536 ≤ d.sched.insts.length + n none false then [2] else []) ++
  (if (partEngines d p).isEmpty && !empty then [3] else [])

/-- A ring is held under R255. -/
def holdRing (d : Device) (p : Part) (q : QueueId) (bits : List Nat) : Device :=
  bits.foldl (fun d b => setReg d SCH_BP b 1 1) (updQueue d p q fun x => { x with heldBack := true })

/-- A new thread of an instance (R235, R238). -/
def newThread (k : Nat) (p : Part) (flow : Nat) (wait : Bool) (beat : Nat) : Thread :=
  { first := 0, mrows := 0, todo := [], inst := k, seq := 0, flow := flow, slot := 0, lastEng := none,
    excl := false, part := p, st := if wait then .waitPage else .ready, stalls := 0, ordered := flow != 0,
    started := false, promoted := false, promotedAt := 0, readyBeat := beat, waited := 0, pages := [], ctx := none }

/-- A new instance takes its place in the tables. -/
def admitInst (d : Device) (p : Part) (q : QueueId) (i : Nat) (raw : BitVec 512) (desc : BitVec 1536) (pick : Nat) :
    Device :=
  let g := fun b n => fieldN desc.toNat (8 * b) (8 * n)
  let rows := entF raw 0x18 8
  let flow := entF raw 0x20 2
  let bits := heldBits d p (rows == 0) false
  if !bits.isEmpty then holdRing d p q bits
  else
    let free := max 1 (min (262144 - threadCount d - (runsAhead d none true - 1))
      (quotaThreads d p - partThreads d p - (runsAhead d (some p) true - 1)))
    let t := if rows = 0 then 0 else
      min (min (if g 0x14 2 = 0 then 256 else g 0x14 2) (partEngines d p).length) (min (ceilDiv rows (g 0x18 4)) free)
    let k := (takeNums (d.sched.insts.map (·.1)) 65536 (d.sched.insts.length + 1) (pick % 65536) 1).headD 0
    let d := updQueue d p q fun x => { x with heldBack := false }
    let d := if flow = 0 then d
      else if (flowOf d p flow).isSome then d
      else updSched d fun s => { s with flows := sput s.flows (flowKey p flow) ⟨0, 0, [], [], []⟩ }
    let seq := match flowOf d p flow with | some f => f.next | none => 0
    let hs := descHandles g
    let x : Instance := {
      part := p, queue := q.val, index := i, descAddr := entF raw 8 8, desc := desc, firstRow := entF raw 0x10 8,
      rows := rows, cursor := entF raw 0x10 8, cost := g 0x20 4, nextSlot := 0,
      flow := if flow = 0 then none else some flow, stop := none, published := 0, rowsDone := 0, mismatch := none,
      held := hs, unread := if rows = 0 then [] else hs, failed := none, seqFrom := seq, seqTo := seq,
      released := false, abort := false,
      decided := false }
    let d := updSched d fun s => { s with insts := sput s.insts k x }
    let d := if flow = 0 then d else updFlow d p flow fun f => { f with insts := f.insts ++ [k] }
    let d := updSeg d (g 0x28 8) fun s => if g 0x28 8 = 0 ∨ rows = 0 ||
        !isResident s then s else { s with copy := none }
    let d := hs.foldl (fun d h => updSeg d h cancelOut) d
    let d := if rows = 0 then d else readHeaders d k
    let wait := match instOf d k with | some x => !instResident d x | none => false
    let nums := takeNums (threadNums d) 262144 (threadCount d + t) (pick % 262144) t
    updSched d fun s => { s with
      threads := nums.foldl (fun l n => sput l n (newThread k p flow wait (beatNow d))) s.threads }

/-- Whether a RUN entry keeps the layout of R284 and the flow quota. -/
def runBad (d : Device) (p : Part) (raw : BitVec 512) : Bool :=
  entF raw 8 8 % 64 != 0 || decide (2 ^ 40 ≤ entF raw 0x10 8) || decide (2 ^ 40 ≤ entF raw 0x18 8) ||
    entF raw 0x22 6 != 0 || decide (quotaFlows d p < entF raw 0x20 2)

/-- The scheduler reads the entry's descriptor and admits the instance, or decides the entry. -/
def runEntry (d : Device) (p : Part) (q : QueueId) (i : Nat) (a : Accepted) (pick : Nat) : Device :=
  let fail := fun d st => decideEntry d p q i st (runResults 0 0 0 0)
  if runBad d p a.raw then fail d 3
  else match ioRead d p (entF a.raw 8 8) 192 1 with
    | ((some v, false), d) =>
      let st := admitChecks d p (fun b n => fieldN v (8 * b) (8 * n)) (entF a.raw 0x20 2)
      if st != 0 then fail d st else admitInst d p q i a.raw (BitVec.ofNat 1536 v) pick
    | (_, d) => fail d 3

/-- The instance of a ring entry. -/
def instOfEntry (d : Device) (p : Part) (q : QueueId) (i : Nat) : Option Nat :=
  match takeFirst (fun x : Nat × Instance => x.2.part == p && x.2.queue == q.val && x.2.index == i) d.sched.insts with
  | some (x, _) => some x.1
  | none => none

/-! ### Promotion and system threads (R240, R242) -/

/-- A quiet window designated for a beat on a channel of a quadrant (R42). -/
def quietIn (d : Device) (quad beat : Nat) : Bool :=
  (List.range 4).any fun j =>
    let r := BEAT_QW_NEXT (4 * quad + j)
    regF d r 63 1 == 1 && regF d r 0 48 == beat % 2 ^ 48

/-- Whether an instance's segments meet a quiet window of a beat (R239). -/
def quietHolds (d : Device) (x : Instance) (beat : Nat) : Bool :=
  x.held.any fun h =>
    match segHeld d x.part.val h with
    | some s => quietIn d (segQuad d s) beat
    | none => false

/-- A firmware activation pause or recovery is in force (R503, R508): WRD_STAT.STATE does not read NORMAL. -/
def paused (d : Device) : Bool := regF d WRD_STAT 2 2 != 0

/-- Whether a thread is eligible at the tick that starts a beat (R239). -/
def eligible (d : Device) (beat : Nat) (t : Thread) : Bool :=
  t.st == .ready && partDispatches d t.part && !paused d && !d.ras.fatal &&
    match instOf d t.inst with
    | some x => x.stop.isNone && x.failed.isNone && !x.decided && !quietHolds d x beat
    | none => false

/-- The thread is promoted at the tick that starts a beat where R240 gives it. -/
def promote (d : Device) (beat : Nat) (n : Nat) : Device :=
  match threadOf d n with
  | none => d
  | some t =>
    if !t.promoted && decide (t.readyBeat + regF d SCH_CTL 0 16 ≤ beat) && eligible d beat t then
      updThread d n fun t => { t with promoted := true, promotedAt := beat }
    else d

/-- THREAD_PROMOTION (R240), on the cycle of the tick that starts the current beat; BEAT_TICK promotes every thread that
is due, so this finds one only in a state that a tick has not left. -/
def execThreadPromotion (th : Nat) (s : State) : Host.Outcome State Fault Refusal :=
  act (whenRun fun d => if bcycle d = 0 then promote d (beatNow d) th else d) s

/-- SYSTEM_THREAD_DISPATCH (R242): a service unit that runs none takes its next system thread. -/
def execSystemThreadDispatch (u : ServiceUnit) (s : State) : Host.Outcome State Fault Refusal :=
  act (whenRun fun d =>
    if d.sched.serving.any fun t => t.unit == u then d
    else match nextSystem d.sched.system u with
      | some t => updSched d fun s => { s with system := s.system.erase t, serving := s.serving ++ [t] }
      | none => d) s

end Sys2Proof.Machine
end

