-- ==== Sys2Proof/Machine/System.lean ====
section
/-! DEFINITION. The system instructions and the control registers (R62, R79, R92, R93, R104 to R108, R246, R247,
R325 to R330). -/

namespace Sys2Proof.Machine

open Sys2Proof

/-- A landing store that the tick or an error interrupt finds between its halves (R82). -/
def cutStore (d : Device) (c : SplitCut) : Device :=
  let i : Instr := if c.size = 2 then .sh c.e c.f else if c.size = 4 then .sw c.e c.f
    else if c.size = 5 then .sc c.e c.f else .sd c.e c.f
  let r := splitCut d.engines[c.e] i c.f (if c.size = 2 ∨ c.size = 4 ∨ c.size = 5 then c.size else 8)
  let d := updEng d c.e fun _ => r.1
  if r.2 then incReg d (ENG_EVT_CNT c.e.val) 0 32 1 else d

/-! ### Contexts (R246) -/

/-- The registers of an engine as a thread's context. -/
def ctxOf (x : Engine) : Ctx := ⟨x.pc, x.s, x.v, x.vm, x.p, x.vfcsr, x.camr, x.camm⟩

/-- Puts a context into an engine's registers. -/
def loadCtx (x : Engine) (c : Ctx) : Engine :=
  { x with pc := c.pc, s := c.s, v := c.v, vm := c.vm, p := c.p, vfcsr := c.vfcsr, camr := c.camr, camm := c.camm }

/-- The registers as R91 gives them at release, with the CAM contexts of a flight descriptor and a start address. -/
def firstCtx (x : Instance) (pc : BitVec 16) : Ctx :=
  { pc := pc
    s := Vector.replicate 32 0
    v := Vector.replicate 16 (Vector.replicate 16 0)
    vm := Vector.replicate 16 0xffff
    p := Vector.replicate 8 0
    vfcsr := 0
    camr := Vector.ofFn fun i => BitVec.ofNat 18 (dF x (0x80 + 4 * i.val) 4)
    camm := Vector.ofFn fun i => BitVec.ofNat 40 (dF x (0x90 + 8 * i.val) 8) }

/-- Engine memory-space address of slot `k` (R299); 0 without an output segment. -/
def slotAddr (d : Device) (x : Instance) (k : Nat) : Nat :=
  match segHeld d x.part.val (outHandle x) with
  | some s => 2 ^ 48 + s.addr + slotBase (outSlots x) + k * slotBytes x
  | none => 0

/-- The kernel prepares the state at the first thread-mode instruction of a unit: its registers, and in EPC the address
that ERET goes to (R246, R149). -/
def startUnit (d : Device) (e : Eng) (u : Dispatch) : Device :=
  match instOf d u.inst, threadOf d u.thread with
  | some x, some t =>
    let a := slotAddr d x u.slot
    updEng d e fun y =>
      let c := match t.ctx with
        | some c => c
        | none => firstCtx x (BitVec.ofNat 16 (y.codeBase.toNat + dF x 0x10 4))
      let y := { loadCtx { y with a := Vector.replicate 8 (Vector.replicate 16 0) } c with pc := y.pc, epc := c.pc }
      let y := setS (setS y 1 (BitVec.ofNat 64 u.first)) 2 (BitVec.ofNat 64 u.rows)
      let y := setS (setS y 3 (BitVec.ofNat 64 a)) 4 (BitVec.ofNat 64 (slotBytes x))
      let y := setS (setS y 5 (BitVec.ofNat 64 (u.seq % 2 ^ 32))) 6 (BitVec.ofNat 64 (dF x 0x38 8))
      { y with dispatch := some { u with started := true } }
  | _, _ => d

/-! ### Control registers (R92, R93) -/

/-- Whether a control register exists. -/
def crExists (n : BitVec 6) : Bool := decide (n ≤ 0x13)
/-- Registers with no thread-mode access. -/
def crKernel (n : BitVec 6) : Bool := decide (n ≤ 3) || n == 0x0a
/-- Registers that thread mode may only read. -/
def crReadOnly (n : BitVec 6) : Bool := decide (4 ≤ n) && decide (n ≤ 9)

/-- Whether an access of a control register raises ACC_CR. -/
def crFaults (m : Mode) (n : BitVec 6) (wr : Bool) : Bool :=
  !crExists n || (m == .thread && (crKernel n || (wr && crReadOnly n)))

/-- The value of a control register. -/
def crRead (d : Device) (e : Eng) (n : BitVec 6) : Dword :=
  let x := d.engines[e]
  if n = 0 then flag64 x.eie ||| (if x.rmode = .thread then 2 else 0)
  else if n = 1 then x.epc.setWidth 64
  else if n = 2 then x.ecause
  else if n = 3 then x.eval
  else if n = 4 then reg d BEAT_COUNT
  else if n = 5 then BitVec.ofNat 64 (bcycle d)
  else if n = 6 then BitVec.ofNat 64 d.cycle
  else if n = 7 then BitVec.ofNat 64 (e.val + 2 ^ 8 * (tileOf e).val + 2 ^ 14 * (partOf x).val)
  else if n = 8 then x.codeBase.setWidth 64
  else if n = 9 then x.codeLimit.setWidth 64
  else if n = 0x0a then 0
  else if n = 0x0b then x.vfcsr.setWidth 64
  else if n < 0x10 then (x.camr[n.toNat % 4]'(Nat.mod_lt _ (by omega))).setWidth 64
  else (x.camm[n.toNat % 4]'(Nat.mod_lt _ (by omega))).setWidth 64

/-- CAMRn after a write: the reserved encoding 0b11 leaves WIDTH as it is (R93, R10). -/
def camrPut (old : BitVec 18) (v : Dword) : BitVec 18 :=
  if v.extractLsb' 16 2 = 3 then old.extractLsb' 16 2 ++ v.setWidth 16 else v.setWidth 18

/-- An engine after a write of a control register other than MDONE; reserved and read-only bits stay. -/
def crWrite (x : Engine) (n : BitVec 6) (v : Dword) : Engine :=
  if n = 0 then { x with eie := v.getLsbD 0, rmode := if v.getLsbD 1 then .thread else .kernel }
  else if n = 1 then { x with epc := v.setWidth 16 &&& 0xfffc }
  else if n = 2 then { x with ecause := v &&& 0x3fffff }
  else if n = 3 then { x with eval := v }
  else if n = 8 then { x with codeBase := v.setWidth 17 &&& 0x1fffc }
  else if n = 9 then { x with codeLimit := v.setWidth 17 &&& 0x1fffc }
  else if n = 0x0b then { x with vfcsr := v.setWidth 9 &&& 0x1f3 }
  else if 0x0c ≤ n ∧ n < 0x10 then
    let k : Fin 4 := ⟨n.toNat % 4, Nat.mod_lt _ (by omega)⟩
    { x with camr := x.camr.set k (camrPut x.camr[k] v) }
  else if 0x10 ≤ n ∧ n < 0x14 then
    { x with camm := x.camm.set (n.toNat % 4) (v.setWidth 40) (Nat.mod_lt _ (by omega)) }
  else x

/-! ### Completion reports (R32, R247, R248) -/

/-- The unit statuses of R247. -/
def unitStatus (st : Nat) : Bool :=
  [0, 1, 2, 3, 4, 6, 9, 0xb].contains st || (decide (0x100 ≤ st) && decide (st ≤ 0x1ff))

/-- The status that the kernel reports for a unit that has ended with YIELD: steps 1 and 2 of R247 on s1[15:0] and s2.
-/
def yieldStatus (c : Ctx) (slot : Nat) : Nat :=
  let st := (c.s[1] : Dword).toNat % 2 ^ 16
  if slot < (c.s[2] : Dword).toNat then 4 else if unitStatus st then st else 3

/-- The status of a report: for a unit that has yielded the one the kernel gives it, else the one it carries. -/
def reportStatus (d : Device) (u : Dispatch) (v : Dword) : Nat :=
  match u.yielded, instOf d u.inst with
  | some c, some x => yieldStatus c (slotBytes x)
  | _, _ => field v 0 16

/-- Whether a report comes too late: on the cycle of the tick (R32). -/
def reportLate (d : Device) : Bool := decide (d.beat.lastTick + d.beat.length ≤ d.cycle)

/-- A report written to MDONE (R248). -/
def mdone (d : Device) (e : Eng) (v : Dword) : Device :=
  if reportLate d then d
  else if field v 16 8 != beatNow d % 256 then incRegSat d SCH_EVT1 52 12
  else match d.engines[e].dispatch with
    | none => d
    | some u =>
      if u.fate != .running then d
      else if field v 0 16 = 0xffff then replayUnit d e u
      else completeUnit d e u (reportStatus d u v) (bcycle d)

/-! ### The kernel's clean of a slot (R247) -/

/-- How far the kernel has come with a clean by address. -/
inductive Cleaned where
  | done
  | waits
  | faults (va : Dword)
  deriving DecidableEq, Repr

/-- Cleans one line by its engine address from L1 and then from the mezzanine. -/
def cleanAddr (d : Device) (e : Eng) (va : Nat) : Cleaned × Device :=
  match xlatMem d (partOf d.engines[e]) (va % 2 ^ 48) false with
  | (none, d) => (.faults (BitVec.ofNat 64 va), d)
  | (some pa, d) =>
    let a := lineOf pa
    let r := maintain d e true false false (lineKey d e false a) a
    if !r.2 then (.waits, r.1)
    else
      let q := maintain r.1 e true false true (lineKey r.1 e true a) a
      (if q.2 then .done else .waits, q.1)

/-- Cleans `n` lines one after another. -/
def cleanLines (d : Device) (e : Eng) (va : Nat) : Nat → Cleaned × Device
  | 0 => (.done, d)
  | n + 1 =>
    match cleanAddr d e va with
    | (.done, d) => cleanLines d e (va + 64) n
    | r => r

/-- Step 3 of R247, before a report that the port accepts: with the store buffer empty, bytes 0 to s2 - 1 of the slot
of a unit that has yielded with SUCCESS or LENGTH_MISMATCH are cleaned, so that they are visible to every agent. -/
def kernelClean (d : Device) (e : Eng) (v : Dword) : Cleaned × Device :=
  if reportLate d || field v 16 8 != beatNow d % 256 || field v 0 16 == 0xffff then (.done, d)
  else match d.engines[e].dispatch with
    | none => (.done, d)
    | some u =>
      match u.yielded, instOf d u.inst with
      | some c, some x =>
        let n := (c.s[2] : Dword).toNat
        if u.fate != .running || !goodStatus (reportStatus d u v) || n == 0 || outHandle x == 0 then (.done, d)
        else if !d.engines[e].sb.isEmpty then (.waits, d)
        else cleanLines d e (slotAddr d x u.slot) (ceilDiv n 64)
      | _, _ => (.done, d)

/-! ### Meanings -/

/-- FENCE (R104, R79): waits until the store buffer is empty. -/
def execFence (e : Eng) (f : CForm) (s : State) : Host.Outcome State Fault Refusal :=
  runEng e (.fence e f) (fun x => if x.sb.isEmpty then adv x else x) s

/-- IFLUSH (R62): later fetches read the code store as it stands. -/
def execIflush (e : Eng) (f : CForm) (s : State) : Host.Outcome State Fault Refusal :=
  runEng e (.iflush e f) (fun x => adv { x with stale := [] }) s

/-- The engine after a YIELD (R105): in thread mode it completes and enters the handler. -/
def yieldEng (x : Engine) : Engine :=
  let y := adv x
  match x.mode with
  | .kernel => y
  | .thread =>
    openEntry { y with dispatch := y.dispatch.map fun u => { u with yielded := some (ctxOf y) } } ⟨.yield, 0⟩

/-- YIELD (R104, R105, R247). What the kernel does then is carried out as it writes MDONE, in the CRW that does so
(`reportStatus`, `kernelClean`, `mdone`). -/
def execYield (e : Eng) (f : CForm) (s : State) : Host.Outcome State Fault Refusal :=
  runEng e (.yield e f) yieldEng s

/-- BEATWAIT (R106): the engine waits, with BEATWAIT the instruction at pc. -/
def execBeatwait (e : Eng) (f : CForm) (s : State) : Host.Outcome State Fault Refusal :=
  runEng e (.beatwait e f) (fun x => takePending { x with waiting := true }) s

/-- Whether the return into thread mode is to the first instruction of the engine's unit. -/
def startsUnit (x : Engine) : Option Dispatch :=
  match x.rmode, x.dispatch with
  | .thread, some u => if u.fate == .running && !u.started then some u else none
  | _, _ => none

/-- ERET (R107, R330): into thread mode it waits for the discard, and starts the dispatched unit with the state of
R246. -/
def execEret (e : Eng) (f : CForm) (s : State) : Host.Outcome State Fault Refusal :=
  runDev e (.eret e f) (fun d =>
    let x := d.engines[e]
    if x.rmode == .thread && x.discard then d
    else
      let d := match startsUnit x with
        | some u => startUnit d e u
        | none => d
      updEng d e handlerReturn) s

/-- CRR (R93). -/
def execCrr (e : Eng) (f : CForm) (s : State) : Host.Outcome State Fault Refusal :=
  runDev e (.crr e f) (fun d =>
    if crFaults d.engines[e].mode f.aux false then updEng d e fun x => note x .accCr (f.aux.setWidth 64)
    else
      let v := crRead d e f.aux
      updEng d e fun x => adv (setS x f.rd v)) s

/-- CRW (R93, R71); a write of MDONE is a completion report (R248), and waits until the kernel has cleaned the unit's
slot; a clean that faults halts the engine (R118, R247). -/
def execCrw (e : Eng) (f : CForm) (s : State) : Host.Outcome State Fault Refusal :=
  runDev e (.crw e f) (fun d =>
    let x := d.engines[e]
    if crFaults x.mode f.aux true then updEng d e fun x => note x .accCr (f.aux.setWidth 64)
    else
      let v := getS x f.rs1
      let step := fun d => updEng d e fun x => takePending (adv (crWrite x f.aux v))
      if f.aux = 0x0a then
        (match kernelClean d e v with
         | (.done, d) => mdone (step d) e v
         | (.waits, d) => d
         | (.faults va, d) => haltEngine d e ⟨.accIommu, va⟩)
      else step d) s

/-- A maintenance operation takes an entry of the store buffer, or waits for one (R76, R108, R326). A set/way operation
whose rs1 has a nonzero bit in [63:20] raises ILLEGAL_OPERAND (DESIGN CHOICE, log entry 126). -/
def maintInstr (e : Eng) (i : Instr) (f : CForm) (clean inv : Bool) (s : State) : Host.Outcome State Fault Refusal :=
  runDev e i (fun d =>
    let x := d.engines[e]
    let v := getS x f.rs1
    let mez := f.aux.getLsbD 1
    let put := fun (d : Device) line kind =>
      if 4 ≤ d.engines[e].sb.length then d
      else updEng d e fun x => adv { x with sb := x.sb ++ [⟨line, kind, x.mode == .thread, false⟩] }
    if f.aux.getLsbD 0 then
      let set := field v 0 16
      let way := field v 16 4
      if field v 20 44 != 0 || decide ((if mez then 256 else 128) ≤ set) || decide ((if mez then 16 else 4) ≤ way) then
        updEng d e fun x => note x .illegalOperand ((wordOf i).setWidth 64)
      else put d 0 (.maintWay clean inv mez set way)
    else if spaceOf v.toNat 1 != some .memory then updEng d e fun x => note x .accSpace v
    else match xlatMem d (partOf x) (v.toNat % 2 ^ 48) inv with
      | (none, d) => updEng d e fun x => note x .accIommu v
      | (some pa, d) => put d (lineOf pa) (.maintAddr clean inv mez)) s

/-- CLEAN (R108, R325). -/
def execClean (e : Eng) (f : CForm) (s : State) : Host.Outcome State Fault Refusal :=
  maintInstr e (.clean e f) f true false s

/-- INV (R108, R325). -/
def execInv (e : Eng) (f : CForm) (s : State) : Host.Outcome State Fault Refusal :=
  maintInstr e (.inv e f) f false true s

/-- CLINV (R108, R325). -/
def execClinv (e : Eng) (f : CForm) (s : State) : Host.Outcome State Fault Refusal :=
  maintInstr e (.clinv e f) f true true s

end Sys2Proof.Machine
end

