-- ==== Sys2Proof/Machine/EngineEvents.lean ====
section
/-! DEFINITION. What reaches an engine from outside its instruction stream: handler entry, error interrupts,
synchronous exceptions, kernel reload and the ENG_ registers (R65 to R74, R89, R115 to R118, R332, R576). -/

namespace Sys2Proof.Machine

open Sys2Proof

/-- HANDLER_ENTRY (R68, R70, R71): the first handler instruction enters F. -/
def execHandlerEntry (e : Eng) (s : State) : Host.Outcome State Fault Refusal :=
  act (whenRun fun d => updEng d e enterHandler) s

/-! ### Error interrupts -/

/-- A code-store word found with bad parity as its instruction first occupies X (R65, R67). -/
def codeParity (d : Device) (e : Eng) : Device :=
  let x := d.engines[e]
  if !fetches x || !fetchable x then d
  else
    let d := updEng d e fun x => { x with codeBad := insertNat x.codeBad (x.pc.toNat / 4) }
    if x.pc.toNat < 0x2000 then haltEngine d e ⟨.errCsParityK, x.pc.setWidth 64⟩
    else updEng (setReg d (ENG_ERR e.val) 0 1 1) e fun x => raiseError x ⟨.errCsParity, x.pc.setWidth 64⟩

/-- The poisoned fill of a waiting load returns (R102, R576). -/
def poisonError (d : Device) (e : Eng) : Device :=
  match d.engines[e].miss with
  | some m => if m.answer = some none then updEng d e fun x => poisonLoad x m else d
  | none => d

/-- An error of one kind at an engine; `val` is the physical line of a cache error. -/
def errorRaise (d : Device) (e : Eng) (k : ErrKind) (val : Nat) : Device :=
  match k with
  | .csParity => codeParity d e
  | .l1Parity =>
    (match l1Find d.engines[e] (lineOf val) with
     | some (n, l) => l1Error d e n l
     | none => d)
  | .mezParity =>
    (match mezFind d.mez[tileOf e] val with
     | some (n, l) => if l.sec[mezSec val].valid then mezError d (tileOf e) n l (mezSec val) else d
     | none => d)
  | .poison => poisonError d e

/-- Whether an error interrupt would open an entry of its own now (R71). -/
def entersNow (x : Engine) : Bool := x.run == .running && x.entry.isNone && x.eie

/-- ERROR_INTERRUPT_RAISE (R65, R71, R332, R576); where a split store of the engine stands between its halves, an entry
leaves it there (R82). -/
def execErrorInterruptRaise (e : Eng) (k : ErrKind) (x : ErrorFound) (s : State) : Host.Outcome State Fault Refusal :=
  act (whenRun fun d =>
    if d.engines[e].run = .running then
      let d' := errorRaise d e k x.val.toNat
      match x.cut with
      | some c =>
        if c.e = e ∧ entersNow d.engines[e] ∧ d'.engines[e].entry.isSome then errorRaise (cutStore d c) e k x.val.toNat
        else d'
      | none => d'
    else d) s

/-! ### Synchronous exceptions -/

/-- The fault of the oldest instruction: the one it carries, or what fetch and decode find at pc (R94, R96, R115).
Before an IFLUSH the new word of a changed one is decoded (DESIGN CHOICE, log entry 111). -/
def oldestFault (x : Engine) (e : Eng) : Option CauseVal :=
  match x.fault with
  | some c => some c
  | none =>
    if !fetches x then none
    else if !fetchable x then some ⟨.accFetch, x.pc.setWidth 64⟩
    else
      let w := codeWord x (x.pc.toNat / 4)
      if issuable x && (decodeSirto e w).isNone then some ⟨.illegalInstr, w.setWidth 64⟩ else none

/-- A synchronous fault is raised: an entry in thread mode, a halt in kernel mode (R67, R115, R118). -/
def raiseSync (d : Device) (e : Eng) : Device :=
  let x := d.engines[e]
  if x.run != .running || x.entry.isSome then d
  else match oldestFault x e with
    | none => d
    | some c =>
      match x.mode with
      | .kernel => haltEngine d e c
      | .thread => updEng d e fun x => openEntry x c

/-- SYNC_EXCEPTION_RAISE (R67, R115, R118). -/
def execSyncExceptionRaise (e : Eng) (s : State) : Host.Outcome State Fault Refusal :=
  act (whenRun fun d => raiseSync d e) s

/-! ### Kernel reload and the ENG_ registers -/

/-- The kernel region holds the kernel of the running image again: that of the image the part was made with where it
names no words of its own. -/
def loadKernel (k : Sparse InstrWord) (x : Engine) : Engine :=
  let own := fun n => if k.isEmpty then decide (n < 0x800) else (sfind k n).isSome
  let rest := x.code.filter fun c => !own c.1
  { x with code := k.foldl (fun l c => sput l c.1 c.2) rest, codeBad := x.codeBad.filter fun n => !own n
           stale := x.stale.filter fun c => !own c.1 }

/-- ENGINE_KERNEL_RELOAD (R67): the Warden reloads the kernel region of a halted engine and releases it at a later
tick. -/
def execEngineKernelReload (e : Eng) (s : State) : Host.Outcome State Fault Refusal :=
  act (whenRun fun d =>
    let x := d.engines[e]
    if x.run = .halted ∧ x.reload then
      setReg (updEng d e fun x => { loadKernel d.warden.image.kernel x with run := .held,
                                                                            reload := false }) (ENG_CTL e.val) 0 1 0
    else d) s

/-- ENG_CTL_WRITE (R89): HOLD and KWP. -/
def execEngCtlWrite (e : Eng) (w : RegAccess) (s : State) : Host.Outcome State Fault Refusal :=
  act (fun d => gatedPlain d (ENG_CTL e.val) w) s

/-- The word that ENG_CS_DATA accesses, and its increment. -/
def csWord (d : Device) (e : Eng) : Nat := regF d (ENG_CS_ADDR e.val) 2 14
def csStep (d : Device) (e : Eng) : Device :=
  if regF d (ENG_CS_ADDR e.val) 63 1 = 1 then setReg d (ENG_CS_ADDR e.val) 2 14 ((csWord d e + 1) % 2 ^ 14) else d

/-- A write of ENG_CS_DATA: only while the engine is held, and not to a protected kernel region (R66, R89). A write that
KWP makes ignored leaves WORD, and one of the upper half alone steps it (DESIGN CHOICE, log entry 111). -/
def csDataWrite (d : Device) (e : Eng) (w : RegAccess) : Device :=
  gateWrite d (ENG_CS_DATA e.val) w fun d =>
    let k := csWord d e
    if d.engines[e].run != .held || (decide (k < 0x800) && regF d (ENG_CTL e.val) 1 1 == 1) then d
    else match carried w 0 32 with
      | some v => csStep (updEng d e fun x =>
          { codePut x k (BitVec.ofNat 32 v) with stale := sdel x.stale k }) e
      | none => csStep d e

/-- ENG_CS_DATA_WRITE (R66, R89). -/
def execEngCsDataWrite (e : Eng) (w : RegAccess) (s : State) : Host.Outcome State Fault Refusal :=
  act (fun d => csDataWrite d e w) s

/-- What a read of ENG_CS_DATA returns. -/
def csDataValue (d : Device) (e : Eng) : Dword :=
  if d.engines[e].run = .held then (codeWord d.engines[e] (csWord d e)).setWidth 64 else 0

/-- A read of a register: its value and the device after it; a dead block answers all ones, a block that is not ready
`early`, a refused agent reads 0 (R358, R539, R545). -/
def gateRead (d : Device) (x : Nat) (ag : Agent) (early : Dword) (f : Device → Dword × Device) : Dword × Device :=
  match blkOf x with
  | none => (0, d)
  | some (b, i, off) =>
    if deadBlk d b i then (BitVec.allOnes 64, deadAccess d b i x)
    else if !ready d then (early, d)
    else if accepts b off ag false then f d
    else (0, refuse d b i false)

/-- A read of ENG_CS_DATA: one by the Warden advances WORD while the engine is held. -/
def csDataRead (d : Device) (e : Eng) (ag : Agent) : Dword × Device :=
  gateRead d (ENG_CS_DATA e.val) ag 0 fun d =>
    (csDataValue d e, if ag == .warden && d.engines[e].run == .held then csStep d e else d)

/-- ENG_CS_DATA_READ (R89, R542). -/
def execEngCsDataRead (e : Eng) (ag : Agent) (s : State) : Host.Outcome State Fault Refusal :=
  act (fun d => let r := csDataRead d e ag; { r.2 with readBack := r.1 }) s

end Sys2Proof.Machine
end

