-- ==== Sys2Proof/Machine/Streams.lean ====
section
/-! DEFINITION. Streams: descriptors, checks at open, reading through the mezzanine, decoding, delivery into landing
or the code store, ring buffers (R84 to R88, R109, R110, R163 to R180). -/

namespace Sys2Proof.Machine

open Sys2Proof

/-! ### Fields of a descriptor (R164) -/

def sF (x : Streamer) (b n : Nat) : Nat := lineRead x.desc b n
def isSieve (x : Streamer) : Bool := fieldN (sF x 0 1) 0 2 == 1
def isRing (x : Streamer) : Bool := fieldN (sF x 0 1) 2 1 == 1
def hintOf (x : Streamer) : Nat := fieldN (sF x 0 1) 3 2
def bufAddr (x : Streamer) : Nat := sF x 0x20 8
def bufBytes (x : Streamer) : Nat := sF x 0x28 4

/-- Changes streamer `k` of an engine. -/
def updStream (x : Engine) (k : StreamNo) (f : Streamer → Streamer) : Engine :=
  { x with streams := x.streams.set k.val (f x.streams[k]) }

/-- The stream fails with a status and keeps what it has delivered (R172). -/
def failStream (x : Streamer) (st : Nat) : Streamer :=
  { x with st := .failed, status := BitVec.ofNat 16 st, asked := [], stage := [], acc := 0, accLen := 0 }

/-- The stream has delivered its last byte. -/
def endStream (x : Streamer) : Streamer :=
  { x with st := .ended, status := x.endStatus, asked := [], stage := [] }

/-! ### SOPEN's checks of the buffer (R166) -/

/-- Where the space of a buffer's first byte ends; none where no stream may start there. -/
def targetEnd (kernel : Bool) (a : Nat) : Option Nat :=
  if a < 0x3e000 then some 0x3e000
  else if kernel && decide (a < 0x40000) then some 0x40000
  else if kernel && decide (0x102000 ≤ a) && decide (a < 0x110000) then some 0x110000
  else none

/-- The lowest byte of a buffer that no stream may write. -/
def bufferFault (x : Streamer) : Option Nat :=
  let n := bufBytes x + (if isRing x then 128 else 0)
  if n = 0 then none
  else match targetEnd x.kernel (bufAddr x) with
    | none => some (bufAddr x)
    | some z => if bufAddr x + n ≤ z then none else some z

/-- The cause of a buffer fault. -/
def bufferCause (kernel : Bool) (a : Nat) : Cause :=
  if !kernel && ((decide (0x3e000 ≤ a) && decide (a < 0x40000)) || (decide (0x100000 ≤ a) && decide (a < 0x110000)))
  then .accKernel else .accSpace

/-! ### Checks at open (R161, R167) -/

/-- Check 1: reserved fields and encodings of a descriptor. -/
def descWrong (x : Streamer) : Bool :=
  let z := fun b n => sF x b n != 0
  decide (2 ≤ fieldN (sF x 0 1) 0 2) || hintOf x == 3 || fieldN (sF x 0 1) 5 3 != 0 || z 4 4 || z 0x38 8 ||
  (!isRing x && z 0x2c 4) ||
  (if isSieve x then z 1 1 || z 2 1 || decide (2 ≤ sF x 3 1) || z 8 8 || z 0x10 8 || z 0x18 8
   else z 3 1 || z 0xd 3 || z 0x15 3 || z 0x1d 3 || z 0x30 8)

/-- Check 2: alignment of the buffer and size of a ring. -/
def bufferWrong (x : Streamer) : Bool :=
  bufAddr x % 64 != 0 ||
    (isRing x && !((List.range 8).any fun i => bufBytes x == 1024 * 2 ^ i))

/-- Whether a width lies in the range of its format. -/
def widthOk (f w : Nat) : Bool :=
  match f with
  | 1 => decide (1 ≤ w) && decide (w ≤ 40)
  | 2 => decide (41 ≤ w) && decide (w ≤ 64)
  | 3 => decide (1 ≤ w) && decide (w ≤ 32)
  | 4 => [8, 16, 32, 40, 64].contains w
  | 5 => [8, 16, 32, 64].contains w
  | 6 => w == 1
  | _ => false

/-- The least DATA_BYTES of a header. -/
def minData (f w rows blocks : Nat) : Nat := if f = 4 then 4 * blocks else ceilDiv (rows * w) 8

/-- Check 4: a header that R160, R161 or R157 rejects. -/
def headerWrong (h : Line) (size : Nat) : Bool :=
  let f := hdrFormat h
  lineRead h 0 2 != 0x5347 || lineRead h 2 1 != 1 || !widthOk f (hdrWidth h) || decide (4 ≤ lineRead h 5 1) ||
  lineRead h 6 2 != 0 || decide (2 ^ 40 ≤ hdrRows h) || decide (2 ^ 40 ≤ hdrDict h) ||
  decide (2 ^ 40 ≤ hdrValid h) || lineRead h 0x2c 4 != 0 ||
  decide (hdrBytes h < minData f (hdrWidth h) (hdrRows h) (hdrBlocks h)) || decide (size < hdrBytes h + 64) ||
  (f != 3 && hdrDict h != 0) || (f != 4 && hdrBlocks h != 0)

/-- Whether a stream's target is the code store. -/
def toCode (x : Streamer) : Bool := decide (0x100000 ≤ bufAddr x)

/-- Check 6: what may be streamed into the code store. -/
def codeWrong (x : Streamer) (f w : Nat) : Bool :=
  toCode x && (isSieve x || isRing x || f != 5 || !(w == 32 || w == 64))

/-- Check 7: the buffer's length for the declared rows at a delivered width. -/
def lengthWrong (x : Streamer) (rows d : Nat) : Bool :=
  let n := ceilDiv (rows * d) 8
  (!isRing x && decide (bufBytes x < n)) || decide (2 ^ 32 - 64 < n)

/-- Rows delivered and the status at the end (R168). -/
def rowRange (first count total : Nat) : Nat × Nat :=
  if count = 0 then (0, 0)
  else if total < first + count then (total - first, 9)
  else (count, 0)

/-! ### Reading through the mezzanine (R174, R336) -/

/-- A sector that a square holds, in its mezzanine or in its victim buffer. -/
def heldSector (d : Device) (t : Tile) (a : Nat) : Option Line :=
  match (match mezFind d.mez[t] a with
    | some (_, l) => if l.sec[mezSec a].valid then some l.sec[mezSec a].data else none
    | none => none) with
  | some x => some x
  | none =>
    match takeFirst (fun v => v.line == mezBase a && v.sec[mezSec a].valid) d.mez[t].vb with
    | some (v, _) => some v.sec[mezSec a].data
    | none => none

/-- A gallery read on a stream's behalf: a normal fill allocates there on a miss (R336, R392). -/
def streamRead (d : Device) (a : Nat) (p : Part) (alloc : Bool) : Option Line × Device :=
  let x := unitRead d a ⟨2, p, false⟩ .clean
  match x.1.get with
  | some l => (some l, if alloc && x.1.miss then
      galInstall x.2 (wayMask d (homeOf d a) p.val) ⟨a, l, false, false, 0, 2⟩ 2 else x.2)
  | none => (none, x.2)

/-- The four sectors of a line, from the square where it holds them and else from the gallery; none where one is
poisoned. -/
def sectorsFor (d : Device) (t : Tile) (a : Nat) (p : Part) (alloc : Bool) : List Nat → List (Option Line) × Device
  | [] => ([], d)
  | j :: rest =>
    let x := match heldSector d t (a + 64 * j) with
      | some l => (some l, d)
      | none => streamRead d (a + 64 * j) p alloc
    let y := sectorsFor x.2 t a p alloc rest
    (x.1 :: y.1, y.2)

/-- The invalid sectors of a mezzanine line receive clean data; a poisoned one stays invalid (R576). -/
def mezFillLine (d : Device) (t : Tile) (a age : Nat) (ss : List (Option Line)) : Device :=
  match mezFind d.mez[t] a with
  | none => d
  | some (k, l) => updMez d t fun m => { m with
      lines := sput m.lines k { l with
        age := age
        sec := Vector.ofFn fun j =>
          if l.sec[j].valid then l.sec[j]
          else match ss[j.val]?.getD none with
            | some x => ⟨true, false, false, 0, x, false⟩
            | none => l.sec[j] } }

/-- The data and the poisoned sectors of a line. -/
def lineOfSectors (ss : List (Option Line)) : BitVec 2048 × List Nat :=
  (BitVec.ofNat 2048 ((List.range 4).foldl (fun n j => n + ((ss[j]?.getD none).getD 0).toNat * 2 ^ (512 * j)) 0),
    (List.range 4).filter fun j => (ss[j]?.getD none).isNone)

/-- The sectors of a line, by number, that a square holds neither in its mezzanine nor in its victim buffer. -/
def missingSectors (d : Device) (t : Tile) (a : Nat) : List Nat :=
  (List.range 4).filter fun j =>
    (match mezFind d.mez[t] a with
      | some (_, l) => !(l.sec[j]?.getD noSector).valid
      | none => true) &&
    !d.mez[t].vb.any fun v => v.line == mezBase a && (v.sec[j]?.getD noSector).valid

/-- A line that misses fills the mezzanine under its hint: at age 0, or 3 for the stream hint; without allocation under
HINT 0b10 (R174, R316). None while the victim buffer has no place for what it displaces. -/
def streamFill (d : Device) (t : Tile) (a hint : Nat) (ss : List (Option Line)) : Option Device :=
  let age := if hint = 1 then 3 else 0
  if hint = 2 then some d
  else
    let d := incReg d (MEZ_EVT t.val) 0 32 1
    match mezFind d.mez[t] a with
    | some _ => some (mezFillLine d t a age ss)
    | none => (mezAlloc d t a age).map fun d => mezFillLine d t a age ss

/-- A 256-byte line for a stream under its hint: its data and its poisoned sectors. A line in the victim buffer is
served there, and its other sectors wait for it to leave unless they need no place (R324). None while the request
waits. -/
def streamLine (d : Device) (t : Tile) (a hint : Nat) (p : Part) : Option ((BitVec 2048 × List Nat) × Device) :=
  let d := [0, 1, 2, 3].foldl (fun d j => mezCheck d t (a + 64 * j)) d
  let hit := (missingSectors d t a).isEmpty
  let inVb := d.mez[t].vb.any fun v => v.line == mezBase a
  let d := if inVb then incReg d (MEZ_EVT t.val) 32 16 1 else d
  if !hit && inVb && hint != 2 then none
  else
    let x := sectorsFor d t a p (hint == 0) [0, 1, 2, 3]
    if hit then
      some (lineOfSectors x.1, match mezFind d.mez[t] a with
        | some (_, l) => mezFillLine d t a (if hint = 2 then l.age else 0) x.1
        | none => d)
    else (streamFill x.2 t a hint x.1).map fun d => (lineOfSectors x.1, d)

/-! ### The staging store (R174, R176) -/

/-- `n` segment bits from bit `b` as the staging store holds them: none while a line has not arrived, some none
where a sector of them is poisoned. -/
def stagedBits (x : Streamer) (b n : Nat) : Option (Option Nat) :=
  let l0 := b / 2048
  let ls := List.range ((b + n - 1) / 2048 + 1 - l0)
  if n = 0 then some (some 0)
  else if ls.any fun i => (sfind x.stage (l0 + i)).isNone then none
  else
    let secs := List.range ((b + n - 1) / 512 + 1 - b / 512)
    if secs.any fun i =>
        let s := b / 512 + i
        match sfind x.stage (s / 4) with
        | some l => l.2.contains (s % 4)
        | none => false then some none
    else
      let v := ls.foldl (fun v i =>
        match sfind x.stage (l0 + i) with
        | some l => v + l.1.toNat * 2 ^ (2048 * i)
        | none => v) 0
      some (some (fieldN v (b % 2048) n))

/-- Lines below a segment bit leave the staging store. -/
def unstage (x : Streamer) (b : Nat) : Streamer :=
  { x with stage := x.stage.filter fun l => decide (b / 2048 ≤ l.1) }

/-- The last segment line a stream may need. -/
def lastLine (x : Streamer) : Nat :=
  match x.rle, x.hdr with
  | some _, some h => (64 + hdrBytes h - 1) / 256
  | _, _ => (x.bitPos + x.bitsLeft - 1) / 2048

/-- A running stream keeps up to 16 lines requested or staged. -/
def issueLines (x : Streamer) : Nat → Streamer
  | 0 => x
  | n + 1 =>
    if x.st == .running && decide (x.asked.length + x.stage.length < 16) && decide (x.nextLine ≤ lastLine x) &&
        decide (0 < x.bitsLeft) then
      issueLines { x with asked := x.asked ++ [x.nextLine], nextLine := x.nextLine + 1 } n
    else x

/-! ### RLE (R163, R173, R451, R454) -/

/-- Element bytes and rows of a full block. -/
def rleE (x : Streamer) : Nat := match x.hdr with | some h => hdrWidth h / 8 | none => 1
def rleB (x : Streamer) : Nat := 65536 / rleE x

/-- The decoder goes on at another segment byte; requests start there. -/
def rleJump (x : Streamer) (r : RleState) : Streamer :=
  { x with rle := some r, asked := [], stage := [], nextLine := r.pos / 256 }

/-- Appends elements of `w` bits to the delivered bits. -/
def emit (x : Streamer) (w : Nat) (l : List Nat) : Streamer :=
  l.foldl (fun x v => if x.bitsLeft = 0 then x else
    { x with acc := x.acc + v * 2 ^ x.accLen, accLen := x.accLen + w, bitsLeft := x.bitsLeft - w }) x

/-- One step of the decoder; none while it waits for a line. -/
def rleStep (x : Streamer) (r : RleState) (h : Line) : Option Streamer :=
  let e := rleE x
  let get := fun n => stagedBits x (8 * r.pos) (8 * n)
  let wrong := some (failStream x 6)
  let poisoned := some (failStream x 0xb)
  let dataEnd := 64 + hdrBytes h
  match r.phase with
  | .table =>
    if hdrBlocks h ≤ r.block then wrong
    else (match get 4 with
      | none => none
      | some none => poisoned
      | some (some off) => some (rleJump x { r with phase := .header, pos := 64 + off }))
  | .header =>
    if dataEnd < r.pos + 16 then wrong
    else (match get 16 with
      | none => none
      | some none => poisoned
      | some (some v) =>
        let inB := fieldN v 32 32
        let body := fieldN v 64 32
        let fill := fieldN v 96 16
        let rows := min (rleB x) (hdrRows h - r.block * rleB x)
        if fieldN v 0 16 != 0x4c52 || fieldN v 16 8 != e || fieldN v 24 8 != 0 || fieldN v 112 16 != 0 ||
            inB != rows * e || decide (dataEnd < r.pos + 16 + body + fill) then wrong
        else some (unstage { x with rle := some { r with phase := .body body rows fill, pos := r.pos + 16 } }
          (8 * (r.pos + 16))))
  | .body left out fill =>
    if left = 0 then
      (if out = 0 then some { x with rle := some { r with phase := .filler fill } } else wrong)
    else (match get 1 with
      | none => none
      | some none => poisoned
      | some (some c) =>
        let n := c % 128 + 1
        let size := 1 + e * (if 128 ≤ c then 1 else n)
        if left < size || out < n then wrong
        else match get size with
          | none => none
          | some none => poisoned
          | some (some v) =>
            let elem := fun i => fieldN v (8 + 8 * e * (if 128 ≤ c then 0 else i)) (8 * e)
            let drop := min r.skip n
            let y := emit x (8 * e) ((List.range n).drop drop |>.map elem)
            some (unstage { y with rle := some { r with
              phase := .body (left - size) (out - n) fill, pos := r.pos + size, skip := r.skip - drop } }
              (8 * (r.pos + size))))
  | .filler left =>
    if left = 0 then some (rleJump x { r with phase := .table, block := r.block + 1, pos := 64 + 4 * (r.block + 1) })
    else (match get 1 with
      | none => none
      | some none => poisoned
      | some (some 0) => some (unstage { x with rle := some { r with phase := .filler (left - 1), pos := r.pos + 1 } }
          (8 * (r.pos + 1)))
      | some (some _) => wrong)

/-- The decoder runs until a unit is ready, a line is missing, or the rows are all there. -/
def rlePump (x : Streamer) : Nat → Streamer
  | 0 => x
  | n + 1 =>
    match x.rle, x.hdr with
    | some r, some h =>
      if decide (512 ≤ x.accLen) || x.bitsLeft == 0 || x.st == .failed then x
      else (match rleStep x r h with
        | some y => rlePump y n
        | none => x)
    | _, _ => x

/-! ### Delivery (R86, R169 to R171, R176, R178) -/

/-- Whether a ring has space for another unit. -/
def ringSpace (x : Streamer) : Bool :=
  !isRing x || decide ((x.filled + 64 + 2 ^ 32 - x.consumed.toNat) % 2 ^ 32 ≤ bufBytes x)

/-- RUNNING or BLOCKED by the space in a ring. -/
def blockState (x : Streamer) : Streamer :=
  match x.st with
  | .running => if ringSpace x then x else { x with st := .blocked }
  | .blocked => if ringSpace x then { x with st := .running } else x
  | _ => x

/-- The next unit of a stream: its bits and their number; none while it has none, some none where they are
poisoned. -/
def nextUnit (x : Streamer) (more : Bool) : Option (Option (Nat × Nat)) :=
  if x.st != .running then none
  else if x.rle.isSome || isSieve x then
    (if 512 ≤ x.accLen then some (some (x.acc % 2 ^ 512, 512))
     else if !more && decide (0 < x.accLen) then some (some (x.acc, x.accLen))
     else none)
  else
    let n := min 512 x.bitsLeft
    if n = 0 then none
    else match stagedBits x x.bitPos n with
      | none => none
      | some none => some none
      | some (some v) => some (some (v, n))

/-- Padding after the last byte (R171). -/
def padBytes (x : Streamer) (n : Nat) : Nat :=
  let to16 := (16 - (x.filled + n) % 16) % 16
  if isRing x then to16 else min to16 (bufBytes x - (x.filled + n))

/-- A code-store word after its first `n` bytes have been written. -/
def wordPart (old : InstrWord) (v n : Nat) : InstrWord :=
  let m := 2 ^ (8 * min 4 n)
  BitVec.ofNat 32 (v % m + old.toNat / m * m)

/-- Writes `n` bytes at an offset of the buffer, and the tail mirror's copy (R178). -/
def putBuffer (y : Engine) (x : Streamer) (off n v : Nat) : Engine :=
  if toCode x then
    (List.range (ceilDiv n 4)).foldl (fun y i =>
      let k := (bufAddr x + off - 0x100000) / 4 + i
      codePut y k (wordPart (codeWord y k) (v / 2 ^ (32 * i)) (n - 4 * i))) y
  else
    let y := { y with landing := mwrite y.landing (bufAddr x + off) n v }
    if isRing x && decide (off < 128) then
      { y with landing := mwrite y.landing (bufAddr x + bufBytes x + off) n v }
    else y

/-- Writes one unit of stream `k` and moves on. -/
def putUnit (y : Engine) (k : StreamNo) (v bits : Nat) (last : Bool) : Engine :=
  let x := y.streams[k]
  let n := ceilDiv bits 8
  let pad := if last then padBytes x n else 0
  let off := if isRing x then x.filled % bufBytes x else x.filled
  let y := putBuffer y x off (n + pad) v
  updStream y k fun x =>
    let x := { x with filled := x.filled + n }
    if x.rle.isSome || isSieve x then { x with acc := x.acc / 2 ^ bits, accLen := x.accLen - bits }
    else unstage { x with bitPos := x.bitPos + bits, bitsLeft := x.bitsLeft - bits } (x.bitPos + bits)

/-- A running stream decodes and requests on; a blocked one does neither (R176). -/
def goOn (x : Streamer) : Streamer := if x.st == .running then issueLines (rlePump x 8192) 16 else x

/-- The 4 bytes of CONSUMED in landing (R176). -/
def readConsumed (y : Engine) (x : Streamer) : BitVec 32 := BitVec.ofNat 32 (mread y.landing (x.descAt + 0x2c) 4)

/-- A poll of CONSUMED (R176, R177). -/
def pollStream (y : Engine) (k : StreamNo) : Engine :=
  let x := y.streams[k]
  if (x.st == .running || x.st == .blocked) && isRing x then
    let c := readConsumed y x
    updStream y k fun x =>
      let x := { x with consumed := c }
      if bufBytes x < (x.filled + 2 ^ 32 - c.toNat) % 2 ^ 32 then failStream x 3
      else goOn (blockState x)
  else y

/-! ### SOPEN, SWAIT -/

/-- The lowest-numbered free streamer (DESIGN CHOICE, log entry 5). -/
def freeStream (y : Engine) : Option StreamNo :=
  [(0 : StreamNo), 1, 2, 3].find? fun k => y.streams[k].st == .free

/-- The job a sieve stream names: the one at this address that is already at the engine, or a new one (R190). -/
def attachJob (y : Engine) (k : StreamNo) : Engine :=
  let x := y.streams[k]
  if !isSieve x then y
  else
    let a := sF x 0x30 8
    match takeFirst (fun j => j.addr == a) y.jobs with
    | some (j, _) =>
      updStream { y with jobs := y.jobs.map fun i => if i.addr = a then { i with att := i.att ++ [k] } else i } k
        fun x =>
          let x := { x with job := some j.owner }
          match j.failed with
          | some st => failStream x st.toNat
          | none => x
    | none =>
      updStream { y with jobs := y.jobs ++ [{
        owner := k, addr := a, desc := none, att := [k], sent := false, handle := 0, rows := 0, first := 0,
        endStatus := 0, low := 0, last := 0, got := [], row := 0, selected := 0, failed := none, told := false,
        was := BitVec.ofNat 2048 (mread y.landing a 256) }] } k
        fun x => { x with job := some k }

/-- SOPEN after its checks: a free streamer takes the descriptor (R88, R109, R165, R166). -/
def openStream (y : Engine) (rd : BitVec 5) (a : Nat) : Engine :=
  match freeStream y with
  | none => y
  | some k =>
    let x : Streamer := { freeStreamer with
      st := .opening, kernel := y.mode == .kernel, descAt := a, desc := mline y.landing a }
    let x := { x with consumed := BitVec.ofNat 32 (sF x 0x2c 4) }
    match bufferFault x with
    | some b => note y (bufferCause x.kernel b) (BitVec.ofNat 64 b)
    | none => adv (setS (attachJob (updStream y k fun _ => x) k) rd (BitVec.ofNat 64 k.val))

/-- SOPEN (R88, R109, R164 to R166). -/
def execSopen (e : Eng) (f : CForm) (s : State) : Host.Outcome State Fault Refusal :=
  runEng e (.sopen e f) (fun y =>
    let v := getS y f.rs1
    let a := v.toNat
    if 0x40000 < a + 64 then note y .accSpace v
    else if y.mode == .thread && decide (0x3e000 < a + 64) then note y .accKernel v
    else if a % 64 != 0 then note y .align v
    else openStream y f.rd a) s

/-- The stream number a register names; none where bits above [1:0] are set. -/
def streamArg (v : Dword) : Option StreamNo :=
  if v.toNat < 4 then some ⟨v.toNat % 4, Nat.mod_lt _ (by omega)⟩ else none

/-- The result of SWAIT; none while it waits (R110, R180). -/
def swaitResult (x : Streamer) (want : Nat) : Option Dword :=
  let r := fun st e => some (BitVec.ofNat 64 (x.filled % 2 ^ 32 + st * 2 ^ 32 + (if e then 2 ^ 63 else 0)))
  match x.st with
  | .free => some (BitVec.ofNat 64 (2 * 2 ^ 32 + 2 ^ 63))
  | .opening => none
  | .running => if want ≤ x.filled then r 0 false else none
  | .blocked => if want ≤ x.filled then r 0 false else none
  | .ended => r x.status.toNat true
  | .failed => r x.status.toNat true

/-- SWAIT (R109, R110, R180). -/
def execSwait (e : Eng) (f : CForm) (s : State) : Host.Outcome State Fault Refusal :=
  runEng e (.swait e f) (fun y =>
    match streamArg (getS y f.rs1) with
    | none => note y .illegalOperand ((wordOf (.swait e f)).setWidth 64)
    | some k =>
      match swaitResult y.streams[k] (getS y f.rs2).toNat with
      | some v => adv (setS y f.rd v)
      | none => y) s

end Sys2Proof.Machine
end

