-- ==== Sys2Proof/Machine/Sieve.lean ====
section
/-! DEFINITION. Opening of streams, their lines and units, and the sieve units at the memory channels
(R159, R167 to R179, R183 to R203). -/

namespace Sys2Proof.Machine

open Sys2Proof

/-! ### The job descriptor (R183 to R187) -/

/-- Field of `n` bytes at byte `b` of a job descriptor. -/
def jobF (v : BitVec 2048) (b n : Nat) : Nat := fieldN v.toNat (8 * b) (8 * n)

/-- Field of term record `k`. -/
def termF (v : BitVec 2048) (k b n : Nat) : Nat := jobF v (0x40 + 16 * k + b) n

/-- OUTPUTS: 1 bitmap, 2 codes, 3 both. -/
def jobOutputs (v : BitVec 2048) : Nat := fieldN (jobF v 0 1) 0 2
def jobFormat (v : BitVec 2048) : Nat := jobF v 1 1
def jobWidth (v : BitVec 2048) : Nat := jobF v 2 1

/-- Where a job descriptor may lie (R185). -/
def jobAreaOk (kernel : Bool) (a : Nat) : Bool :=
  a % 64 == 0 && (decide (a + 256 ≤ 0x3e000) ||
    (kernel && decide (0x3e000 ≤ a) && decide (a + 256 ≤ 0x40000)))

/-- A term record that R185 rejects. -/
def termWrong (v : BitVec 2048) (k : Nat) : Bool :=
  let op := termF v k 0 1
  let inset := op == 8 || op == 9
  let n := termF v k 3 1
  decide (9 < op) || decide (2 ≤ termF v k 1 1) || termF v k 0xc 4 != 0 ||
  (op != 7 && termF v k 8 4 != 0) ||
  (if inset then n == 0 || decide (16 < n) || decide (32 < termF v k 2 1 + n) else termF v k 2 1 != 0 || n != 0)

/-- A job descriptor that R185 rejects. -/
def jobWrong (v : BitVec 2048) : Bool :=
  let z := fun b n => jobF v b n != 0
  jobOutputs v == 0 || fieldN (jobF v 0 1) 2 6 != 0 || z 3 1 || z 6 2 || z 0xd 3 || z 0x15 3 || z 0x1d 3 ||
  z 0x24 28 || !([1, 3, 5, 6].contains (jobFormat v)) || decide (32 < jobWidth v) ||
  [0, 1, 2, 3].any fun k => termWrong v k

/-- A number of `w` bits read as signed or unsigned (R186). -/
def sxInt (signed : Bool) (w v : Nat) : Int :=
  if signed && decide (2 ^ (w - 1) ≤ v) then Int.ofNat v - Int.ofNat (2 ^ w) else Int.ofNat v

/-- One term on one code (R184, R186). -/
def termHolds (v : BitVec 2048) (k code : Nat) : Bool :=
  let sg := fieldN (termF v k 1 1) 0 1 == 1
  let x := sxInt sg (jobWidth v) code
  let a := sxInt sg 32 (termF v k 4 4)
  let b := sxInt sg 32 (termF v k 8 4)
  let member := (List.range (termF v k 3 1)).any fun m =>
    x == sxInt sg 32 (jobF v (0x80 + 4 * (termF v k 2 1 + m)) 4)
  match termF v k 0 1 with
  | 1 => x == a
  | 2 => x != a
  | 3 => decide (x < a)
  | 4 => decide (x ≤ a)
  | 5 => decide (a < x)
  | 6 => decide (a ≤ x)
  | 7 => decide (a ≤ x) && decide (x ≤ b)
  | 8 => member
  | 9 => !member
  | _ => false

/-- Whether a row with this code is selected (R187). -/
def rowSelected (v : BitVec 2048) (code : Nat) : Bool :=
  let t := fun k => if termHolds v k code then 2 ^ k else 0
  (jobF v 4 2).testBit (t 0 + t 1 + t 2 + t 3)

/-! ### Rows and interleave pieces (R193, R194) -/

/-- First segment bit of a row. -/
def rowBit (w r : Nat) : Nat := 512 + r * w
/-- The interleave piece a row belongs to: pieces of 4 KiB, 32,768 bits. -/
def rowPiece (w r : Nat) : Nat := rowBit w r / 32768

/-- Rows that belong to piece `k`, as first row and one past the last, within a job's range. -/
def pieceRows (w first rows k : Nat) : Nat × Nat :=
  let from_ := ceilDiv (32768 * k - 512) w
  let upto := ceilDiv (32768 * (k + 1) - 512) w
  (max first from_, min (first + rows) upto)

/-- Segment bits of a job's rows that lie in piece `k`. -/
def pieceBits (w first rows k : Nat) : Nat × Nat :=
  (max (32768 * k) (rowBit w first), min (32768 * (k + 1)) (rowBit w (first + rows)))

/-! ### Jobs at their engine -/

def jobOf (y : Engine) (o : StreamNo) : Option SieveJob := (takeFirst (fun j => j.owner == o) y.jobs).map (·.1)

def updJob (y : Engine) (o : StreamNo) (f : SieveJob → SieveJob) : Engine :=
  { y with jobs := y.jobs.map fun j => if j.owner = o then f j else j }

/-- A stream that has not ended or failed. -/
def streamLive (x : Streamer) : Bool := x.st == .opening || x.st == .running || x.st == .blocked

/-- The job fails: its streams fail with its status, and no channel works for it. -/
def failJob (d : Device) (e : Eng) (o : StreamNo) (st : Nat) : Device :=
  let d := dropChanJobs d fun j => j.eng == e && j.owner == o
  updEng d e fun y =>
    match jobOf y o with
    | none => y
    | some j =>
      let y := updJob y o fun j => { j with failed := some (BitVec.ofNat 16 st) }
      j.att.foldl (fun y k => updStream y k fun x => if streamLive x then failStream x st else x) y

/-- The partition that streams of an engine belong to. -/
def engSeg (d : Device) (e : Eng) (h : Nat) : Option Segment := segOf d (partOf d.engines[e]).val h

/-- The segment an open stream or job reads. -/
def openSeg (d : Device) (e : Eng) (h : Nat) : Option Segment := segHeld d (partOf d.engines[e]).val h

/-- The code of a row whose bits the arrived pieces hold: none while a piece is missing, some none where a line of
it is poisoned. -/
def rowCode (j : SieveJob) (w r : Nat) : Option (Option Nat) :=
  let b := rowBit w r
  let k := b / 32768
  let last := (b + w - 1) / 32768
  let find := fun n => (takeFirst (fun (p : PieceData) => p.piece == n) j.got).map (·.1)
  let hurt := fun (p : PieceData) =>
    match p.poison with
    | some o => decide (32768 * p.piece + 8 * o < b + w)
    | none => false
  match find k, find last with
  | some p, some q =>
    if hurt p || hurt q then some none
    else some (some (fieldN (p.bits + q.bits * (if last = k then 0 else 2 ^ 32768)) (b - 32768 * k) w))
  | _, _ => none

/-- Appends bits to what waits to be written. -/
def pushBits (x : Streamer) (n v : Nat) : Streamer := { x with acc := x.acc + v * 2 ^ x.accLen, accLen := x.accLen + n }

/-- One stream takes an evaluated row: a bit of the bitmap, or the code of a selected row (R191). -/
def takeRow (x : Streamer) (w code : Nat) (sel : Bool) : Streamer :=
  if sF x 3 1 = 0 then pushBits x 1 (if sel then 1 else 0)
  else if sel then pushBits x w code
  else x

/-- Rows are evaluated in order until a unit is ready, a piece is missing, or the rows are all done; a poisoned row
stops with `true`, and the selected boundary rows are listed by piece. -/
def jobPump (y : Engine) (o : StreamNo) : Nat → Engine × Bool × List Nat
  | 0 => (y, false, [])
  | n + 1 =>
    match jobOf y o with
    | none => (y, false, [])
    | some j =>
      match j.desc with
      | none => (y, false, [])
      | some v =>
        let w := jobWidth v
        let r := j.first + j.row
        if decide (j.rows ≤ j.row) || j.att.any (fun k => decide (512 ≤ y.streams[k].accLen)) then (y, false, [])
        else match rowCode j w r with
          | none => (y, false, [])
          | some none => (y, true, [])
          | some (some c) =>
            let sel := rowSelected v c
            let y := j.att.foldl (fun y k => updStream y k fun x => takeRow x w c sel) y
            let y := updJob y o fun j => { j with
              row := j.row + 1, selected := if sel then j.selected + 1 else j.selected
              got := j.got.filter fun p => decide (rowPiece w (r + 1) ≤ p.piece) }
            let z := jobPump y o n
            if sel && (rowBit w r + w - 1) / 32768 != rowPiece w r then (z.1, z.2.1, rowPiece w r :: z.2.2) else z

/-- A job whose rows are all delivered to one of its streams writes SELECTED before that stream ends (R196). -/
def tellSelected (y : Engine) (o : StreamNo) : Engine :=
  match jobOf y o with
  | none => y
  | some j =>
    if j.told then y
    else updJob { y with landing := mwrite y.landing (j.addr + 0x20) 4 j.selected } o fun j => { j with told := true }

/-- Streams of a job that have delivered everything end. -/
def endJobStreams (y : Engine) (o : StreamNo) : Engine :=
  match jobOf y o with
  | none => y
  | some j =>
    if j.row < j.rows || !j.sent then y
    else j.att.foldl (fun y k =>
      let x := y.streams[k]
      if x.st == .running && x.accLen == 0 then updStream (tellSelected y o) k endStream else y) y

/-- Channel of interleave piece `k` of a segment. -/
def pieceChan (d : Device) (s : Segment) (k : Nat) : Chan := chanOf d (segPhys s (4096 * k))

/-- The rows of a job move on as far as they can. -/
def runJob (d : Device) (e : Eng) (o : StreamNo) : Device :=
  match jobOf d.engines[e] o with
  | none => d
  | some j =>
    let r := jobPump d.engines[e] o 294913
    let d := updEng d e fun _ => r.1
    let d := match openSeg d e j.handle with
      | some s => r.2.2.foldl (fun d k => incReg d (SIEVE_SEL (pieceChan d s k).val) 0 64 1) d
      | none => d
    if r.2.1 then failJob d e o 0xb
    else updEng d e fun y =>
      let y := endJobStreams y o
      j.att.foldl (fun y k => updStream y k blockState) y

/-! ### Opening (R167, R185, R190) -/

def updSieve (d : Device) (c : Chan) (f : Sieve → Sieve) : Device :=
  { d with sieves := d.sieves.set c.val (f d.sieves[c]) }

/-- Whether a job waits for a second stream. -/
def jobNeeds (v : BitVec 2048) : Nat := if jobOutputs v = 3 then 2 else 1

/-- The faults of R190 on one stream of a job. -/
def attachWrong (y : Engine) (k : StreamNo) (j : SieveJob) (v : BitVec 2048) : Bool :=
  let out := sF y.streams[k] 3 1
  let before := j.att.takeWhile (· != k)
  !(jobOutputs v).testBit out || (jobOutputs v != 3 && !before.isEmpty) ||
    before.any fun i => sF y.streams[i] 3 1 == out

/-- The job goes to every channel that holds a piece of its rows, and its streams run (R189, R193). -/
def sendJob (d : Device) (e : Eng) (o : StreamNo) (s : Segment) : Device :=
  match jobOf d.engines[e] o with
  | none => d
  | some j =>
    match j.desc with
    | none => d
    | some v =>
      let w := jobWidth v
      let rows := j.rows
      let k0 := rowPiece w j.first
      let k1 := (rowBit w (j.first + rows) - 1) / 32768
      let d := updEng d e fun y =>
        let y := updJob y o fun j => { j with sent := true, low := k0, last := k1 }
        j.att.foldl (fun y k => updStream y k fun x => blockState { x with st := .running }) y
      if rows = 0 then updEng d e fun y => endJobStreams y o
      else
        let ks := (List.range (k1 + 1 - k0)).map (k0 + ·)
        (List.finRange 16).foldl (fun d c =>
          let mine := ks.filter fun k => pieceChan d s k == c
          if mine.isEmpty then d
          else updSieve d c fun s => { s with sent := s.sent ++ [⟨e, o, mine, 0, 0, false, false, []⟩] }) d

/-- The streams of an engine that a handle concerns note it (R159, R238). -/
def noteHandle (d : Device) (e : Eng) (ks : List StreamNo) (h : Nat) : Device :=
  updEng d e fun y => ks.foldl (fun y k => updStream y k fun x => { x with handle := h }) y

/-- Checks 3 to 5 on a handle, format and width: the segment and its header, a status, or neither while the segment
is being brought in or its header waits. The header is read through the mezzanine under the streams' hint (R174). -/
def openChecks (d : Device) (e : Eng) (ks : List StreamNo) (h f w hint : Nat) :
    (Option (Sum Nat (Segment × Line))) × Device :=
  match engSeg d e h with
  | none => (some (.inl 2), d)
  | some s =>
    let d := noteHandle (updSeg d h fun s => { cancelOut s with last := beatNow d }) e ks h
    if !isResident s then (none, askSystem d (pageInWork h))
    else match streamLine d (tileOf e) (segPhys s 0) hint (partOf d.engines[e]) with
      | none => (none, d)
      | some (v, d) =>
        let l := v.1.setWidth 512
        if v.2.contains 0 then (some (.inl 0xb), d)
        else if headerWrong l (segBytes s) || hdrFormat l != f || hdrWidth l != w then (some (.inl 3), d)
        else (some (.inr (s, l)), d)

/-- A segment stream whose checks passed starts, or ends at once with no rows. -/
def startSegment (x : Streamer) (l : Line) : Streamer :=
  let first := sF x 0x10 5
  let r := rowRange first (sF x 0x18 5) (hdrRows l)
  let w := hdrWidth l
  let x := { x with hdr := some l, handle := sF x 8 8, rows := r.1, endStatus := BitVec.ofNat 16 r.2,
                    bitsLeft := r.1 * w }
  if r.1 = 0 then endStream x
  else
    let x := { x with st := .running }
    if hdrFormat l = 4 then
      issueLines (blockState (rleJump x
        ⟨.table, 64 + 4 * (first / rleB x), first % rleB x, first / rleB x⟩)) 16
    else
      let b := 512 + first * w
      issueLines (blockState { x with bitPos := b, nextLine := b / 2048 }) 16

/-- The header of a KIND SEGMENT stream has been read. -/
def openSegment (d : Device) (e : Eng) (k : StreamNo) : Device :=
  let x := d.engines[e].streams[k]
  let fail := fun (d : Device) st => updEng d e fun y => updStream y k fun x => failStream x st
  if descWrong x || bufferWrong x then fail d 3
  else match openChecks d e [k] (sF x 8 8) (sF x 1 1) (sF x 2 1) (hintOf x) with
    | (none, d) => d
    | (some (.inl st), d) => fail d st
    | (some (.inr (_, l)), d) =>
      if codeWrong x (hdrFormat l) (hdrWidth l) then fail d 3
      else if lengthWrong x (sF x 0x18 5) (hdrWidth l) then fail d 4
      else updEng d e fun y => updStream y k fun x => startSegment x l

/-- The job starts once every stream it needs has passed its checks. -/
def startJob (d : Device) (e : Eng) (o : StreamNo) (v : BitVec 2048) : Device :=
  match jobOf d.engines[e] o with
  | none => d
  | some j =>
    if j.sent || j.att.length != jobNeeds v || !j.att.all (fun i => d.engines[e].streams[i].hdr.isSome) then d
    else match openSeg d e j.handle with
      | some s => sendJob d e o s
      | none => d

/-- A stream that its job cannot take fails, and the job goes on without it (R190). -/
def dropStream (d : Device) (e : Eng) (k o : StreamNo) (v : BitVec 2048) : Device :=
  startJob (updEng d e fun y => updJob (updStream y k fun x => failStream { x with job := none } 3) o fun j =>
    { j with att := j.att.filter (· != k) }) e o v

/-- One stream of a job passes its checks; the job starts when every stream it needs has. -/
def passSieve (d : Device) (e : Eng) (k o : StreamNo) (v : BitVec 2048) (l : Line) : Device :=
  let r := rowRange (jobF v 0x10 5) (jobF v 0x18 5) (hdrRows l)
  let d := updEng d e fun y =>
    let y := updStream y k fun x => { x with
      hdr := some l, handle := jobF v 8 8, rows := r.1, endStatus := BitVec.ofNat 16 r.2 }
    updJob y o fun j => { j with
      handle := jobF v 8 8, rows := r.1, first := jobF v 0x10 5, endStatus := BitVec.ofNat 16 r.2 }
  startJob d e o v

/-- The header of a KIND SIEVE stream has been read. -/
def openSieve (d : Device) (e : Eng) (k : StreamNo) : Device :=
  let y := d.engines[e]
  let x := y.streams[k]
  match x.job with
  | none => updEng d e fun y => updStream y k fun x => failStream x 3
  | some o =>
    match jobOf y o with
    | none => updEng d e fun y => updStream y k fun x => failStream x 1
    | some j =>
      match j.failed with
      | some st => updEng d e fun y => updStream y k fun x => failStream x st.toNat
      | none =>
        match j.desc with
        | none => if jobAreaOk x.kernel j.addr then d else failJob d e o 3
        | some v =>
          if k ≠ o && !jobWrong v && attachWrong y k j v then dropStream d e k o v
          else if descWrong x || bufferWrong x || !jobAreaOk x.kernel j.addr || jobWrong v || attachWrong y k j v then
            failJob d e o 3
          else match openChecks d e j.att (jobF v 8 8) (jobFormat v) (jobWidth v) (hintOf x) with
            | (none, d) => d
            | (some (.inl st), d) => failJob d e o st
            | (some (.inr (_, l)), d) =>
              if codeWrong x (hdrFormat l) (hdrWidth l) then failJob d e o 3
              else if lengthWrong x (jobF v 0x18 5) (if sF x 3 1 = 0 then 1 else jobWidth v) then failJob d e o 4
              else passSieve d e k o v l

/-- STREAM_HEADER_ARRIVAL (R167, R168, R185, R190, R306). -/
def execStreamHeaderArrival (e : Eng) (k : StreamNo) (s : State) : Host.Outcome State Fault Refusal :=
  act (whenServed fun d =>
    let x := d.engines[e].streams[k]
    if x.st != .opening || x.hdr.isSome then d
    else if isSieve x then openSieve d e k
    else openSegment d e k) s

/-- A copy of 256 bytes whose 16-byte units are each taken from the later value where their bit is 1, and else from the
earlier one (R189). -/
def mixUnits (was now : Nat) (late : BitVec 16) : Nat :=
  (List.range 16).foldl (fun n i =>
    n + fieldN (if late.getLsbD i then now else was) (128 * i) 128 * 2 ^ (128 * i)) 0

/-- SIEVE_JOB_COPY (R189): the streamer that first names the job copies its 256 bytes, each unit as it stands now or as
it stood at SOPEN. -/
def execSieveJobCopy (e : Eng) (x : JobCopy) (s : State) : Host.Outcome State Fault Refusal :=
  act (whenRun fun d => updEng d e fun y =>
    updJob y x.stream fun j =>
      if j.desc.isNone && j.failed.isNone && jobAreaOk y.streams[x.stream].kernel j.addr then
        { j with desc := some (BitVec.ofNat 2048 (mixUnits j.was.toNat (mread y.landing j.addr 256) x.late)) }
      else j) s

/-- A stream of a job that its poll of CONSUMED fails takes the job with it (R191). -/
def pollJob (d : Device) (e : Eng) (k : StreamNo) : Device :=
  match d.engines[e].streams[k].job with
  | none => d
  | some o =>
    if d.engines[e].streams[k].st == .failed then failJob d e o 3 else runJob d e o

/-- STREAM_CONSUMED_POLL (R176, R177, R191). -/
def execStreamConsumedPoll (e : Eng) (k : StreamNo) (s : State) : Host.Outcome State Fault Refusal :=
  act (whenRun fun d =>
    if streamLive d.engines[e].streams[k] then pollJob (updEng d e fun y => pollStream y k) e k else d) s

/-! ### Lines and units -/

/-- A stream after one of its units has been written: it ends with its last byte, and without space it is blocked. -/
def afterUnit (x : Streamer) : Streamer :=
  if x.st == .running && x.bitsLeft == 0 && x.accLen == 0 then endStream x
  else
    let x := goOn (blockState x)
    if x.st == .running && x.bitsLeft == 0 && x.accLen == 0 then endStream x else x

/-- STREAM_LINE_ARRIVAL (R174, R176): a line asked for reaches the staging store. -/
def execStreamLineArrival (e : Eng) (k : StreamNo) (line : Nat) (s : State) : Host.Outcome State Fault Refusal :=
  act (whenServed fun d =>
    let x := d.engines[e].streams[k]
    if !x.asked.contains line then d
    else match openSeg d e x.handle with
      | none => d
      | some g =>
        match streamLine d (tileOf e) (segPhys g (256 * line)) (hintOf x) (partOf d.engines[e]) with
        | none => d
        | some r => updEng r.2 e fun y => updStream y k fun x =>
            goOn { x with asked := x.asked.erase line, stage := sput x.stage line r.1 }) s

/-- Whether a stream's rows are all taken from its source. -/
def sourceDone (y : Engine) (x : Streamer) : Bool :=
  match x.job with
  | some o => (match jobOf y o with
      | some j => decide (j.rows ≤ j.row)
      | none => true)
  | none => x.bitsLeft == 0

/-- The streamer whose turn it is among those with a unit ready (R86). -/
def grantee (y : Engine) : Option StreamNo :=
  [0, 1, 2, 3].map (fun (i : StreamNo) => y.grant + i) |>.find? fun k =>
    (nextUnit y.streams[k] (!sourceDone y y.streams[k])).isSome

/-- A unit of stream `k` is written, and the stream moves on. -/
def writeUnit (d : Device) (e : Eng) (k : StreamNo) : Device :=
  let y := d.engines[e]
  let x := y.streams[k]
  let d := updEng d e fun y => { y with grant := k + 1 }
  match nextUnit x (!sourceDone y x) with
  | none => d
  | some none => updEng d e fun y => updStream y k fun x => failStream x 0xb
  | some (some (v, bits)) =>
    let last := if x.rle.isSome || isSieve x then sourceDone y x && x.accLen == bits else x.bitsLeft == bits
    let d := updEng d e fun y => putUnit y k v bits last
    match x.job with
    | some o => runJob d e o
    | none => updEng d e fun y => updStream y k afterUnit

/-- STREAM_UNIT_WRITE (R86, R170, R171, R176, R178, R196). -/
def execStreamUnitWrite (e : Eng) (k : StreamNo) (s : State) : Host.Outcome State Fault Refusal :=
  act (whenRun fun d => if grantee d.engines[e] = some k then writeUnit d e k else d) s

/-! ### SCLOSE (R88, R109, R200) -/

/-- A stream of a job is closed: the job is cancelled, and the other stream is aborted. -/
def closeJob (d : Device) (e : Eng) (k o : StreamNo) : Device :=
  match jobOf d.engines[e] o with
  | none => d
  | some j =>
    if !j.att.contains k then d
    else
      let d := dropChanJobs d fun c => c.eng == e && c.owner == o
      updEng d e fun y =>
        let others := j.att.filter (· != k)
        let y := others.foldl (fun y i => updStream y i fun x =>
          if streamLive x then failStream { x with job := none } 1 else { x with job := none }) y
        { y with jobs := y.jobs.filter fun c => c.owner != o }

/-- Streamer `k` becomes free. -/
def closeStream (d : Device) (e : Eng) (k : StreamNo) : Device :=
  let d := match d.engines[e].streams[k].job with
    | some o => closeJob d e k o
    | none => d
  updEng d e fun y => updStream y k fun _ => freeStreamer

/-- SCLOSE (R109, R200). -/
def execSclose (e : Eng) (f : CForm) (s : State) : Host.Outcome State Fault Refusal :=
  runDev e (.sclose e f) (fun d =>
    match streamArg (getS d.engines[e] f.rs1) with
    | none => updEng d e fun y => note y .illegalOperand ((wordOf (.sclose e f)).setWidth 64)
    | some k => updEng (closeStream d e k) e adv) s

/-! ### At the channels (R192 to R203) -/

/-- SIEVE_JOB_ARRIVAL (R197): the job takes a place or waits for one. -/
def execSieveJobArrival (c : Chan) (e : Eng) (k : StreamNo) (s : State) : Host.Outcome State Fault Refusal :=
  act (whenRun fun d =>
    match takeFirst (fun j => j.eng == e && j.owner == k) d.sieves[c].sent with
    | none => d
    | some (j, rest) => updSieve d c fun s => fillPlaces { s with sent := rest, waiting := s.waiting ++ [j] }) s

/-- Whether a job's streamer cannot take the job's next piece (R195, R198). -/
def jobStalls (d : Device) (j : ChanJob) : Bool :=
  let y := d.engines[j.eng]
  match jobOf y j.owner, j.pieces with
  | some b, k :: _ => decide (b.low + 8 < k) ||
      b.att.any fun i => y.streams[i].st == .blocked || decide (512 ≤ y.streams[i].accLen)
  | _, _ => true

/-- Rows of a piece that the sieve evaluates alone, up to a poisoned line, and how many of them it selects. -/
def countRows (v : BitVec 2048) (w : Nat) (p : PieceData) (lo hi : Nat) : Nat × Nat :=
  let stop := match p.poison with | some o => 32768 * p.piece + 8 * o | none => 32768 * (p.piece + 1)
  let whole := (List.range (hi - lo)).filter fun i => decide (rowBit w (lo + i) + w ≤ stop)
  let sel := whole.filter fun i => rowSelected v (fieldN p.bits (rowBit w (lo + i) - 32768 * p.piece) w)
  (if p.poison.isSome then whole.length else hi - lo, sel.length)

/-- What a sieve works on at a turn: the piece, the descriptor, the segment, and the piece's first line and number of
lines. -/
structure SieveWork where
  piece : Nat
  desc : BitVec 2048
  seg : Segment
  first : Nat
  count : Nat
  deriving DecidableEq, Repr

/-- The work of a job's next piece. -/
def workOf (d : Device) (j : ChanJob) : Option SieveWork :=
  match jobOf d.engines[j.eng] j.owner, j.pieces with
  | some b, k :: _ =>
    (match b.desc, openSeg d j.eng b.handle with
     | some v, some s =>
       let r := pieceBits (jobWidth v) b.first b.rows k
       some ⟨k, v, s, r.1 / 512 - 64 * k, (r.2 - 1) / 512 - r.1 / 512 + 1⟩
     | _, _ => none)
  | _, _ => none

/-- A piece whose lines have been read is evaluated; its rows and the selected ones are counted. -/
def evalPiece (d : Device) (c : Chan) (j : ChanJob) (x : SieveWork) (p : PieceData) : Device :=
  match jobOf d.engines[j.eng] j.owner with
  | none => d
  | some b =>
    let w := jobWidth x.desc
    let rows := pieceRows w b.first b.rows x.piece
    let cnt := countRows x.desc w p rows.1 rows.2
    let d := incReg (incReg d (SIEVE_ROWS c.val) 0 64 cnt.1) (SIEVE_SEL c.val) 0 64 cnt.2
    if p.poison.isSome then setReg d (SIEVE_ERR c.val) 0 1 1 else d

/-- The sieve reads the next line of a job's piece (R192): the job after it, and the piece once its lines have been read
or one of them is poisoned. -/
def serveLine (d : Device) (c : Chan) (j : ChanJob) (x : SieveWork) (o : EccOutcome) :
    (ChanJob × Option PieceData) × Device :=
  let l := x.first + j.lines
  let r := unitRead d (segPhys x.seg (4096 * x.piece + 64 * l)) ⟨2, partOf d.engines[j.eng], j.old⟩ o
  let d := incReg r.2 (SIEVE_BYTES c.val) 0 64 64
  match r.1.get with
    | none =>
      let p : PieceData := ⟨x.piece, j.bits, some (64 * l)⟩
      (({ j with lines := 0, bits := 0 }, some p), evalPiece d c j x p)
    | some v =>
      let bits := j.bits + v.toNat * 2 ^ (512 * l)
      if j.lines + 1 < x.count then (({ j with lines := j.lines + 1, bits := bits }, none), d)
      else
        let p : PieceData := ⟨x.piece, bits, none⟩
        (({ j with lines := 0, bits := 0 }, some p), evalPiece d c j x p)

/-- The sieve notices stalls, and its mesh cycles with a stalled job are counted (R198, R204); a turn ends where its job
stalls. -/
def noticeStalls (d : Device) (c : Chan) : Device :=
  let s := d.sieves[c]
  let d := if s.active.any (·.stalled) then incReg d (SIEVE_STALL c.val) 0 64 (d.cycle - s.since) else d
  updSieve d c fun s =>
    let act := s.active.map fun j => { j with stalled := !j.pieces.isEmpty && jobStalls d j }
    { s with
      active := act, since := d.cycle
      turn := s.turn.filter fun t => act.any fun j => j.eng == t.1 && j.owner == t.2 && !j.stalled &&
      !j.pieces.isEmpty }

/-- The job whose turn it is: the one a turn has begun with, or the first that is not stalled. A stalled job that is
skipped keeps its place in the order (DESIGN CHOICE, log entry 36). -/
def turnOf (s : Sieve) : Option (ChanJob × List ChanJob) :=
  match s.turn with
  | some t => takeFirst (fun j => j.eng == t.1 && j.owner == t.2) s.active
  | none => takeFirst (fun j => !j.stalled && !j.pieces.isEmpty) s.active

/-- A parity error on job state is counted and masked (R203). -/
def sieveParity (d : Device) (c : Chan) : Device :=
  raiseEvent (incRegSat (setReg d (SIEVE_ERR c.val) 1 1 1) (SIEVE_ERR c.val) 32 16) 0x19 c.val 0 0 none

/-- A job after a line of its turn: it stays in its place until its piece is complete, and then goes to the end of the
round (R197). -/
def turnDone (s : Sieve) (j : ChanJob) (rest : List ChanJob) (p : Option PieceData) : Sieve :=
  match p with
  | some p => { s with turn := none, active := rest ++ [{ j with pieces := j.pieces.tail, results := j.results ++
                                                                 [p] }] }
  | none => { s with
      turn := some (j.eng, j.owner)
      active := s.active.map fun i => if i.eng = j.eng ∧ i.owner = j.owner then j else i }

/-- A sieve goes on with the turn of a job by one line. A parity error discards the job's state, and the piece in
progress begins again (R203). -/
def sieveStep (d : Device) (c : Chan) (par : Bool) (o : EccOutcome) : Device :=
  match turnOf d.sieves[c] with
  | none => d
  | some (j, rest) =>
    let a := takeArmed d 0x19 c.val 0
    let hurt := par || a.1
    let d := if hurt then sieveParity a.2 c else d
    let j := if hurt then { j with lines := 0, bits := 0 } else j
    match workOf d j with
    | none => d
    | some x =>
      match serveLine d c j x o with
      | (r, d) => updSieve d c fun s => turnDone s r.1 rest r.2

/-- SIEVE_TURN (R192, R193, R197 to R203): one 64-byte line. A line whose read waits is read at a later turn. -/
def execSieveTurn (c : Chan) (o : TurnOutcome) (s : State) : Host.Outcome State Fault Refusal :=
  act (whenRun fun d => served (fun d => sieveStep d c o.parity o.ecc) (noticeStalls d c)) s

/-- The lowest piece that has not arrived. -/
def advanceLow (got : List PieceData) (low : Nat) : Nat → Nat
  | 0 => low
  | n + 1 => if got.any fun p => p.piece == low then advanceLow got (low + 1) n else low

/-- SIEVE_RESULT_ARRIVAL (R194 to R196): the oldest result of a job's channel reaches the streamer. -/
def execSieveResultArrival (e : Eng) (k : StreamNo) (c : Chan) (s : State) : Host.Outcome State Fault Refusal :=
  act (whenRun fun d =>
    match takeFirst (fun j => j.eng == e && j.owner == k && !j.results.isEmpty) d.sieves[c].active with
    | none => d
    | some (j, _) =>
      match j.results with
      | [] => d
      | p :: more =>
        let left : ChanJob := { j with results := more }
        let d := updSieve d c fun s => fillPlaces { s with
          active := (s.active.map fun i => if i.eng = e ∧ i.owner = k then left else i).filter fun i =>
            !(i.pieces.isEmpty && i.results.isEmpty) }
        let d := updEng d e fun y => updJob y k fun b =>
          let got := b.got ++ [p]
          { b with got := got, low := advanceLow got b.low 9 }
        runJob d e k) s

/-- SIEVE_JOB_AGED (R197): a job of 2 µs is old, and its DRAM reads are promoted. -/
def execSieveJobAged (c : Chan) (e : Eng) (k : StreamNo) (s : State) : Host.Outcome State Fault Refusal :=
  act (whenRun fun d =>
    let mark := fun (j : ChanJob) => if j.eng = e ∧ j.owner = k then { j with old := true } else j
    updSieve d c fun s => { s with active := s.active.map mark, waiting := s.waiting.map mark }) s

end Sys2Proof.Machine
end

