-- ==== Sys2Proof/Machine/Cam.lean ====
section
/-! DEFINITION. The CAM fabric: the CAM instructions, the port of a square, what the banks do with a request, parity
and repair, the re-spacer and the shadow copy (R58, R74, R111 to R114, R205 to R229). -/

namespace Sys2Proof.Machine

open Sys2Proof

/-! ### Banks and their configuration -/

def updBank (d : Device) (b : Bank) (f : CamBank → CamBank) : Device :=
  { d with banks := d.banks.set b.val (f d.banks[b]) }

def updCamSq (d : Device) (t : Tile) (f : CamSquare → CamSquare) : Device :=
  { d with camSq := d.camSq.set t.val (f d.camSq[t]) }

/-- Bank `n` (mod 256), and the square of a bank (R14). -/
def bankNo (n : Nat) : Bank := ⟨n % 256, Nat.mod_lt _ (by omega)⟩
def bankTile (b : Bank) : Tile := ⟨b.val / 4, by omega⟩

/-- A field of a bank's CAM_CFGk. -/
def cfgF (d : Device) (b : Bank) (lo len : Nat) : Nat := regF d (CAM_CFG (b.val / 4) (b.val % 4)) lo len
def bankWidth (d : Device) (b : Bank) : Nat := cfgF d b 0 2
def bankOrdered (d : Device) (b : Bank) : Bool := cfgF d b 2 1 == 1

/-- Units of an entry under a WIDTH encoding. -/
def camUnits (w : Nat) : Nat := 2 ^ w

/-- The partition that owns a bank. -/
def bankOwner (d : Device) (b : Bank) : Option Part :=
  if cfgF d b 22 1 = 1 then some ⟨cfgF d b 16 6 % 64, Nat.mod_lt _ (by omega)⟩ else none

/-- Whether a bank's partition is frozen (R483). -/
def bankFrozen (d : Device) (b : Bank) : Bool :=
  match bankOwner d b with
  | some p => (match sfind d.parts p.val with
      | some x => x.state == .frozen
      | none => false)
  | none => false

/-! ### Entries (R207, R208) -/

/-- The key value of units. -/
def keyValue (l : List Cell) : Nat :=
  match l with
  | [] => 0
  | c :: t => c.toNat + 2 ^ 40 * keyValue t

/-- Whether units match a key under a mask. -/
def camMatch (e key mask : List Cell) : Bool :=
  match e, key, mask with
  | a :: e, k :: key, m :: mask => (a &&& m) == (k &&& m) && camMatch e key mask
  | _, _, _ => true

/-- An entry as its bank shows it: units with an undetected error show their wrong value. -/
def shownUnits (bad : Sparse Cell) (off : Nat) (l : List Cell) : List Cell :=
  match l with
  | [] => []
  | c :: t => sget bad off c :: shownUnits bad (off + 1) t

/-- The value of a unit in the shadow: the newest entry of the queue, or memory. -/
def shadowWord (d : Device) (b : Bank) (u : Nat) : Nat :=
  let t := bankTile b
  match takeFirst (fun w => w.bank == b && w.unit == u) d.camSq[t].shadow.reverse with
  | some (w, _) => w.cell.toNat + (if w.valid then 2 ^ 40 else 0)
  | none => (cohRead d (regF d (CAM_SHADOW t.val) 15 37 * 2 ^ 15 + b.val % 4 * 8192 + 8 * u) 8).1

/-- The units of an entry in the shadow, which always equals the bank (R224); a hole's units among them. -/
def shadowUnits (d : Device) (b : Bank) (off : Nat) : List Cell :=
  (List.range (camUnits (bankWidth d b))).map fun i => BitVec.ofNat 40 (shadowWord d b (off + i))

/-- The entries of a bank as it shows them: a wrong valid flag hides an entry, or shows a hole as one. -/
def shownEnts (d : Device) (b : Bank) : Sparse (List Cell) :=
  let x := d.banks[b]
  let wrong := x.badFlag.filter (·.2)
  let l := x.ents.filter fun e => (sfind wrong e.1).isNone
  let l := (wrong.filter fun f => (sfind x.ents f.1).isNone).foldl (fun l f => sput l f.1 (shadowUnits d b f.1)) l
  l.map fun e => (e.1, shownUnits x.bad e.1 e.2)

/-- The banks of a request's range. -/
def rangeBanks (r : CamReq) : List Bank := (List.range r.count).map fun i => bankNo (r.first + i)

/-- The valid entries of a range by unit address, as the banks show them. -/
def rangeEnts (d : Device) (r : CamReq) : Sparse (List Cell) :=
  (rangeBanks r).flatMap fun b => (shownEnts d b).map fun e => (b.val * 1024 + e.1, e.2)

def rangeStart (r : CamReq) : Nat := r.first * 1024
def rangeEnd (r : CamReq) : Nat := (r.first + r.count) * 1024
def camStep (r : CamReq) : Nat := camUnits r.width

/-- The lowest hole at or after an address (R213). -/
def holeAbove (l : Sparse (List Cell)) (step end_ a : Nat) : Nat → Option Nat
  | 0 => none
  | n + 1 => if end_ ≤ a then none else if (sfind l a).isNone then some a else holeAbove l step end_ (a + step) n

/-- The highest hole before an address. -/
def holeBelow (l : Sparse (List Cell)) (step start a : Nat) : Nat → Option Nat
  | 0 => none
  | n + 1 =>
    if a < start + step then none
    else if (sfind l (a - step)).isNone then some (a - step)
    else holeBelow l step start (a - step) n

/-- The insertion point of a key (R212). -/
def insertPoint (l : Sparse (List Cell)) (step start key : Nat) : Nat :=
  l.foldl (fun p e => if keyValue e.2 < key then e.1 + step else p) start

/-- Whether every bank from one address to another is ORDERED (R215). -/
def allOrdered (d : Device) (a b : Nat) : Bool :=
  (List.range (b / 1024 + 1 - a / 1024)).all fun i => bankOrdered d (bankNo (a / 1024 + i))

/-! ### Changes (R224) -/

/-- One shadow entry is written through the gallery. -/
def writeShadow (d : Device) (t : Tile) (w : ShadowWrite) : Device :=
  let a := regF d (CAM_SHADOW t.val) 15 37 * 2 ^ 15 + w.bank.val % 4 * 8192 + 8 * w.unit
  let v := w.cell.toNat + (if w.valid then 2 ^ 40 else 0)
  lineWrite d (lineOf a) (BitVec.ofNat 512 (v * 2 ^ (8 * (a % 64)))) (enables (a % 64) 8) 0 true 3

/-- A change joins its square's queue of 64; a bank that finds it full waits while the oldest entry drains. -/
def pushShadow (d : Device) (w : ShadowWrite) : Device :=
  let t := bankTile w.bank
  let d := match d.camSq[t].shadow with
    | [] => d
    | x :: rest =>
      if d.camSq[t].shadow.length < 64 then d
      else updCamSq (writeShadow d t x) t fun s => { s with shadow := rest }
  updCamSq d t fun s => { s with shadow := s.shadow ++ [w] }

/-- The units of one entry change. -/
def pushEntry (d : Device) (b : Bank) (off : Nat) (l : List Cell) (valid : Bool) : Device :=
  match l with
  | [] => d
  | c :: t => pushEntry (pushShadow d ⟨b, off, c, valid⟩) b (off + 1) t valid

/-- The overlay loses the units of an entry that is written. -/
def clearBad (bad : Sparse Cell) (off n : Nat) : Sparse Cell :=
  bad.filter fun e => decide (e.1 < off) || decide (off + n ≤ e.1)

/-- Writes an entry at a unit address. -/
def putEntry (d : Device) (a : Nat) (l : List Cell) : Device :=
  let b := bankNo (a / 1024)
  pushEntry (updBank d b fun x => { x with
    ents := sput x.ents (a % 1024) l, bad := clearBad x.bad (a % 1024) l.length
    badFlag := sdel x.badFlag (a % 1024) }) b (a % 1024) l true

/-- Makes an entry a hole. -/
def delEntry (d : Device) (a : Nat) : Device :=
  let b := bankNo (a / 1024)
  match sfind d.banks[b].ents (a % 1024) with
  | none => d
  | some l =>
    pushEntry (updBank d b fun x => { x with
      ents := sdel x.ents (a % 1024), bad := clearBad x.bad (a % 1024) l.length
      badFlag := sdel x.badFlag (a % 1024) }) b (a % 1024) l false

/-- Entries from `a` up to the hole `n` steps above move up by one entry, the highest first. Each move is one change,
and the place that the last one leaves takes the new key (R224). -/
def shiftUp (d : Device) (step a : Nat) : Nat → Device
  | 0 => d
  | n + 1 =>
    let src := a + step * n
    match sfind d.banks[bankNo (src / 1024)].ents (src % 1024) with
    | some l => shiftUp (putEntry d (src + step) l) step a n
    | none => shiftUp d step a n

/-- `n` entries that end just below `z` move down by one entry, the lowest first. -/
def shiftDown (d : Device) (step z : Nat) : Nat → Device
  | 0 => d
  | n + 1 =>
    let src := z - step * (n + 1)
    match sfind d.banks[bankNo (src / 1024)].ents (src % 1024) with
    | some l => shiftDown (putEntry d (src - step) l) step z n
    | none => shiftDown d step z n

/-! ### The operations (R113, R114, R210 to R219) -/

/-- What an operation would do: result, units read, busy cycles beyond 2, the addresses of the entries it reads out
or moves, and its effect. -/
structure CamPlan where
  rep : CamRep
  touched : List Nat
  run : Option (Device → Device)

/-- The result word of R114. -/
def camResult (addr : Nat) (refused full inserted miss : Bool) : Dword :=
  let b := fun (x : Bool) k => if x then 2 ^ k else 0
  BitVec.ofNat 64 (addr + b refused 60 + b full 61 + b inserted 62 + b miss 63)

def refusedPlan : CamPlan := ⟨⟨camResult 0 true false false false, [], 0⟩, [], none⟩

/-- Whether the range refuses the operation (R210, R228, R483). -/
def camRefuses (d : Device) (r : CamReq) : Bool :=
  (rangeBanks r).any fun b => bankWidth d b != r.width || d.banks[b].retired || bankFrozen d b

/-- An insertion that moves `n` entries: the effect and what it touches. -/
def insertPlan (r : CamReq) (base at_ : Nat) (n : Nat) (touched : List Nat) (f : Device → Device) : CamPlan :=
  ⟨⟨camResult at_ false false true true, [], base * r.count + n⟩, touched, some fun d => putEntry (f d) at_ r.key⟩

/-- The addresses of `n` entries from `a`. -/
def entrySpan (step a n : Nat) : List Nat := (List.range n).map fun i => a + step * i

/-- CSRCHINS on a miss (R212, R213, R215). -/
def missPlan (d : Device) (r : CamReq) (l : Sparse (List Cell)) : CamPlan :=
  let step := camStep r
  let z := rangeEnd r
  let fuel := 1024 * r.count
  let ip := insertPoint l step (rangeStart r) (keyValue r.key)
  let ordered := bankOrdered d (bankNo ((if ip < z then ip else ip - 1) / 1024))
  let up := holeAbove l step z ip fuel
  let down := holeBelow l step (rangeStart r) ip fuel
  let full : CamPlan := ⟨⟨camResult 0 false true false true, [], 3 * r.count⟩, [], none⟩
  let goDown :=
    match down with
    | some g =>
      if ordered then
        (if allOrdered d g (ip - 1) then
          let n := (ip - g) / step - 1
          insertPlan r 3 (ip - step) n (entrySpan step (g + step) n) fun d => shiftDown d step ip n
         else full)
      else insertPlan r 3 g 0 [] id
    | none => full
  match up with
  | some h =>
    if h = ip then insertPlan r 3 ip 0 [] id
    else if ordered then
      (if allOrdered d ip h then
        let n := (h - ip) / step
        insertPlan r 3 ip n (entrySpan step ip n) fun d => shiftUp d step ip n
       else goDown)
    else insertPlan r 3 h 0 [] id
  | none => goDown

/-- CINS (R214). -/
def cinsPlan (d : Device) (r : CamReq) (l : Sparse (List Cell)) : CamPlan :=
  let step := camStep r
  let full : CamPlan := ⟨⟨camResult 0 false true false false, [], r.count⟩, [], none⟩
  if (sfind l r.addr).isNone then insertPlan r 1 r.addr 0 [] id
  else if bankOrdered d (bankNo (r.addr / 1024)) then
    (match holeAbove l step (rangeEnd r) r.addr (1024 * r.count) with
     | some h =>
       if allOrdered d r.addr h then
         let n := (h - r.addr) / step
         insertPlan r 1 r.addr n (entrySpan step r.addr n) fun d => shiftUp d step r.addr n
       else full
     | none => full)
  else full

/-- What a request does to its range as the banks show it. -/
def camPlan (d : Device) (r : CamReq) : CamPlan :=
  if camRefuses d r then refusedPlan
  else
    let l := rangeEnts d r
    let found := (takeFirst (fun (e : Nat × List Cell) => camMatch e.2 r.key r.mask) l).map fun m => m.1.1
    let hit := fun a => (⟨⟨camResult a false false false false, [], 0⟩, [a], none⟩ : CamPlan)
    match r.op with
    | .search => (match found with
        | some a => hit a
        | none => ⟨⟨camResult 0 false false false true, [], 0⟩, [], none⟩)
    | .searchInsert => (match found with
        | some a => hit a
        | none => missPlan d r l)
    | .insert => cinsPlan d r l
    | .delete =>
      if (sfind l r.addr).isSome then
        ⟨⟨camResult r.addr false false false false, [], 0⟩, [r.addr], some fun d => delEntry d r.addr⟩
      else ⟨⟨camResult 0 false false false true, [], 0⟩, [r.addr], none⟩
    | .write => ⟨⟨camResult r.addr false false false false, [], 0⟩, [r.addr], some fun d => putEntry d r.addr r.key⟩
    | .read =>
      match sfind l r.addr with
      | some u => ⟨⟨0, u, 0⟩, [r.addr], none⟩
      | none => ⟨⟨BitVec.ofNat 64 (2 ^ 63), List.replicate (camStep r) 0, 0⟩, [r.addr], none⟩

/-! ### Parity and repair (R225 to R228) -/

/-- The banks a reloaded entry is compared with (R227). -/
def sameKeyElsewhere (d : Device) (b : Bank) (key : Nat) : Bool :=
  (List.finRange 256).any fun c => c != b && (bankOwner d b).isSome && bankOwner d c == bankOwner d b &&
    bankWidth d c == bankWidth d b &&
    (shownEnts d c).any fun e => keyValue e.2 == key

/-- A unit that keeps failing is mapped to a spare row, once, or the bank retires (R228). -/
def repairUnit (d : Device) (b : Bank) (u : Nat) : Device :=
  let x := d.banks[b]
  let again := match sfind x.reloaded u with
    | some c => decide (d.cycle < c + 2 ^ 21)
    | none => false
  let d := updBank d b fun x => { x with reloaded := sput x.reloaded u d.cycle }
  if !again || x.spares.contains u then d
  else if x.spares.length < 16 then
    setReg (updBank d b fun x => { x with spares := x.spares ++ [u] }) (CAM_ERR (b.val / 4)) 2 1 1
  else
    lifeRetire (raiseEvent (setReg (updBank d b fun x => { x with retired := true }) (CAM_ERR (b.val / 4)) 3 1 1)
      5 b.val 0 0 (bankOwner d b)) .bank b.val 0x05

/-- The unit offset of the first unit of the entry that holds a unit. -/
def entryAt (d : Device) (b : Bank) (u : Nat) : Nat :=
  let n := camUnits (bankWidth d b)
  u / n * n

/-- Whether a read of a unit and of its entry's valid flag finds a parity error (R225). -/
def parityBad (d : Device) (b : Bank) (u : Nat) : Bool :=
  (sfind d.banks[b].bad u).isSome || (sfind d.banks[b].badFlag (entryAt d b u)).isSome

/-- A unit with a parity error is reloaded with its entry's valid flag (R226, R227). -/
def reloadUnit (d : Device) (b : Bank) (u : Nat) : Device :=
  let r := CAM_ERR (b.val / 4)
  let d := incRegSat (setReg d r 0 1 1) r 16 16
  let d := raiseEvent d 3 b.val (b.val * 1024 + u) 0 none
  let off := entryAt d b u
  let v := shadowWord d b u
  let cell : Cell := BitVec.ofNat 40 v
  let valid := fieldN v 40 1 == 1
  let units := match sfind d.banks[b].ents off with
    | some l => updAt l (u - off) fun _ => cell
    | none => shadowUnits d b off
  let d := updBank d b fun x => { x with
    bad := sdel x.bad u, badFlag := sdel x.badFlag off, ents := if valid then sput x.ents off units
    else sdel x.ents off }
  let d := if valid && sameKeyElsewhere d b (keyValue (shownUnits d.banks[b].bad off units)) then
      raiseEvent (setReg d r 1 1 1) 4 b.val (b.val * 1024 + off) 0 (bankOwner d b)
    else d
  repairUnit (pushShadow d ⟨b, u, cell, valid⟩) b u

/-- Unit addresses with a parity error among the entries an operation reads out, moves or returns; the error of a valid
flag is found with the first unit of its entry. -/
def badUnits (d : Device) (step : Nat) (l : List Nat) : List Nat :=
  l.flatMap fun a => (List.range step).filterMap fun i =>
    let x := d.banks[bankNo (a / 1024)]
    if (sfind x.bad (a % 1024 + i)).isSome || (i == 0 && (sfind x.badFlag (a % 1024)).isSome) then some (a + i)
    else none

/-- Whether two cells differ in an odd number of bits. -/
def oddFlip (a b : Cell) : Bool :=
  ((List.range 40).filter fun i => (a ^^^ b).getLsbD i).length % 2 == 1

/-- The bits of a unit have flipped, in a valid entry or in a hole: parity catches an odd number of them, with the
parity bit, and nothing an even one (R225). -/
def flipUnit (d : Device) (b : Bank) (u : Nat) (f : Flip) : Device :=
  let off := entryAt d b u
  let c := match sfind d.banks[b].ents off with
    | some l => l[u - off]?.getD 0
    | none => BitVec.ofNat 40 (shadowWord d b u)
  if oddFlip c f.cell != f.par then updBank d b fun x => { x with bad := sput x.bad u f.cell }
  else updBank d b fun x => { x with
    bad := sdel x.bad u, ents := supd x.ents off fun l => updAt l (u - off) fun _ => f.cell }

/-- The valid flag of an entry, its parity bit, or both have flipped; parity misses both together. -/
def flipFlag (d : Device) (b : Bank) (u : Nat) (f : Flip) : Device :=
  let off := entryAt d b u
  match f.flag.toNat with
  | 0 => d
  | 1 => updBank d b fun x => { x with badFlag := sput x.badFlag off true }
  | 2 => updBank d b fun x => { x with badFlag := sput x.badFlag off false }
  | _ => updBank d b fun x => { x with
      ents := if (sfind x.ents off).isSome then sdel x.ents off else sput x.ents off (shadowUnits d b off) }

/-- Bits of a unit and of its entry's valid flag have flipped. -/
def applyFlip (d : Device) (f : Flip) : Device :=
  let b := bankNo (f.unit / 1024)
  flipFlag (flipUnit d b (f.unit % 1024) f) b (f.unit % 1024) f

/-- CAM_OPS after an operation that changed entries: one at each square that changed; a CWR changes the entry it names
(R229). -/
def countWrites (d d' : Device) (r : CamReq) : Device :=
  let ts := ((rangeBanks r).map bankTile).eraseDups
  ts.foldl (fun x t =>
    if (r.op == .write && bankTile (bankNo (r.addr / 1024)) == t) ||
        (rangeBanks r).any fun b => bankTile b == t && d.banks[b].ents != d'.banks[b].ents then
      incReg x (CAM_OPS t.val) 32 32 1 else x) d'

/-- The banks serve a request: units with an error that it reads out are reloaded and it starts again. -/
def serveCam (d : Device) (r : CamReq) : Nat → CamRep × Device
  | 0 => (⟨camResult 0 true false false false, [], 0⟩, d)
  | n + 1 =>
    let p := camPlan d r
    match badUnits d (camStep r) p.touched with
    | [] =>
      (p.rep, match p.run with
        | some f => countWrites d (f d) r
        | none => d)
    | us => serveCam (us.foldl (fun d u => reloadUnit d (bankNo (u / 1024)) (u % 1024)) d) r n

/-- CAM_OPS after a served search: one for each bank (R229). -/
def countOps (d d' : Device) (r : CamReq) : Device :=
  if (r.op == .search || r.op == .searchInsert) && !camRefuses d r then
    (rangeBanks r).foldl (fun x b => incReg x (CAM_OPS (b.val / 4)) 0 32 1) d'
  else d'

/-- The first request at a stage goes on to the next one. -/
def advanceStage (l : List CamWait) (at_ dst : CamStage) : List CamWait :=
  match l with
  | [] => []
  | c :: t => if c.stage = at_ then { c with stage := dst } :: t else c :: advanceStage t at_ dst

/-- A request of engine `e` that has been sent is served. -/
def serveOp (d : Device) (e : Eng) (op : CamOp) (fl : List Flip) : Device :=
  match takeFirst (fun c => c.stage == .sent) d.engines[e].cam with
  | none => d
  | some (c, _) =>
    if c.req.op != op then d
    else
      let d := fl.foldl applyFlip d
      let r := serveCam d c.req (1 + 1024 * c.req.count)
      let d := countOps d r.2 c.req
      updEng d e fun x => { x with cam := advanceStage x.cam .sent (.done r.1) }

/-- CAM_SEARCH_SERVE (R208 to R211). -/
def execCamSearchServe (e : Eng) (fl : List Flip) (s : State) : Host.Outcome State Fault Refusal :=
  act (whenRun fun d => serveOp d e .search fl) s

/-- CAM_SEARCH_INSERT_SERVE (R209 to R216). -/
def execCamSearchInsertServe (e : Eng) (fl : List Flip) (s : State) : Host.Outcome State Fault Refusal :=
  act (whenRun fun d => serveOp d e .searchInsert fl) s

/-- CAM_INSERT_SERVE (R214, R215). -/
def execCamInsertServe (e : Eng) (fl : List Flip) (s : State) : Host.Outcome State Fault Refusal :=
  act (whenRun fun d => serveOp d e .insert fl) s

/-- CAM_DELETE_SERVE (R217). -/
def execCamDeleteServe (e : Eng) (fl : List Flip) (s : State) : Host.Outcome State Fault Refusal :=
  act (whenRun fun d => serveOp d e .delete fl) s

/-- CAM_WRITE_SERVE (R217). -/
def execCamWriteServe (e : Eng) (fl : List Flip) (s : State) : Host.Outcome State Fault Refusal :=
  act (whenRun fun d => serveOp d e .write fl) s

/-- CAM_READ_SERVE (R217). -/
def execCamReadServe (e : Eng) (fl : List Flip) (s : State) : Host.Outcome State Fault Refusal :=
  act (whenRun fun d => serveOp d e .read fl) s

/-! ### The square's port (R219 to R222) -/

/-- Whether the East or the West hall is throttled (R568, R569). -/
def throttled (d : Device) (east : Bool) : Bool :=
  regF d PWR_STAT (if east then 12 else 11) 1 == 1 || regF d PWR_STAT 13 1 == 1

/-- The rate of a square's port in force, in sixteenths (R221). -/
def camRate (d : Device) (t : Tile) : Nat :=
  let r := min (regF d (CAM_PACE t.val) 0 5) d.pkg.camRate
  if throttled d (32 ≤ t.val) then min 8 r else r

/-- The credit count brought up to the current cycle, one CAM cycle being two engine cycles. -/
def settleCredits (d : Device) (t : Tile) : Device :=
  let s := d.camSq[t]
  let n := (d.cycle - s.since) / 2
  let rate := camRate d t
  let cap : Int := Int.ofNat (regF d (CAM_PACE t.val) 16 16 * 16)
  let gain := s.credits + Int.ofNat (n * rate)
  let held := if s.waiting.isEmpty || decide (0 < s.credits) then 0
    else min n ((-s.credits).toNat / max rate 1 + 1)
  updCamSq (incReg d (CAM_PACE_STAT t.val) 32 32 held) t fun s => { s with
    since := s.since + 2 * n, credits := if cap ≤ s.credits then s.credits else min cap gain }

/-- The oldest request at the port is sent while the credit count is above 0. -/
def portSend (d : Device) (t : Tile) : Device :=
  let d := settleCredits d t
  match d.camSq[t].waiting with
  | [] => d
  | e :: rest =>
    if d.camSq[t].credits ≤ 0 then d
    else
      let n := match takeFirst (fun c => c.stage == .queued) d.engines[e].cam with
        | some (c, _) => c.req.count
        | none => 0
      let d := updEng d e fun x => { x with cam := advanceStage x.cam .queued .sent }
      updCamSq d t fun s => { s with waiting := rest, credits := s.credits - Int.ofNat (16 * 2 * n) }

/-- CAM_PORT_SEND (R220, R222). -/
def execCamPortSend (t : Tile) (s : State) : Host.Outcome State Fault Refusal :=
  act (whenRun fun d => portSend d t) s

/-! ### The CAM instructions (R111 to R114, R74) -/

/-- Units of a register group. -/
def groupOf (x : Engine) (r : BitVec 5) (n : Nat) : List Cell :=
  (List.range n).map fun i => (getS x (r + BitVec.ofNat 5 i)).setWidth 40

/-- Whether a register group breaks R111. -/
def groupWrong (r : BitVec 5) (n : Nat) : Bool := r.toNat % n != 0 || decide (31 < r.toNat + n - 1)

/-- The register group an operation checks: rd of CRD, none for CDEL, else rs2. -/
def camGroup (op : CamOp) (f : CForm) : Option (BitVec 5) :=
  match op with
  | .read => some f.rd
  | .delete => none
  | _ => some f.rs2

/-- The operations that name an entry. -/
def camNamesEntry (op : CamOp) : Bool :=
  match op with
  | .search => false
  | .searchInsert => false
  | _ => true

/-- The checks of R112: the first exception, if any, with the instruction word or the first bank not assigned. -/
def camCheck (d : Device) (e : Eng) (op : CamOp) (f : CForm) (word : Dword) : Option CauseVal :=
  let x := d.engines[e]
  let c := x.camr[f.aux.toNat % 4]'(Nat.mod_lt _ (by omega))
  let first := fieldN c.toNat 0 8
  let count := fieldN c.toNat 8 8
  let w := fieldN c.toNat 16 2
  let n := camUnits w
  let a := getS x f.rs1
  let lo := first * 1024
  let hi := (first + count + 1) * 1024
  if w = 3 ∨ 255 < first + count then some ⟨.illegalOperand, word⟩
  else if (match camGroup op f with | some g => groupWrong g n | none => false) then some ⟨.illegalOperand, word⟩
  else match (List.range (count + 1)).find? fun i =>
      bankOwner d (bankNo (first + i)) != x.owner || x.owner.isNone with
    | some i => some ⟨.accCam, BitVec.ofNat 64 (first + i)⟩
    | none =>
      if camNamesEntry op && (decide (a.toNat < lo) || decide (hi ≤ a.toNat) || a.toNat % n != 0) then
        some ⟨.illegalOperand, word⟩
      else none

/-- The request of a CAM instruction. -/
def camRequest (x : Engine) (op : CamOp) (f : CForm) : CamReq :=
  let c := x.camr[f.aux.toNat % 4]'(Nat.mod_lt _ (by omega))
  let w := fieldN c.toNat 16 2
  { op := op, first := fieldN c.toNat 0 8, count := fieldN c.toNat 8 8 + 1, width := w
    addr := (getS x f.rs1).toNat, key := groupOf x f.rs2 (camUnits w), mask := x.camm.toList, part := x.owner }

/-- The registers after a reply; the instruction completes. A CRD that is refused writes the result to rd and leaves the
other registers of the group (DESIGN CHOICE, log entry 126). -/
def takeReply (x : Engine) (op : CamOp) (rd : BitVec 5) (r : CamRep) : Engine :=
  match op with
  | .read =>
    if r.units.isEmpty then adv (setS x rd r.result)
    else adv ((List.range r.units.length).foldl (fun x i =>
      setS x (rd + BitVec.ofNat 5 i)
        ((r.units[i]?.getD 0).setWidth 64 ||| (if i = 0 then r.result else 0))) x)
  | _ => adv (setS x rd r.result)

/-- A CAM instruction: the first instruction after a handler return may take its result from the latch or wait for
its request in flight; otherwise it is checked and its request leaves for the port. -/
def camInstr (e : Eng) (i : Instr) (op : CamOp) (f : CForm) (s : State) : Host.Outcome State Fault Refusal :=
  act (fun d =>
    let resumed := d.engines[e].afterRet
    let r := precheck i d.engines[e]
    let d := updEng d e fun _ => r.1
    let x := r.1
    if !r.2 then d
    else if resumed && x.latch.isSome then
      (match x.latch with
       | some l => updEng d e fun x => takeReply { x with latch := none } op f.rd l.rep
       | none => d)
    else if resumed && x.cam.any (fun c => c.pc == x.pc && c.word == wordOf i && !c.discard) then
      updEng d e fun x => { x with cam := x.cam.map fun c =>
        if c.pc = x.pc ∧ c.word = wordOf i ∧ !c.discard then { c with live := true } else c }
    else match camCheck d e op f ((wordOf i).setWidth 64) with
      | some c => updEng d e fun x => note x c.cause c.val
      | none =>
        let d := updEng d e fun x => { x with
          cam := x.cam ++ [⟨x.pc, wordOf i, f.rd, camRequest x op f, .queued, true, false⟩] }
        updCamSq (settleCredits d (tileOf e)) (tileOf e) fun s => { s with waiting := s.waiting ++ [e] }) s

/-- CSRCH (R113). -/
def execCsrch (e : Eng) (f : CForm) (s : State) : Host.Outcome State Fault Refusal :=
  camInstr e (.csrch e f) .search f s

/-- CINS (R113). -/
def execCins (e : Eng) (f : CForm) (s : State) : Host.Outcome State Fault Refusal :=
  camInstr e (.cins e f) .insert f s

/-- CSRCHINS (R113). -/
def execCsrchins (e : Eng) (f : CForm) (s : State) : Host.Outcome State Fault Refusal :=
  camInstr e (.csrchins e f) .searchInsert f s

/-- CDEL (R113). -/
def execCdel (e : Eng) (f : CForm) (s : State) : Host.Outcome State Fault Refusal :=
  camInstr e (.cdel e f) .delete f s

/-- CRD (R113). -/
def execCrd (e : Eng) (f : CForm) (s : State) : Host.Outcome State Fault Refusal :=
  camInstr e (.crd e f) .read f s

/-- CWR (R113). -/
def execCwr (e : Eng) (f : CForm) (s : State) : Host.Outcome State Fault Refusal :=
  camInstr e (.cwr e f) .write f s

/-- The oldest reply reaches the engine: the waiting instruction takes it, or the latch does (R74, R220). -/
def camReply (d : Device) (e : Eng) : Device :=
  match takeFirst (fun c => match c.stage with | .done _ => true | _ => false) d.engines[e].cam with
  | none => d
  | some (c, rest) =>
    match c.stage with
    | .done r =>
      let t := tileOf e
      let d := updCamSq (settleCredits d t) t fun s => { s with credits := s.credits - Int.ofNat (16 * r.busy) }
      updEng d e fun x =>
        let x := { x with cam := rest }
        if c.live then takeReply x c.req.op c.rd r
        else if c.discard then x
        else { x with latch := some ⟨c.pc, c.word, r⟩ }
    | _ => d

/-- CAM_REPLY (R58, R74). -/
def execCamReply (e : Eng) (s : State) : Host.Outcome State Fault Refusal :=
  act (whenRun fun d => camReply d e) s

/-! ### Background work -/

/-- The longest run of consecutive valid entries. -/
def longestRun (ents : Sparse (List Cell)) (step : Nat) : Nat :=
  let r := ents.foldl (fun (r : Nat × Nat × Nat) e =>
    let run := if e.1 = r.1 then r.2.1 + 1 else 1
    (e.1 + step, run, max r.2.2 run)) (1024, 0, 0)
  r.2.2

/-- Whether the re-spacer has moves to make (R218). -/
def respaces (d : Device) (b : Bank) : Bool :=
  let x := d.banks[b]
  let step := camUnits (bankWidth d b)
  let n := x.ents.length
  let run := longestRun x.ents step
  bankOrdered d b && !x.retired && !bankFrozen d b && decide (cfgF d b 4 7 ≤ run) &&
    decide (ceilDiv n (1024 / step - n + 1) < run)

/-- Whether a request that has been sent and not served includes a bank. -/
def bankBusy (d : Device) (b : Bank) : Bool :=
  (List.finRange 256).any fun e => d.engines[e].cam.any fun c =>
    c.stage == .sent && decide (c.req.first ≤ b.val) && decide (b.val < c.req.first + c.req.count)

/-- The entry at a unit offset moves by one entry into the hole beside it, an operation that CAM_OPS counts; a move that
finds a parity error is made again after the reload (R218, R226). -/
def respace (d : Device) (b : Bank) (off : Nat) (up : Bool) : Nat → Device
  | 0 => d
  | n + 1 =>
    let step := camUnits (bankWidth d b)
    let x := d.banks[b]
    let dest := if up then off + step else off - step
    match sfind x.ents off with
    | none => d
    | some l =>
      if !respaces d b || bankBusy d b || decide (1024 < dest + step) || (!up && decide (off < step)) ||
          (sfind x.ents dest).isSome then d
      else match badUnits d step [b.val * 1024 + off] with
        | [] =>
          incReg (delEntry (putEntry d (b.val * 1024 + dest) l) (b.val * 1024 + off)) (CAM_OPS (b.val / 4)) 32 32 1
        | us => respace (us.foldl (fun d u => reloadUnit d b (u % 1024)) d) b off up n

/-- RESPACER_MOVE (R218, R226). -/
def execRespacerMove (b : Bank) (off : Nat) (up : Bool) (s : State) : Host.Outcome State Fault Refusal :=
  act (whenRun fun d => respace d b off up 8) s

/-- CAM_PARITY_SCAN_READ (R225, R226). -/
def execCamParityScanRead (b : Bank) (fl : List Flip) (s : State) : Host.Outcome State Fault Refusal :=
  act (whenRun fun d =>
    let d := fl.foldl applyFlip d
    let u := d.banks[b].scan
    let d := updBank d b fun x => { x with scan := (u + 1) % 1024 }
    let d := if u = 1023 then incReg d (CAM_STAT (b.val / 4) (b.val % 4)) 40 24 1 else d
    if parityBad d b u && !d.banks[b].retired then reloadUnit d b u else d) s

/-- SHADOW_QUEUE_WRITE (R224). -/
def execShadowQueueWrite (t : Tile) (s : State) : Host.Outcome State Fault Refusal :=
  act (whenRun fun d =>
    match d.camSq[t].shadow with
    | [] => d
    | w :: rest => updCamSq (writeShadow d t w) t fun s => { s with shadow := rest }) s

/-! ### Configuration (R206, R223) -/

/-- Every entry of a bank becomes a hole. -/
def clearBank (d : Device) (b : Bank) : Device :=
  let l := d.banks[b].ents
  let d := updBank d b fun x => { x with ents := [], bad := [], badFlag := [] }
  l.foldl (fun d e => pushEntry d b e.1 e.2 false) d

/-- A bank's configuration changes to a new register value; a new width, a new owner or CLEAR empties the bank. The
change takes effect at once: a bank accepts a request when it serves it, so one that is still on its way counts as
arriving later (R206, log entry 119; DESIGN CHOICE). -/
def setCamCfg (d : Device) (b : Bank) (v : Dword) (clear : Bool) : Device :=
  let r := CAM_CFG (b.val / 4) (b.val % 4)
  let old := reg d r
  let d := if clear || field old 0 2 != field v 0 2 || field old 16 7 != field v 16 7 then clearBank d b else d
  updRegs d fun x => regPut x r v

/-- A configuration change that may set ASSIGNED, which is ignored while CAM_SHADOW.LOCK is 0 (R223). -/
def assignCam (d : Device) (b : Bank) (v : Dword) (clear : Bool) : Device :=
  if field v 22 1 = 1 && regF d (CAM_SHADOW (b.val / 4)) 63 1 == 0 then setReg d (CAM_ERR (b.val / 4)) 4 1 1
  else setCamCfg d b v clear

/-- A write of CAM_CFGk. -/
def writeCamCfg (d : Device) (b : Bank) (w : RegAccess) : Device :=
  let r := CAM_CFG (b.val / 4) (b.val % 4)
  gateWrite d r w fun d =>
    if carried w 22 1 == some 1 && regF d (CAM_SHADOW (b.val / 4)) 63 1 == 0 then
      setReg d (CAM_ERR (b.val / 4)) 4 1 1
    else setCamCfg d b (regGet (regWrite d.regs r w) r) (strobe w 23)

/-- CAM_CFG_WRITE (R206, R223). -/
def execCamCfgWrite (b : Bank) (w : RegAccess) (s : State) : Host.Outcome State Fault Refusal :=
  act (fun d => writeCamCfg d b w) s

/-- CAM_CLEAR (R206). -/
def execCamClear (b : Bank) (w : RegAccess) (s : State) : Host.Outcome State Fault Refusal :=
  act (fun d => if strobe w 23 then writeCamCfg d b w else d) s

end Sys2Proof.Machine
end

