-- ==== Sys2Proof/Machine/Beat.lean ====
section
/-! DEFINITION. The beat generator and what a tick does: period changes, external lock, abandonment, quiet windows,
the four passes of dispatch, observability and the engines' entries (R25 to R52, R87, R89, R91, R237 to R241, R244,
R256, R258, R329, R360). -/

namespace Sys2Proof.Machine

open Sys2Proof

/-! ### The generator (R25 to R29, R46, R47) -/

def updBeat (d : Device) (f : BeatGen → BeatGen) : Device := { d with beat := f d.beat }

/-- Active period in engine cycles. -/
def activeP (d : Device) : Nat := 1000 * regF d BEAT_PERIOD 16 9

/-- The lock state: 0 internal, 1 ACQUIRING, 2 LOCKED, 3 FREERUN. -/
def lockState (d : Device) : Nat := regF d BEAT_STAT 0 2

/-- The generator goes back to acquiring its source. -/
def acquire (d : Device) : Device :=
  if regF d BEAT_CTL 0 1 = 1 then updBeat (setReg d BEAT_STAT 0 2 1) fun b => { b with good := 0 } else d

/-- A write of BEAT_PERIOD: the new period takes effect two beats on. -/
def writePeriod (d : Device) (w : RegAccess) : Device :=
  gateWrite d BEAT_PERIOD w fun d =>
    match carried w 0 9 with
    | none => d
    | some k =>
      if k < 10 || 400 < k || regF d BEAT_CTL 63 1 = 1 then d
      else
        let n := beatNow d + 2
        let d := setReg (setReg d BEAT_PERIOD 0 9 k) BEAT_PERIOD 32 32 (n % 2 ^ 32)
        acquire (updBeat d fun b => { b with changes := (b.changes.filter fun c => c.1 != n) ++ [(n, k)] })

/-- BEAT_PERIOD_WRITE (R27, R46). -/
def execBeatPeriodWrite (w : RegAccess) (s : State) : Host.Outcome State Fault Refusal :=
    act (fun d => writePeriod d w) s

/-- A write of BEAT_PHASE. -/
def writePhase (d : Device) (w : RegAccess) : Device :=
  gateWrite d BEAT_PHASE w fun d =>
    if (carried w 0 16).isNone || regF d BEAT_CTL 63 1 == 1 then d else acquire (plainWrite d BEAT_PHASE w)

/-- BEAT_PHASE_WRITE (R46). -/
def execBeatPhaseWrite (w : RegAccess) (s : State) : Host.Outcome State Fault Refusal := act (fun d => writePhase d w) s

/-- A write of BEAT_CTL: a change of SRC to 1 begins acquisition, one to 0 goes on from the last tick. Either forgets
the last accepted edge (DESIGN CHOICE, log entry 109). -/
def writeBeatCtl (d : Device) (w : RegAccess) : Device :=
  gateWrite d BEAT_CTL w fun d =>
    let old := regF d BEAT_CTL 0 1
    let d := plainWrite d BEAT_CTL w
    if regF d BEAT_CTL 0 1 = old then d
    else if old = 1 then
      updBeat (setReg d BEAT_STAT 0 2 0) fun b => { b with lastEdge := none, good := 0, toCorrect := 0,
                                                           length := activeP d }
    else acquire (updBeat d fun b => { b with lastEdge := none })

/-- BEAT_CTL_WRITE (R46, R47, R49). -/
def execBeatCtlWrite (w : RegAccess) (s : State) : Host.Outcome State Fault Refusal := act (fun d => writeBeatCtl d w) s

/-- A signed number as `n` bits of two's complement. -/
def twos (x : Int) (n : Nat) : Nat := (x % Int.ofNat (2 ^ n)).toNat

/-- The signed value of an `n`-bit field. -/
def sfield (v n : Nat) : Int := if 2 ^ (n - 1) ≤ v then Int.ofNat v - Int.ofNat (2 ^ n) else Int.ofNat v

/-- The time of the tick nearest to a point that lies `x` engine cycles after the last tick, less that point: the
running beat is `len` long, and the beats before and after it have the period `p`. -/
def phaseError (x : Int) (len p : Nat) : Int :=
  let p := max p 1
  let near := fun (r : Int) (n : Nat) => if Int.ofNat n < 2 * r then Int.ofNat n - r else -r
  if 0 ≤ x && decide (x < Int.ofNat len) then near x len
  else if x < 0 then near (x % Int.ofNat p) p
  else near ((x - Int.ofNat len) % Int.ofNat p) p

/-- An accepted edge: error, correction and lock state (R46). The edge that leaves FREERUN counts as the first of the
four good edges when its error is small (DESIGN CHOICE, log entry 109). -/
def acceptEdge (d : Device) (tm : Nat) : Device :=
  let err := phaseError (Int.ofNat tm + sfield (regF d BEAT_PHASE 0 16) 16 - Int.ofNat d.beat.lastTick) d.beat.length
    (activeP d)
  let small := decide (err.natAbs ≤ 2)
  let good := if small then d.beat.good + 1 else 0
  let d := setReg (incReg d BEAT_IN_CNT 0 32 1) BEAT_PHASE 16 16 (twos (max (-32767) (min 32767 err)) 16)
  let st := lockState d
  let d := updBeat d fun b => { b with lastEdge := some tm, toCorrect := -err, good := good }
  if st = 3 then setReg d BEAT_STAT 0 2 1
  else if st = 2 then
    (if 8 < err.natAbs then updBeat (setReg d BEAT_STAT 0 2 1) fun b => { b with good := 0 } else d)
  else if 4 ≤ good then setReg (setReg d BEAT_STAT 0 2 2) BEAT_STAT 3 1 1
  else d

/-- BEAT_IN_EDGE (R46): a rising edge at engine cycle `tm`. -/
def execBeatInEdge (tm : Nat) (s : State) : Host.Outcome State Fault Refusal :=
  act (whenRun fun d =>
    let d := { d with cycle := max d.cycle tm }
    if regF d BEAT_CTL 0 1 = 0 then d
    else match d.beat.lastEdge with
      | some t => if 2 * (tm - t) < activeP d then incReg d BEAT_IN_CNT 32 32 1 else acceptEdge d tm
      | none => acceptEdge d tm) s

/-- FREERUN begins: the running beat lasts P from its tick, or ends now where it has lasted longer (R46). -/
def enterFreerun (d : Device) (tm : Nat) : Device :=
  updBeat (setReg (setReg d BEAT_STAT 0 2 3) BEAT_STAT 2 1 1) fun b => { b with
    toCorrect := 0, good := 0, length := max (activeP d) (tm - b.lastTick) }

/-- BEAT_IN_FREERUN (R46): no edge accepted for eight periods; with none accepted since SRC became 1, it is due at once
(DESIGN CHOICE, log entry 109). -/
def execBeatInFreerun (tm : Nat) (s : State) : Host.Outcome State Fault Refusal :=
  act (whenRun fun d =>
    let d := { d with cycle := max d.cycle tm }
    let due := match d.beat.lastEdge with
      | some t => decide (t + 8 * activeP d ≤ tm)
      | none => true
    if regF d BEAT_CTL 0 1 = 1 && due && lockState d != 3 then enterFreerun d tm else d) s

/-- Length of the beat that a tick starts, and the correction that is left (R26, R46, R47). -/
def nextLength (d : Device) : Nat × Int :=
  let p := activeP d
  if regF d BEAT_CTL 0 1 = 1 && (lockState d == 1 || lockState d == 2) then
    let lim := Int.ofNat (p / 1000)
    let c := max (-lim) (min lim d.beat.toCorrect)
    ((Int.ofNat p + c).toNat, d.beat.toCorrect - c)
  else (p, 0)

/-- Action 1 of a tick: the count, and a period change that is due. -/
def tickCount (d : Device) : Device :=
  let n := (beatNow d + 1) % 2 ^ 64
  let t := d.beat.lastTick + d.beat.length
  let d := setReg (setReg d BEAT_COUNT 0 64 n) BEAT_STAT 4 1 0
  let due := d.beat.changes.filter fun c => decide (c.1 ≤ n)
  let d := match due.getLast? with
    | some c => setReg d BEAT_PERIOD 16 9 c.2
    | none => d
  let l := nextLength d
  { updBeat d fun b => { b with
      changes := b.changes.filter fun c => decide (n < c.1)
      lastTick := t, length := l.1, toCorrect := l.2 } with cycle := max d.cycle t }

/-- The BEAT_OUT pulse of the tick that starts a beat (R49). -/
def tickOut (d : Device) : Device :=
  if regF d BEAT_CTL 1 1 = 1 && beatNow d % 2 ^ regF d BEAT_CTL 2 4 == 0 then
    updBeat d fun b => { b with outAt := some (b.lastTick + 80) }
  else d

/-- The level of BEAT_OUT: high for 64 engine cycles from the start of its pulse, and low while the generator is
stopped. -/
def beatOut (d : Device) : Bool :=
  regF d BEAT_STAT 4 1 == 0 && match d.beat.outAt with
    | some t => decide (t ≤ d.cycle) && decide (d.cycle < t + 64)
    | none => false

/-! ### Abandonment and re-queueing (R33, R36 to R40, R238, R256) -/

/-- A thread becomes READY. -/
def readyAt (t : Thread) (n : Nat) : Thread := { t with st := .ready, readyBeat := n, waited := 0, pages := [] }

/-- A thread waits for the segments that its streams wait for (R238, R306). -/
def waitAt (t : Thread) (hs : List Nat) : Thread := { t with st := .waitPage, pages := hs }

/-- Whether the segment of a handle is on its way into the heap. -/
def awaited (d : Device) (h : Nat) : Bool :=
  match segHeld d (hPart h) h with
  | some s => !isResident s
  | none => false

/-- The segments that the opening streams of an engine wait for. -/
def awaitedPages (d : Device) (e : Eng) : List Nat :=
  (d.engines[e].streams.toList.filter fun x => x.st == .opening && x.handle != 0).map (·.handle) |>.filter (awaited d)

/-- The current piece holds a slot. -/
def headSlot (l : List Piece) (slot : Nat) : List Piece :=
  match l with
  | [] => []
  | c :: rest => { c with slot := some slot } :: rest

/-- A thread whose unit was replayed (R256). -/
def replayThread (t : Thread) (u : Dispatch) (n : Nat) : Thread :=
  { readyAt t n with todo := headSlot t.todo u.slot, promoted := true, promotedAt := n, excl := true }

/-- The thread of a dispatched unit at the tick; `b` is the length of the beat that ends. -/
def endUnit (d : Device) (e : Eng) (u : Dispatch) (b n : Nat) : Device :=
  let hs := awaitedPages d e
  match u.fate with
  | .complete => updThread d u.thread fun t => readyAt t n
  | .replay => updThread (incReg d SCH_EVT1 0 32 1) u.thread fun t => replayThread t u n
  | .running =>
    let d := overrun d u b
    updThread d u.thread fun t => if t.st = .stalled then t else if hs.isEmpty then readyAt t n else waitAt t hs

/-- Beats that an engine's load counts, newest first. -/
def obsOf (d : Device) (e : Nat) : EngObs := sget d.sched.obs e ⟨[], List.replicate 16 0⟩

/-- Every unit of the beat that ends is settled. -/
def abandonAll (d : Device) (b n : Nat) : Device :=
  (List.finRange 256).foldl (fun d e =>
    let ran := d.engines[e].dispatch.isSome
    let o := obsOf d e.val
    let d := updSched d fun s => { s with obs := sput s.obs e.val { o with busy := (ran :: o.busy).take 1024 } }
    match d.engines[e].dispatch with
    | none => d
    | some u => updEng (endUnit d e u b n) e fun x => { x with dispatch := none }) d

/-- Whether a thread stays when its instance has come to an end. -/
def threadStays (l : Sparse Instance) (t : Thread) : Bool :=
  match sfind l t.inst with
  | some x => !(x.stop.isSome || x.failed.isSome) || t.st == .stalled
  | none => false

/-- Accepted aborts of instances take effect (R278), and threads of ended instances become FREE (R232, R254). -/
def freeThreads (d : Device) : Device :=
  let d := d.sched.insts.foldl (fun d i => if i.2.abort && !i.2.decided then
      stopInst d i.1 1 0 0 else d) d
  updSched d fun s => { s with threads := s.threads.filter fun t => threadStays s.insts t.2 }

/-- Waiting threads whose condition no longer holds become READY, and those without rows become FREE. -/
def wakeThreads (d : Device) (n : Nat) : Device :=
  let wake := fun (t : Thread) =>
    match instOf d t.inst with
    | none => none
    | some x =>
      if t.todo.isEmpty && exhausted x && t.st != ThreadState.running then none
      else match t.st with
        | .waitPage => some (if instResident d x && !t.pages.any (awaited d) then readyAt t n else t)
        | .waitFlow => some (if flowAllows d t.inst x then readyAt t n else t)
        | _ => some t
  updSched d fun s => { s with threads := s.threads.filterMap fun t =>
    if t.2.st = .stalled then some t else (wake t.2).map fun y => (t.1, y) }

/-! ### Freezes and quiet windows at a tick (R42, R482) -/

/-- Pending freezes and resumptions take effect. -/
def tickFreeze (d : Device) (n : Nat) : Device :=
  { d with parts := d.parts.map fun p =>
      let x := p.2
      let x := match x.freezeAt with
        | some k => if k ≤ n then { x with freezeAt := none } else x
        | none => x
      let x := match x.resumeAt with
        | some k => if k ≤ n then { x with state := .running, resumeAt := none } else x
        | none => x
      (p.1, x) }

/-- Quiet windows of the new beat begin, and designations of past beats end. -/
def tickQuiet (d : Device) (n : Nat) : Device :=
  (List.finRange 16).foldl (fun d c =>
    let r := BEAT_QW_NEXT c.val
    if regF d r 63 1 = 0 then d
    else if regF d r 0 48 = n % 2 ^ 48 then
      updChan (setReg d BEAT_QW_PEND c.val 1 0) c fun x => { x with quiet := true }
    else if regF d r 0 48 < n % 2 ^ 48 then
      updChan (setReg (setReg d r 63 1 0) BEAT_QW_PEND c.val 1 0) c fun x => { x with quiet := false }
    else d) d

/-! ### Dispatch (R236, R240, R241, R243, R360) -/

/-- Quadrant of a square (R16) and of an engine. -/
def tileQuad (t : Nat) : Nat := 2 * (t / 32) + t % 8 / 4
def engQuad (e : Nat) : Nat := tileQuad (e / 4)

/-- The bin of a wait (R258). -/
def waitBin (w : Nat) : Nat := if w = 0 then 0 else min 15 (Nat.log2 w + 1)

/-- Counts a dispatch in a histogram. -/
def countBin (l : List Nat) (w : Nat) : List Nat := updAt l (waitBin w) fun n => (n + 1) % 2 ^ 32

/-- Whether a thread has a piece to run, or rows to draw. -/
def hasWork (d : Device) (t : Thread) : Bool :=
  !t.todo.isEmpty ||
    match instOf d t.inst with
    | some x => !exhausted x
    | none => false

/-- The thread draws its next morsel: cursor and sequence number (R236). -/
def drawMorsel (d : Device) (th : Nat) (t : Thread) (x : Instance) : Device :=
  let rows := min (x.firstRow + x.rows - x.cursor) (morselSize d x (activeP d))
  let seq := match x.flow with
    | some f => (match flowOf d x.part f with | some g => g.next | none => 0)
    | none => 0
  let d := updInst d t.inst fun y => { y with
    cursor := y.cursor + rows
    seqFrom := if x.flow.isSome && y.seqTo == y.seqFrom then seq else y.seqFrom
    seqTo := if x.flow.isSome then seq + 1 else y.seqTo }
  let d := match x.flow with
    | some f => updFlow d x.part f fun g => { g with next := seq + 1, drawn := sput g.drawn seq rows }
    | none => d
  updThread d th fun t => { t with first := x.cursor, mrows := rows, seq := seq, todo := [⟨0, rows, none⟩] }

/-- Engine `e` takes the current piece of a thread into a slot. -/
def runPiece (d : Device) (e : Eng) (th : Nat) (t : Thread) (c : Piece) (slot n : Nat) : Device :=
  let o := obsOf d e.val
  let d := updSched d fun s => { s with
    obs := sput s.obs e.val { o with bins := countBin o.bins t.waited }
    partBins := sput s.partBins t.part.val (countBin (sget s.partBins t.part.val (List.replicate 16 0)) t.waited) }
  let d := incReg d SCH_EVT0 0 64 1
  let d := updThread d th fun t => { t with
    st := .running, lastEng := some e, excl := false, promoted := false, waited := 0, slot := slot
    todo := headSlot t.todo slot }
  let d := if d.engines[e].lastInst = some t.inst then d else invalidateClean d e
  let d := match instOf d t.inst with
    | some x => x.held.foldl (fun d h => updSeg d h fun s => { s with last := n }) d
    | none => d
  updEng d e fun x => { x with
    lastInst := some t.inst
    dispatch := some ⟨.running, th, t.inst, t.first + c.off, c.rows, slot, t.seq, n, false, none⟩ }

/-- A thread is given an engine for beat `n`; false where it must wait for its flow or its instance has no slot left
(R234, R250, R251, R254). -/
def takeThread (d : Device) (e : Eng) (th n : Nat) : Bool × Device :=
  match threadOf d th with
  | none => (false, d)
  | some t =>
    match instOf d t.inst with
    | none => (false, d)
    | some x =>
      let slotted := outHandle x != 0
      let needs := match t.todo with | c :: _ => c.slot.isNone | [] => true
      if t.todo.isEmpty && !flowAllows d t.inst x then
        (false, updThread d th fun t => { t with st := .waitFlow })
      else if needs && slotted && decide (outSlots x ≤ x.nextSlot) then
        let first := match t.todo with | c :: _ => t.first + c.off | [] => x.cursor
        let rows := match t.todo with
          | c :: _ => c.rows
          | [] => min (x.firstRow + x.rows - x.cursor) (morselSize d x (activeP d))
        (false, stopInst d t.inst 5 first rows)
      else
        let d := if t.todo.isEmpty then drawMorsel d th t x else d
        match threadOf d th with
        | some t =>
          (match t.todo with
           | c :: _ =>
             let slot := match c.slot with | some s => s | none => if slotted then x.nextSlot else 0
             let d := if needs && slotted then updInst d t.inst fun x => { x with nextSlot := x.nextSlot + 1 } else d
             (true, runPiece d e th t c slot n)
           | [] => (false, d))
        | none => (false, d)

/-- The older of two threads: earlier READY_BEAT, then lower number. -/
def oldest (l : List (Nat × Thread)) : Option (Nat × Thread) :=
  match l with
  | [] => none
  | a :: t =>
    match oldest t with
    | none => some a
    | some b => if b.2.readyBeat < a.2.readyBeat then some b else some a

/-- Threads of a partition that may be dispatched at the tick that starts beat `n`. -/
def candidates (d : Device) (p : Part) (n : Nat) : List (Nat × Thread) :=
  d.sched.threads.filter fun t => t.2.part == p && eligible d n t.2 && hasWork d t.2

/-- Whether an engine is in service, has no unit and runs no health flight. -/
def engFree (d : Device) (e : Eng) : Bool :=
  inService d.engines[e] && d.engines[e].dispatch.isNone && !d.sched.lent.contains e

/-- The free engines of a partition in increasing order. -/
def freeEngines (d : Device) (p : Part) : List Eng := (partEngines d p).filter fun e => engFree d e

/-- Whether EXCL keeps a thread off an engine (R256). -/
def excluded (d : Device) (t : Thread) (e : Eng) : Bool :=
  t.excl && t.lastEng == some e && decide (1 < (partEngines d t.part).length)

/-- The engine that pass 1 gives a promoted thread. -/
def promotedEngine (d : Device) (t : Thread) : Option Eng :=
  let fs := (freeEngines d t.part).filter fun e => !excluded d t e
  match t.lastEng with
  | some l =>
    if fs.contains l then some l
    else match fs.find? fun e => engQuad e.val == engQuad l.val with
      | some e => some e
      | none => fs.head?
  | none => fs.head?

/-- Promoted threads in order of promotion. -/
def nextPromoted (l : List (Nat × Thread)) : Option (Nat × Thread) :=
  match l with
  | [] => none
  | a :: t =>
    match nextPromoted t with
    | none => some a
    | some b => if b.2.promotedAt < a.2.promotedAt then some b else some a

/-- Pass 1 of R241. -/
def passOne (d : Device) (p : Part) (n : Nat) (tried : List Nat) : Nat → Device
  | 0 => d
  | fuel + 1 =>
    match nextPromoted ((candidates d p n).filter fun t => t.2.promoted && !tried.contains t.1) with
    | none => d
    | some (th, t) =>
      match promotedEngine d t with
      | none => passOne d p n (th :: tried) fuel
      | some e => passOne (takeThread d e th n).2 p n (th :: tried) fuel

/-- An engine takes the oldest thread that a pass allows it. -/
def fillEngine (d : Device) (p : Part) (e : Eng) (n : Nat) (ok : Thread → Bool) : Nat → Device
  | 0 => d
  | fuel + 1 =>
    match oldest ((candidates d p n).filter fun t => ok t.2 && !excluded d t.2 e) with
    | none => d
    | some (th, _) =>
      let r := takeThread d e th n
      if r.1 then r.2 else fillEngine r.2 p e n ok fuel

/-- One of the passes 2 to 4 of R241. -/
def passOver (d : Device) (p : Part) (n : Nat) (ok : Eng → Thread → Bool) : Device :=
  (freeEngines d p).foldl (fun d e =>
    if engFree d e then fillEngine d p e n (ok e) (d.sched.threads.length + 1) else d) d

/-- The four passes of one partition. -/
def dispatchPart (d : Device) (p : Part) (n : Nat) : Device :=
  let d := passOne d p n [] (d.sched.threads.length + 1)
  let d := passOver d p n fun e t => t.lastEng == some e
  let d := passOver d p n fun e t => match t.lastEng with | some l => engQuad l.val == engQuad e.val | none => false
  passOver d p n fun _ _ => true

/-- After the passes: a thread that has no piece becomes FREE where the draws have used up the cursor (R236), one whose
draw the flow refuses waits for it, and another one grows older. -/
def passOverThread (d : Device) (n : Nat) (t : Thread) : Option Thread :=
  match instOf d t.inst with
  | some x =>
    if t.todo.isEmpty && exhausted x && t.st != .running && t.st != .stalled then none
    else if !eligible d n t then some t
    else if t.todo.isEmpty && !flowAllows d t.inst x then some { t with st := .waitFlow }
    else some { t with waited := t.waited + 1 }
  | none => some t

/-- Every thread after the passes. -/
def afterPasses (d : Device) (n : Nat) : Device :=
  updSched d fun s => { s with threads := s.threads.filterMap fun t => (passOverThread d n t.2).map fun x => (t.1, x) }

/-! ### Observability (R237, R258) -/

/-- Busy beats of an engine among the last 1,024. -/
def engLoad (d : Device) (e : Nat) : Nat := (obsOf d e).busy.countP id

/-- Loads by scope and index: of each engine, and of each quadrant and partition the sum over its engines divided by
those in service; a load of 0 is not listed. -/
def captureLoads (d : Device) : Sparse Nat :=
  let ls := (List.finRange 256).map fun e => (e, engLoad d e.val)
  let group := fun (p : Eng → Bool) =>
    let n := (List.finRange 256).countP fun e => p e && inService d.engines[e]
    if n = 0 then 0 else (ls.filter fun l => p l.1).foldl (fun s l => s + l.2) 0 / n
  let list := fun (r : Sparse Nat) (k v : Nat) => if v = 0 then r else r ++ [(k, v)]
  let r := ls.foldl (fun r l => list r l.1.val l.2) []
  let r := (List.range 4).foldl (fun r q => list r (256 + q) (group fun e => engQuad e.val == q)) r
  (List.finRange 64).foldl (fun r p =>
    if (sfind d.parts p.val).isSome then list r (512 + p.val) (group fun e => d.engines[e].owner == some p) else r) r

/-- Ready depths and loads by scope and index, 256 × scope + index. -/
def captureReady (d : Device) (n : Nat) : Device :=
  let ts := d.sched.threads.filter fun t => eligible d n t.2
  let count := fun (r : Sparse Nat) k => sput r k (sget r k 0 + 1)
  let r := ts.foldl (fun r t =>
    let r := count r (512 + t.2.part.val)
    match t.2.lastEng with
    | some e => count (count r e.val) (256 + engQuad e.val)
    | none => r) []
  updSched d fun s => { s with ready := r, loads := captureLoads d, obsBeat := n }

/-- The code of a thread's state (R238). -/
def threadCode (s : ThreadState) : Nat :=
  match s with
  | .ready => 1
  | .running => 2
  | .waitPage => 3
  | .waitFlow => 4
  | .stalled => 5

/-- The descriptor of a thread (R237). -/
def threadWord (t : Thread) : BitVec 256 :=
  let c := t.todo.headD ⟨0, t.mrows, none⟩
  let b := fun (x : Bool) => if x then 1 else 0
  BitVec.ofNat 256 (t.first + t.mrows * 2 ^ 40 + c.off * 2 ^ 64 + c.rows * 2 ^ 88 + t.inst * 2 ^ 112 +
    (if t.ordered then t.seq % 2 ^ 32 else 0) * 2 ^ 128 + t.flow * 2 ^ 160 + t.slot % 2 ^ 24 * 2 ^ 176 +
    (match t.lastEng with | some e => e.val | none => 0) * 2 ^ 200 + b t.lastEng.isSome * 2 ^ 208 +
    b t.excl * 2 ^ 209 + t.part.val * 2 ^ 210 + threadCode t.st * 2 ^ 220 + t.stalls * 2 ^ 223 +
    b t.ordered * 2 ^ 225 + b t.started * 2 ^ 226 + b t.promoted * 2 ^ 227 + t.readyBeat % 2 ^ 16 * 2 ^ 240)

/-- The descriptor of a system-class thread (R237): class 1, its priority and its state. -/
def systemWord (d : Device) (x : SysSlot) : BitVec 256 :=
  BitVec.ofNat 256 (2 ^ 216 + x.thread.prio % 8 * 2 ^ 217 +
    (if d.sched.serving.contains x.thread then 2 else 1) * 2 ^ 220 +
    x.ready % 2 ^ 16 * 2 ^ 240)

/-- The dispatch record of the new beat in an engine's landing kernel area (R243). -/
def writeDispatch (x : Engine) : Engine :=
  let r := Config.dispatchRecord (x.dispatch.map fun u => (u.thread, u.first, u.rows, u.slot))
  { x with landing := r.foldl (fun m b => mput m (0x3e000 + b.1 % 0x2000) b.2) x.landing }

/-- The thread table as SCH_THR_Dk show it. -/
def threadTable (d : Device) : Sparse (BitVec 256) :=
  d.sched.sysTable.foldl (fun l x => sput l x.num (systemWord d x)) (d.sched.threads.map fun t => (t.1, threadWord t.2))

/-- Action 6 of a tick (R240, R241, R243, R258). -/
def tickDispatch (d : Device) (n : Nat) : Device :=
  let d := captureReady d n
  let d := d.sched.threads.foldl (fun d t => promote d n t.1) d
  let d := (List.finRange 64).foldl (fun d p => if (sfind d.parts p.val).isSome then dispatchPart d p n else d) d
  let d := allEngines (afterPasses d n) fun _ x => if inService x then writeDispatch x else x
  updSched d fun s => { s with shown := threadTable d }

/-! ### The engines at a tick (R71, R72, R82, R87, R89, R91, R329, R334) -/

/-- The registers of an engine released from hold (R91). -/
def releaseRegs (x : Engine) : Engine :=
  { x with
    pc := 0, mode := .kernel, run := .running, waiting := false
    s := Vector.replicate 32 0
    v := Vector.replicate 16 (Vector.replicate 16 0)
    vm := Vector.replicate 16 0xffff
    p := Vector.replicate 8 0
    a := Vector.replicate 8 (Vector.replicate 16 0)
    eie := false, rmode := .kernel, epc := 0, ecause := 0, eval := 0
    codeBase := 0x2000, codeLimit := 0x10000, vfcsr := 0
    camr := Vector.replicate 4 0
    camm := Vector.replicate 4 0xffffffffff
    fault := none, pendErr := [], latch := none, afterRet := false
    entry := some ⟨0, [⟨.tick, 0⟩]⟩ }

/-- Whether an engine is to be held: its HOLD bit, or a fatal event (R89, R523). -/
def holdWanted (d : Device) (e : Eng) : Bool := regF d (ENG_CTL e.val) 0 1 == 1 || d.ras.fatal

/-- An engine that goes on takes the tick, with the error interrupts that waited. -/
def takeTick (x : Engine) : Engine :=
  let y := openEntry { x with pendErr := [] } ⟨.tick, 0⟩
  x.pendErr.foldl openEntry { y with latch := none }

/-- An engine in service stops under HOLD. -/
def holdEngine (x : Engine) : Engine :=
  { abandonCam x with run := .held, entry := none, fault := none, waiting := false, latch := none }

/-- An engine that the tick retires has its running unit replayed (R256, R334). -/
def replayRetiring (d : Device) (e : Eng) : Device :=
  match d.engines[e].dispatch with
  | some u =>
    if d.engines[e].run == .running && decide (3 ≤ d.engines[e].dirty24) &&
        u.fate == .running then replayUnit d e u else d
  | none => d

/-- One engine at the tick; the discard of R329 begins in every engine. -/
def tickEngine (d : Device) (e : Eng) : Device :=
  let d := startDiscard (cancelStreams d e) e
  match d.engines[e].run with
  | .running =>
    if 3 ≤ d.engines[e].dirty24 then retireEngine d e
    else if holdWanted d e then updEng d e holdEngine
    else updEng d e takeTick
  | .held => if holdWanted d e then d else invalidateClean (updEng d e releaseRegs) e
  | .halted => d
  | .retired => d

/-! ### Other work of a tick -/

/-- The square next to a square over the link that a bit of MSH_STAT describes (R20, R549). -/
def linkPeer (t bit : Nat) : Option Nat :=
  match bit with
  | 1 => if t < 56 then some (t + 8) else none
  | 2 => if 8 ≤ t then some (t - 8) else none
  | 3 => if t % 8 < 7 then some (t + 1) else none
  | 4 => if 0 < t % 8 then some (t - 1) else none
  | _ => none

/-- Whether a square's router is in service. -/
def routerUp (d : Device) (t : Nat) : Bool := regF d (MSH_STAT t) 0 1 == 1

/-- The neighbour whose router serves the local port of a square: the lowest-indexed one in service (R516). -/
def servingSquare (d : Device) (t : Nat) : Option Nat := ([2, 4, 3, 1].filterMap (linkPeer t)).find? (routerUp d)

/-- Squares whose own router is out of service show the neighbour that serves them. -/
def showServing (d : Device) : Device :=
  (List.range 64).foldl (fun d t =>
    if routerUp d t then d else setReg d (MSH_STAT t) 8 7 ((servingSquare d t).getD 0x7f)) d

/-- The squares at which a Foyer port attaches (R21, R549). -/
def foyerSquares : List Nat := [24, 31, 32, 39]

/-- Whether a Foyer port attaches at a square and is in service. -/
def foyerUp (d : Device) (t : Nat) : Bool := foyerSquares.contains t && routerUp d t && !d.mesh.ports.contains t

/-- A router, a link or a Foyer port leaves the routes; the other ports carry a port's traffic (R22). -/
def routeGone (d : Device) (t bit : Nat) : Device :=
  let d := setReg d (MSH_STAT t) bit 1 0
  if bit = 5 then { d with mesh := { d.mesh with ports := insertNat d.mesh.ports t } } else d

/-- Route changes take effect (R516, R518). -/
def tickRoutes (d : Device) : Device :=
  if d.mesh.pend.isEmpty then d
  else showServing (d.mesh.pend.foldl (fun d c => routeGone d c.1 c.2) { d with mesh := { d.mesh with pend := [] } })

/-- Page of an interrupt file of a hart (R376). -/
def filePage (h f : Nat) : Nat :=
  if f = 0 then 0xe000000000000 + 0x1000 * h else 0xe000001000000 + 0x8000 * h + 0x1000 * (f - 1)

/-- Beat-tick interrupts to the harts (R51). -/
def tickHarts (d : Device) (n : Nat) : Device :=
  let id := regF d BEAT_CORE_IRQ 0 11
  if id = 0 || n % 2 ^ regF d BEAT_CORE_IRQ 16 4 != 0 then d
  else (List.range 128).foldl (fun d h =>
    let en := if h < 64 then regF d BEAT_CORE_EN0 h 1 else regF d BEAT_CORE_EN1 (h - 64) 1
    if en = 1 then msiWrite d (filePage h (1 + regF d BEAT_CORE_IRQ 11 3)) (BitVec.ofNat 32 id) else d) d

/-- Queues with POLL are read (R263), and held rings may be consumed again (R255). -/
def tickQueues (d : Device) : Device :=
  let held := d.queues.any fun q => q.2.heldBack && q.2.type == 1
  let d := if held then incReg d SCH_BP 32 32 1 else d
  { d with queues := d.queues.map fun q =>
      (q.1, { q.2 with due := q.2.due || (q.2.poll && q.2.enabled) || q.2.heldBack }) }

/-- The engine of a quadrant that runs a health flight: the lowest of the free pool, or else the lowest in service
(R505). -/
def lentEngine (d : Device) (q : Nat) : Option Eng :=
  let es := (List.finRange 256).filter fun e => engQuad e.val == q && inService d.engines[e]
  (es.find? fun e => d.engines[e].owner.isNone).or es.head?

/-- The health flights of a trial take a beat of one engine in each quadrant, which runs no guest unit in it (R505). -/
def tickHealth (d : Device) (run : Bool) : Device :=
  let on := run && d.warden.trialOn && d.warden.pause.isNone
  let d := updSched d fun s => { s with lent := if on then (List.range 4).filterMap (lentEngine d) else [] }
  { d with warden := { d.warden with flightsRun := d.warden.flightsRun || on } }

/-- Actions 3 to 7 of a tick that starts beat `n`; `b` is the period of the beat that ends. -/
def tickActions (d : Device) (b n : Nat) (sel : TickChoice) : Device :=
  let d := (List.finRange 256).foldl replayRetiring (sel.cuts.foldl cutStore d)
  let d := wakeThreads (freeThreads (abandonAll d b n)) n
  let d := (List.finRange 256).foldl tickEngine d
  let d := tickQuiet (tickFreeze (tickRoutes d) n) n
  let d := tickDispatch (tickHealth d sel.health) n
  tickQueues (tickHarts (tickOut d) n)

end Sys2Proof.Machine
end

