-- ==== Sys2Proof/Machine/Codecs.lean ====
section
/-! DEFINITION. Codec jobs of CODEC queues: dispatch, COMPRESS, DECOMPRESS, self-verification, retirement and abort
(R455 to R460, R477, R278, R287). -/

namespace Sys2Proof.Machine

open Sys2Proof

/-! ### Writes whose bytes the spec leaves unspecified -/

/-- Whether every page of a range translates to main memory (R373, R379). -/
def pagesOk (d : Device) (p : Part) (va n : Nat) (wr : Bool) : Bool :=
  n == 0 || (List.range ((va + n - 1) / 4096 - va / 4096 + 1)).all fun k =>
    match xlatPure d (devOf p) ((va / 4096 + k) * 4096) wr with
    | some (pa, _) => inMain d pa
    | none => false

/-- Writes `n` bytes that the spec leaves unspecified. -/
def ioWriteFree (d : Device) (p : Part) (va n : Nat) : Bool × Device :=
  let f := drawFree d
  ioWrite f.2 p va n (Config.freeValue f.1 % 2 ^ (8 * n))

/-- Writes pieces of output. When one of them faults, what was written before is unspecified (R455). -/
def writePieces (d : Device) (p : Part) (l : List (Nat × List Byte)) (ok : Bool) : Bool × Device :=
  match l with
  | [] => (true, d)
  | (a, b) :: t =>
    match (if ok then ioWrite d p a b.length (ofBytes b) else ioWriteFree d p a b.length) with
    | (true, d) => writePieces d p t ok
    | (false, d) => (false, d)

/-- Writes output into a chain: the bytes where every page of it can be written, unspecified bytes up to the fault
otherwise. -/
def writeOutput (d : Device) (p : Part) (l : List (Nat × List Byte)) : Bool × Device :=
  writePieces d p l (l.all fun x => pagesOk d p x.1 x.2.length true)

/-- Buffers whose bytes an ended job leaves unspecified, where they can be written. -/
def freeBuffers (d : Device) (p : Part) (l : List (Nat × Nat)) : Device :=
  l.foldl (fun d b => if pagesOk d p b.1 b.2 true then (ioWriteFree d p b.1 b.2).2 else d) d

/-! ### Codecs -/

def updCodec (d : Device) (k : CodecId) (j : Option CodecJob) : Device :=
  { d with codecs := d.codecs.set k.val j }

/-- Whether a codec is retired (R460). -/
def codecRetired (d : Device) (k : Nat) : Bool := regF d (RLE_STAT k) 0 2 == 2

/-- Whether no codec is in service. -/
def noCodec (d : Device) : Bool := (List.range 8).all (codecRetired d)

/-- Whether a codec can start a job. -/
def codecFree (d : Device) (k : CodecId) : Bool := !codecRetired d k.val && d.codecs[k].isNone

/-- The codec that runs an entry. -/
def codecOf (d : Device) (p : Part) (q : QueueId) (i : Nat) : Option CodecId :=
  (List.finRange 8).find? fun k => d.codecs[k] == some ⟨p, q, i⟩

/-- A codec's mismatch is counted; the third within 24 hours retires it (R459, R460). -/
def codecMismatch (d : Device) (k : CodecId) : Device :=
  let r := RLE_ERR k.val
  let d := incRegSat (setReg d r 0 1 1) r 16 16
  let n := min 3 (regF d r 32 2 + 1)
  let d := raiseEvent (setReg d r 32 2 n) 0x16 k.val 0 0 none
  if n = 3 then lifeRetire (updCodec (setReg (setReg d r 1 1 1) (RLE_STAT k.val) 0 2 2) k none) .codec k.val 0x16 else d

/-- Whether a codec's next block mismatches: by itself, or under an injection (R524). -/
def blockMismatch (d : Device) (k : CodecId) (mis : Bool) : Bool × Device :=
  let a := takeArmed d 0x16 k.val 0
  (mis || a.1, a.2)

/-- Bytes are counted for a codec and its partition (R469, R477). -/
def codecBytes (d : Device) (k : CodecId) (p : Option Part) (i o : Nat) : Device :=
  let d := incReg (incReg d (RLE_IN k.val) 0 64 i) (RLE_OUT k.val) 0 64 o
  match p with
  | some p => updPart d p fun x => { x with served := x.served + i }
  | none => d

/-! ### Dispatch (R477) -/

/-- CODEC entries of a partition that wait for a codec and may run on `k`, the oldest first by their numbers. -/
def codecWaiting (d : Device) (p : Part) (k : CodecId) : List (Nat × CodecJob) :=
  let others := (List.finRange 8).any fun j => j != k && !codecRetired d j.val
  (d.queues.filter fun x => x.1 / 16384 == p.val && x.2.type == 3).flatMap fun x =>
    let q : QueueId := ⟨x.1 % 16384, Nat.mod_lt _ (by omega)⟩
    (x.2.entries.filter fun a => a.outcome.isNone && (codecOf d p q a.index).isNone &&
      !(others && a.failedOn == some k)).map fun a => (a.num, ⟨p, q, a.index⟩)

/-- The job with the lowest number. -/
def oldestJob (l : List (Nat × CodecJob)) : Option CodecJob :=
  (l.foldl (fun (m : Option (Nat × CodecJob)) x => match m with
    | some y => if x.1 < y.1 then some x else m
    | none => some x) none).map (·.2)

/-- CODEC_WEIGHT of a partition (R472). -/
def codecWeight (d : Device) (p : Part) : Nat := partF d p 0x4b 1

/-- Input bytes served to a partition. -/
def servedOf (d : Device) (p : Part) : Nat := match sfind d.parts p.val with | some x => x.served | none => 0

/-- The partition with the lowest quotient of bytes served and weight; of equal ones the lowest number (DESIGN CHOICE,
log entry 41). -/
def codecTurn (d : Device) (k : CodecId) : Option Part :=
  (List.finRange 64).foldl (fun (m : Option Part) p =>
    if (codecWaiting d p k).isEmpty then m
    else match m with
      | some o => if servedOf d p * codecWeight d o < servedOf d o * codecWeight d p then some p else m
      | none => some p) none

/-- CODEC_DISPATCH (R477): a free codec takes a job. -/
def execCodecDispatch (k : CodecId) (s : State) : Host.Outcome State Fault Refusal :=
  act (whenRun fun d =>
    if codecFree d k then
      match codecTurn d k with
      | some p => updCodec d k (oldestJob (codecWaiting d p k))
      | none => d
    else d) s

/-! ### Jobs (R287, R455 to R459) -/

/-- A job ends with a status and its results; its codec is free. -/
def endCodec (d : Device) (j : CodecJob) (st used out last : Nat) : Device :=
  let retried := match accFind d j.part j.queue j.index with
    | some a => if a.failedOn.isSome then 1 else 0
    | none => 0
  let d := match codecOf d j.part j.queue j.index with | some k => updCodec d k none | none => d
  decideEntry d j.part j.queue j.index st [(0x28, 8, used), (0x30, 8, out), (0x38, 1, last), (0x39, 1, retried)]

/-- Whether the body of a job breaks R287. -/
def codecBad (raw : BitVec 512) (comp : Bool) : Bool :=
  !bodyClear raw [(8, 1), (0xa, 1), (0x10, 8), (0x18, 8), (0x20, 8), (0x28, 8), (0x30, 8), (0x38, 1), (0x39, 1)] ||
  entF raw 0xa 1 == 0 || decide (15 < entF raw 0xa 1) || entF raw 0x20 8 % 16 != 0 ||
  (if comp then !isWidth (entF raw 8 1) else entF raw 8 1 != 0)

/-- The records of a chain list as address, length and reserved field. -/
def chainRecs (v : Nat) : Nat → List (Nat × Nat × Nat)
  | 0 => []
  | n + 1 => (v % 2 ^ 64, fieldN v 64 32, fieldN v 96 32) :: chainRecs (v / 2 ^ 128) n

/-- What the checks of a job leave: a status, or the buffers of the chain and the input. -/
inductive CodecIn where
  | fails (st : Nat)
  | runs (caps : List (Nat × Nat)) (src : List Byte)
  deriving DecidableEq, Repr

/-- Checks 1 to 4 of R455 as far as they concern the input. -/
def codecChecks (d : Device) (p : Part) (raw : BitVec 512) (comp : Bool) : CodecIn × Device :=
  if codecBad raw comp then (.fails 3, d)
  else
    let n := entF raw 0xa 1
    match ioRead d p (entF raw 0x20 8) (16 * n) 3 with
    | ((none, _), d) => (.fails 0x301, d)
    | ((some _, true), d) => (.fails 0xb, d)
    | ((some v, false), d) =>
      let recs := chainRecs v n
      if recs.any fun r => r.2.1 == 0 || r.2.2 != 0 then (.fails 3, d)
      else match ioRead d p (entF raw 0x10 8) (entF raw 0x18 8) 3 with
        | ((none, _), d) => (.fails 0x301, d)
        | ((some _, true), d) => (.fails 0xb, d)
        | ((some x, false), d) => (.runs (recs.map fun r => (r.1, r.2.1)) (bytesOf x (entF raw 0x18 8)), d)

/-- A job's run meets a mismatch: the first sends it to another codec, the second ends it (R459). -/
def jobMismatch (d : Device) (j : CodecJob) (k : CodecId) (a : Accepted) : Device :=
  let d := codecMismatch d k
  if a.failedOn.isSome then endCodec d j 7 0 0 0
  else updCodec (updAcc d j.part j.queue j.index fun a => { a with failedOn := some k }) k none

/-- Runs a COMPRESS on codec `k`. -/
def runCompress (d : Device) (j : CodecJob) (k : CodecId) (a : Accepted) (mis : Bool) : Device :=
  match codecChecks d j.part a.raw true with
  | (.fails st, d) => endCodec d j st 0 0 0
  | (.runs caps src, d) =>
    let r := packInput (entF a.raw 8 1) src (caps.map (·.2))
    let b := if r.out.isEmpty then (false, d) else blockMismatch d k mis
    let d := b.2
    if b.1 then jobMismatch d j k a
    else
      let out := r.out.map fun o => ((caps[o.1]?.getD (0, 0)).1 + o.2.1, o.2.2)
      match writeOutput d j.part out with
      | (false, d) => endCodec d j 0x301 0 0 0
      | (true, d) =>
        endCodec (codecBytes d k (some j.part) r.used r.size) j (if r.done then 0 else 5) r.used r.size
          (if r.out.isEmpty then 0 else r.last)

/-- The pieces in which a run of bytes fills buffers, and the buffers' space behind them. -/
def fillBuffers (l : List Byte) : List (Nat × Nat) → List (Nat × List Byte) × List (Nat × Nat)
  | [] => ([], [])
  | (a, n) :: t =>
    if l.isEmpty then ([], (a, n) :: t)
    else
      let r := fillBuffers (l.drop n) t
      ((a, l.take n) :: r.1, (if l.length < n then [(a + l.length, n - l.length)] else []) ++ r.2)

/-- Runs a DECOMPRESS on codec `k` (R458). -/
def runDecompress (d : Device) (j : CodecJob) (k : CodecId) (a : Accepted) : Device :=
  match codecChecks d j.part a.raw false with
  | (.fails st, d) => endCodec d j st 0 0 0
  | (.runs caps src, d) =>
    let r := unpackInput src (caps.foldl (fun n c => n + c.2) 0)
    let f := fillBuffers r.1 caps
    match writeOutput d j.part f.1 with
    | (false, d) => endCodec d j 0x301 0 0 0
    | (true, d) =>
      let d := if r.2.2 = 0 then d else freeBuffers d j.part f.2
      endCodec (codecBytes d k (some j.part) r.2.1 r.1.length) j r.2.2 r.2.1 r.1.length (f.1.length - 1)

/-- Runs a CODEC entry whose job a codec has taken; with no codec in service it ends at once (R460). -/
def codecEntry (d : Device) (p : Part) (q : QueueId) (i op : Nat) (f : CodecJob → CodecId → Accepted → Device) :
    Device :=
  match openEntryOf d p q i 3 op with
  | none => d
  | some a =>
    if noCodec d then endCodec d ⟨p, q, i⟩ 0x302 0 0 0
    else match codecOf d p q i with
      | some k => f ⟨p, q, i⟩ k a
      | none => d

/-- COMPRESS (R449 to R457, R459, R460); `mis` says that a block fails its verification. -/
def execCompress (p : Part) (q : QueueId) (i : Nat) (mis : Bool) (s : State) : Host.Outcome State Fault Refusal :=
  act (whenServed fun d => codecEntry d p q i 1 fun j k a => runCompress d j k a mis) s

/-- DECOMPRESS (R454, R455, R458). -/
def execDecompress (p : Part) (q : QueueId) (i : Nat) (s : State) : Host.Outcome State Fault Refusal :=
  act (whenServed fun d => codecEntry d p q i 2 fun j k a => runDecompress d j k a) s

/-- An ABORT stops a job; the buffers of one that a codec had taken hold unspecified bytes (R278). -/
def abortCodec (d : Device) (p : Part) (q : QueueId) (a : Accepted) : Device :=
  let d := match codecOf d p q a.index with
    | none => d
    | some k =>
      let d := updCodec d k none
      let n := entF a.raw 0xa 1
      if codecBad a.raw (entOp a.raw == 1) || !pagesOk d p (entF a.raw 0x20 8) (16 * n) false then d
      else match ioRead d p (entF a.raw 0x20 8) (16 * n) 3 with
        | ((some v, _), d) => freeBuffers d p ((chainRecs v n).map fun r => (r.1, r.2.1))
        | (_, d) => d
  decideEntry d p q a.index 1 []

end Sys2Proof.Machine
end

