-- ==== Sys2Proof/Machine/Alloc.lean ====
section
/-! DEFINITION. Heap space: donated ranges, free blocks, quotas, uses of a segment that keep it in place, and the checks
of ALLOC (R159, R161, R249, R292 to R302, R305, R307, R312). -/

namespace Sys2Proof.Machine

open Sys2Proof


/-! ### Ranges and granules -/

/-- Granules of a range that hold segments: the first half of a mirrored range (R294). -/
def rangeGran (r : DonRange) : List Nat := if r.kind = 1 then r.granules.take (r.granules.length / 2) else r.granules

/-- Ranges of a kind of a partition. -/
def rangesOf (d : Device) (p : Part) (kind : Nat) : List DonRange :=
  d.pager.ranges.filter fun r => r.part == p && r.kind == kind

/-- The quadrant of a range's granules (R292). -/
def rangeQuad (d : Device) (r : DonRange) : Nat := quadOf d (r.granules.headD 0 * 4096)

/-- Granules that hold a CXL copy of a segment. -/
def cxlOf (s : Segment) : List Nat := match s.copy with | some (.cxl g) => g | _ => []

/-- Whether a segment, a copy or save areas occupy a granule. -/
def occupied (d : Device) (g : Nat) : Bool :=
  (d.pager.saves.any fun x => x.2.contains g) || d.pager.segs.any fun s => s.2.granules.contains g ||
      (cxlOf s.2).contains g

/-- Whether a granule, or the partner that mirrors it, is retired (R312). -/
def retiredAt (d : Device) (g : Nat) : Bool :=
  d.pager.retired.contains g || d.mirrors.any fun m => m.prim == g && d.pager.retired.contains m.partner

/-- Whether the block of 2^k granules from index `i` of a range is free. -/
def blockFree (d : Device) (r : DonRange) (i k : Nat) : Bool :=
  let b := ((rangeGran r).drop i).take (2 ^ k)
  b.length == 2 ^ k && b.all fun g => !occupied d g && !retiredAt d g

/-- Granules of the blocks of 2^k granules that are free in a range, with their first index (R298). -/
def freeBlocks (d : Device) (r : DonRange) (k : Nat) : List (Nat × List Nat) :=
  ((List.range ((rangeGran r).length / 2 ^ k)).filter fun j => blockFree d r (j * 2 ^ k) k).map fun j =>
    (j * 2 ^ k, ((rangeGran r).drop (j * 2 ^ k)).take (2 ^ k))

/-- Free blocks of a kind of a partition, in one quadrant where one is given, outside ranges being reclaimed: IOVA and
granules. -/
def placesOf (d : Device) (p : Part) (kind : Nat) (quad : Option Nat) (k : Nat) : List (Nat × List Nat) :=
  ((rangesOf d p kind).filter fun r => !r.reclaiming && (quad == none || quad == some (rangeQuad d r))).flatMap fun r =>
    (freeBlocks d r k).map fun b => (r.iova + 65536 * b.1, b.2)

/-- The place that a choice names. -/
def choosePlace (l : List (Nat × List Nat)) (c : Nat) : Option (Nat × List Nat) := l[c % l.length]?

/-- The kind of range that holds a segment. -/
def kindOf (s : Segment) : Nat := if s.mirror then 1 else 0

/-! ### Quotas (R249, R302, R313) -/

def sizeGran (s : Segment) : Nat := 2 ^ s.sizeK
def segsOf (d : Device) (p : Part) : List Segment := (d.pager.segs.filter fun s => s.2.part == p).map (·.2)

/-- Granules of save areas: one for every 32 threads (R249). -/
def saveGran (d : Device) (p : Part) : Nat := ceilDiv (partThreads d p) 32

/-- Granules counted against HEAP_Q, pinned granules, and donated granules that count. -/
def heapUsed (d : Device) (p : Part) : Nat := (segsOf d p).foldl (fun n s => n + sizeGran s) 0 + saveGran d p
def pinnedGran (d : Device) (p : Part) : Nat :=
  ((segsOf d p).filter fun s => s.state == .pinned).foldl (fun n s => n + sizeGran s) 0
def donatedGran (d : Device) (p : Part) : Nat :=
  (rangesOf d p 0 ++ rangesOf d p 1).foldl (fun n r => n + (rangeGran r).length) 0
/-- Heap granules that are occupied, and those that are free. -/
def residentGran (d : Device) (p : Part) : Nat := (segsOf d p).foldl (fun n s => n + s.granules.length) 0
def freeGran (d : Device) (p : Part) : Nat :=
  ((rangesOf d p 0 ++ rangesOf d p 1).flatMap rangeGran).countP fun g => !occupied d g && !retiredAt d g

/-- PGR_PART_QUOTA of a partition. -/
def quotaOf (d : Device) (p : Part) : Dword := sget d.pager.quota p.val 0
def heapQ (d : Device) (p : Part) : Nat := field (quotaOf d p) 0 28
def segMax (d : Device) (p : Part) : Nat := field (quotaOf d p) 28 20
def pinQ (d : Device) (p : Part) : Nat := 64 * field (quotaOf d p) 48 16

/-! ### What keeps a segment in place -/

/-- Whether an admitted instance holds a segment (R305). -/
def heldByInst (d : Device) (h : Nat) : Bool := d.sched.insts.any fun i => i.2.held.contains h

/-- Whether a stream names a segment: one keeps its handle once it has left OPENING, whatever becomes of it, until it is
FREE (R159). -/
def streamsOn (d : Device) (h : Nat) : Bool :=
  d.engines.any fun x => x.streams.any fun s => s.handle == h && s.st != .free && s.st != .opening

/-- Whether a segment may be moved or paged out. -/
def movable (d : Device) (h : Nat) : Bool := !heldByInst d h && !streamsOn d h

/-! ### ALLOC (R286, R300, R302) -/

/-- HANDLE of an entry, and whether the body breaks R286. -/
def entHandle (raw : BitVec 512) : Nat := entF raw 0x10 8
def handleBad (raw : BitVec 512) (fields : List (Nat × Nat)) : Bool :=
  !bodyClear raw ((0x10, 8) :: fields) || decide (2 ^ 40 ≤ entHandle raw)

/-- Whether the body of an ALLOC breaks R286 or R161. -/
def allocBad (raw : BitVec 512) : Bool :=
  !bodyClear raw [(8, 1), (9, 1), (0xa, 1), (0xb, 1), (0x10, 8), (0x18, 8)] || decide (10 < entF raw 8 1) ||
  !widthOk (entF raw 9 1) (entF raw 0xa 1) || decide (3 < entF raw 0xb 1)

/-- Engines of a partition in service in a quadrant. -/
def quadEngines (d : Device) (p : Part) (q : Nat) : Nat := (partEngines d p).countP fun e => engQuad e.val == q

/-- The quadrant that ALLOC takes: the one with most of the partition's engines, the lower one of equals. -/
def allocQuad (d : Device) (p : Part) (kind : Nat) : Option Nat :=
  let l := (rangesOf d p kind).filter fun r => !r.reclaiming
  (List.range 4).foldl (fun m q =>
    if !(l.any fun r => rangeQuad d r == q) then m
    else match m with
      | some o => if quadEngines d p o < quadEngines d p q then some q else m
      | none => some q) none

/-- The checks of ALLOC in their order; 0 where they all hold. -/
def allocStatus (d : Device) (p : Part) (raw : BitVec 512) : Nat :=
  let n := 2 ^ entF raw 8 1
  if allocBad raw then 3
  else if fieldN (entF raw 0xb 1) 1 1 = 1 && (rangesOf d p 1).isEmpty then 0x503
  else if decide (heapQ d p < heapUsed d p + n) || decide (segMax d p < (segsOf d p).length + 1) ||
      decide (donatedGran d p - pinnedGran d p < n) then 8
  else if fieldN (entF raw 0xb 1) 0 1 = 1 && decide (pinQ d p < pinnedGran d p + n) then 0x501
  else 0

/-- Places for the segment of an ALLOC. -/
def allocPlaces (d : Device) (p : Part) (raw : BitVec 512) : List (Nat × List Nat) :=
  let kind := fieldN (entF raw 0xb 1) 1 1
  match allocQuad d p kind with
  | some q => placesOf d p kind (some q) (entF raw 8 1)
  | none => []

/-- Adds to the space that is waited for. -/
def addWant (d : Device) (w : Want) : Device :=
  updPager d fun g => { g with wants := if g.wants.contains w then g.wants else g.wants ++ [w] }

/-- Space that was found is no longer waited for. -/
def dropWant (d : Device) (w : Want) : Device := updPager d fun g => { g with wants := g.wants.filter (· != w) }

/-- Whether an accepted ALLOC of the partition has not taken its block; a second one, and a page-in, wait for it. -/
def allocPends (d : Device) (p : Part) : Bool :=
  d.queues.any fun x => x.1 / 16384 == p.val && x.2.type == 5 &&
    x.2.entries.any fun a => a.outcome.isNone && entOp a.raw == 1

/-- An ALLOC asks the pager for space. -/
def allocWant (d : Device) (p : Part) (raw : BitVec 512) : Device :=
  let kind := fieldN (entF raw 0xb 1) 1 1
  match allocQuad d p kind with
  | some q => addWant d ⟨p, kind, q, entF raw 8 1⟩
  | none => d

/-! ### Save areas (R249) -/

/-- Whether a granule lies in a range that is being reclaimed. -/
def granReclaim (d : Device) (g : Nat) : Bool := d.pager.ranges.any fun r => r.reclaiming && r.granules.contains g

/-- Heap granules are taken for the save areas of a partition's threads, or given back; those of a range that is being
reclaimed are exchanged for others where the heap has room, and a lack of room asks the pager for it. A context's bytes
are not written, since software neither reads nor writes them (log entry 122). -/
def settleSaves (d : Device) (p : Part) : Device :=
  let need := saveGran d p
  let has := sget d.pager.saves p.val []
  if has.length = need ∧ !has.any (granReclaim d) then d
  else
    let put := fun d l => updPager d fun g => { g with saves := if l = [] then sdel g.saves p.val
                                                       else sput g.saves p.val l }
    let keep := (has.filter fun g => !granReclaim d g).take need
    let more := ((placesOf (put d keep) p 0 none 0).flatMap (·.2)).take (need - keep.length)
    let late := (has.filter (granReclaim d)).take (need - keep.length - more.length)
    let l := keep ++ more ++ late
    match rangesOf d p 0 with
    | [] => put d l
    | r :: _ =>
      let w : Want := ⟨p, 0, rangeQuad d r, 0⟩
      if l.length < need then addWant (put d l) w else dropWant (put d l) w

/-- FLIGHT_RUN (R230 to R235, R249, R255, R284): the scheduler takes an accepted RUN entry, or ends its instance once it
has come to its end (R285). `pick` is where it looks for free instance and thread numbers. -/
def execFlightRun (p : Part) (q : QueueId) (i : Nat) (pick : Nat) (s : State) : Host.Outcome State Fault Refusal :=
  act (whenServed fun d =>
    if partFrozen d p then d
    else match instOfEntry d p q i with
    | some k => finishInst d k
    | none =>
      match openEntryOf d p q i 1 1 with
      | some a => settleSaves (runEntry d p q i a pick) p
      | none => d) s

/-- An ALLOC that passes its checks waits unread for a free block (R267, R300). -/
def allocWaits (d : Device) (p : Part) (raw : BitVec 512) : Bool :=
  allocStatus d p raw == 0 && (allocPlaces d p raw).isEmpty

end Sys2Proof.Machine
end

