-- ==== Sys2Proof/Machine/Rings.lean ====
section
/-! DEFINITION. Queues: doorbells, reading and accepting entries, completion, completion interrupts, aborts and the
registers of the ADMIN queue (R260 to R281, R291). -/

namespace Sys2Proof.Machine

open Sys2Proof

/-! ### Message interrupts (R279, R280) -/

/-- PCIe and CXL.io memory-mapped I/O (R373). -/
def inMmio (a : Nat) : Bool := decide (2 ^ 51 ≤ a) && decide (a < 3 * 2 ^ 50)

/-- An MSI that translated to `a`: performed, or discarded with a record of class MSI_LOST. -/
def msiTo (d : Device) (a : Nat) (v : BitVec 32) (q : Nat) (p : Option Part) : Device :=
  if inMain d a || (fileOf a).isSome then busWrite4 d a v (p.getD 0)
  else if inMmio a then d
  else raiseEvent d 0x1a q a 0 p

/-- Sends a queue's MSI. -/
def queueMsi (d : Device) (p : Part) (q : QueueId) : Device :=
  match qFind d p q with
  | none => d
  | some x =>
    let d := updQueue d p q fun x => { x with n := 0, timerOn := false, msiDue := false }
    match xlat d p x.msiAddr true with
    | (some pa, d') => msiTo d' pa x.msiData q.val (some p)
    | (none, d') => d'

/-- The queue's MSI is sent if it is enabled, or is due at the resumption of a partition that is frozen (R279, R483). -/
def sendIf (d : Device) (p : Part) (q : QueueId) (cond : Queue → Bool) : Device :=
  match qFind d p q with
  | none => d
  | some x =>
    if x.msiEn && decide (1 ≤ x.n) && cond x then
      if partFrozen d p then updQueue d p q fun x => { x with msiDue := true } else queueMsi d p q
    else d

/-- A COUNT at or below n takes effect at once: the MSI is sent if it is enabled, and nothing but an MSI sets n to 0
(R279, R283; log entry 42). -/
def moderate (d : Device) (p : Part) (q : QueueId) : Device := sendIf d p q fun x => decide (x.count ≤ x.n)

/-- The MSIs that came due while a partition was frozen are sent (R279, R483). -/
def sendDue (d : Device) (p : Part) : Device :=
  (d.queues.filter fun x => x.1 / 16384 == p.val && x.2.msiDue).foldl (fun d x =>
    let q : QueueId := ⟨x.1 % 16384, Nat.mod_lt _ (by omega)⟩
    updQueue (sendIf d p q fun _ => true) p q fun x => { x with msiDue := false }) d

/-- A completion with IRQ = 1 (R279). -/
def countIrq (d : Device) (p : Part) (q : QueueId) : Device :=
  let d := updQueue d p q fun x => { x with n := min 65535 (x.n + 1), timerOn := x.timerOn || x.n == 0 }
  sendIf d p q fun x => decide (x.count ≤ x.n)

/-- MSI_TIMER_EXPIRY (R279, R281, R483): the package leaves its deep idle state before the MSI. -/
def execMsiTimerExpiry (p : Part) (q : QueueId) (s : State) : Host.Outcome State Fault Refusal :=
  act (whenRun fun d =>
    match qFind d p q with
    | none => d
    | some x =>
      if !x.timerOn || partFrozen d p then d
      else
        let d := updQueue d p q fun x => { x with timerOn := false }
        if x.msiEn && decide (1 ≤ x.n) then queueMsi (wakePackage d) p q else d) s

/-! ### Completion (R261, R265, R274, R276) -/

/-- Result fields of an opcode as offset and length (R282, R284, R286 to R288, R420). -/
def resultFields (type op : Nat) : List (Nat × Nat) :=
  match type, op with
  | 0, 5 => [(0x10, 1), (0x11, 1), (0x12, 2), (0x14, 2), (0x16, 1), (0x17, 1), (0x18, 4), (0x1c, 2)]
  | 1, 1 => [(0x28, 8), (0x30, 4), (0x34, 4), (0x38, 8)]
  | 2, 1 => [(0x28, 8), (0x30, 4)]
  | 2, 2 => [(0x28, 8), (0x30, 4)]
  | 2, 3 => [(0x28, 8), (0x30, 4)]
  | 2, 4 => [(0x28, 8), (0x30, 4)]
  | 2, 5 => [(0x28, 8), (0x30, 4)]
  | 3, 1 => [(0x28, 8), (0x30, 8), (0x38, 1), (0x39, 1)]
  | 3, 2 => [(0x28, 8), (0x30, 8), (0x38, 1), (0x39, 1)]
  | 4, 2 => [(0x38, 1), (0x39, 1)]
  | 5, 1 => [(0x10, 8), (0x18, 8)]
  | 5, 3 => [(0x18, 8)]
  | 5, 5 => [(0x18, 8), (0x20, 1), (0x21, 1), (0x22, 1), (0x23, 1)]
  | _, _ => []

/-- I/O virtual address of the entry at a ring index. -/
def ringAddr (x : Queue) (i : Nat) : Nat := x.base + 64 * i
/-- Entries of a ring. -/
def ringSize (x : Queue) : Nat := 2 ^ x.log2

/-- The writes of a completion as offset, length and value: results and STATUS, then FLAGS with DONE = 1 and OWN = 1,
then FLAGS with OWN = 0. -/
def completionWrites (type : Nat) (raw : BitVec 512) (o : Outcome) : List (Nat × Nat × Nat) :=
  let given := fun f => (o.results.find? fun r => r.1 == f).map (·.2.2)
  (resultFields type (entOp raw)).map (fun f => (f.1, f.2, (given f.1).getD 0)) ++
  [(4, 2, o.status), (0, 1, Nat.lor (entF raw 0 1) 3), (0, 1, Nat.lor (entF raw 0 1) 3 / 2 * 2)]

/-- Writes a completion into the ring; false where a write faults. -/
def writeCompletion (d : Device) (p : Part) (a : Nat) (l : List (Nat × Nat × Nat)) : Bool × Device :=
  match l with
  | [] => (true, d)
  | w :: t =>
    match ioWrite d p (a + w.1) w.2.1 w.2.2 with
    | (true, d') => writeCompletion d' p a t
    | (false, d') => (false, d')

/-- The queue enters ERROR (R272, R274). -/
def queueError (d : Device) (p : Part) (q : QueueId) (c : ErrCause) (i : Nat) : Device :=
  updQueue d p q fun x => if x.error then x else { x with error := true, cause := c, errIndex := i }

/-- Blocks that a completed command has left in the write buffer know that it has completed (R426). -/
def markStaged (d : Device) (n : Nat) : Device :=
  { d with ledger := { d.ledger with staged := d.ledger.staged.map fun s =>
      if s.cmd = n ∧ s.done.isNone then { s with done := some d.accepted } else s } }

/-- Whether an entry's completion may be written: the entry that an ABORT names has completed first, and a
completion whose write faulted waits for the queue's reset. -/
def mayComplete (d : Device) (x : Queue) (a : Accepted) : Bool :=
  !(x.error && x.kept.contains a.index) &&
    match a.after with
    | some (k, i) => (match sfind d.queues k with
        | some y => !(y.entries.any fun b => b.index == i)
        | none => true)
    | none => true

/-- A queue whose last accepted entry has completed and that is being switched off is DISABLED. -/
def settleClosing (d : Device) (p : Part) (q : QueueId) : Device :=
  updQueue d p q fun x => if q = 0 && x.closing && x.entries.isEmpty then { x with enabled := false,
                                                                                   closing := false } else x

/-- The queue that bytes 0x08 and 0x09 of an ADMIN entry name. -/
def namedQ (raw : BitVec 512) : QueueId := ⟨entF raw 8 2 % 16384, Nat.mod_lt _ (by omega)⟩

/-- The queue that a CREATE_QUEUE entry describes. -/
def newQueue (raw : BitVec 512) : Queue :=
  { type := entF raw 0xa 1, base := entF raw 0x10 8, log2 := entF raw 0xb 1, cons := 0,
    poll := fieldN (entF raw 0xc 1) 0 1 == 1, msiEn := fieldN (entF raw 0xc 1) 1 1 == 1, msiAddr := entF raw 0x18 8,
    msiData := BitVec.ofNat 32 (entF raw 0x20 4), count := entF raw 0x24 2, timer := entF raw 0x26 2,
    enabled := true, closing := false, n := 0, timerOn := false, error := false, cause := .none, errIndex := 0,
    due := false, entries := [], skip := [], kept := [], heldBack := false, msiDue := false }

/-- The named queue takes the values of a SET_MODERATION entry: an MSI_EN that becomes 1 sends the waiting MSI, and a
COUNT at or below n acts (R279, R283). -/
def setModeration (d : Device) (p : Part) (raw : BitVec 512) : Device :=
  match qFind d p (namedQ raw) with
  | none => d
  | some x =>
    let n := newQueue raw
    let d := updQueue d p (namedQ raw) fun x => { x with
      poll := n.poll, msiEn := n.msiEn, msiAddr := n.msiAddr, msiData := n.msiData, count := n.count, timer := n.timer }
    sendIf d p (namedQ raw) fun y => !x.msiEn || decide (y.count ≤ y.n)

/-- Window pages for which the writes of a completion would wait. -/
def entryWaits (d : Device) (p : Part) (a : Nat) : List Nat :=
  match xlatPure d (devOf p) a true with
  | some (pa, _) => winWaits d pa
  | none => []

/-- What a command does once its own completion is visible: SET_MODERATION's values (R283). -/
def afterCompletion (d : Device) (p : Part) (x : Queue) (a : Accepted) : Device :=
  if x.type = 0 && entOp a.raw == 6 && (match a.outcome with | some o => o.status == 0 | none => false) then
    setModeration d p a.raw
  else d

/-- A request to the ledger is accepted or has completed now: the 5 ms of R432 count from it. -/
def ledgerUsed (d : Device) : Device := { d with ledger := { d.ledger with used := d.cycle } }

/-- Completes an accepted entry whose outcome is decided. Each of its writes is visible before the next, so it waits for
the partition's writes that are held at a clean page of the window, and for its own page (R252, R265, R280). -/
def completeEntry (d : Device) (p : Part) (q : QueueId) (i : Nat) : Device :=
  match qFind d p q, accFind d p q i with
  | some x, some a =>
    (match a.outcome with
     | none => d
     | some o =>
       if !mayComplete d x a || (x.type == 1 && partFrozen d p) || partHeld d p then d
       else if !(entryWaits d p (ringAddr x i)).isEmpty then askPages d (entryWaits d p (ringAddr x i))
       else match writeCompletion d p (ringAddr x i) (completionWrites x.type a.raw o) with
         | (false, d) =>
           queueError (updQueue d p q fun x => { x with kept := insertNat x.kept i }) p q .writeFault i
         | (true, d) =>
           let d := if x.type = 1 then
               (match instOfEntry d p q i with
                | some k => dropInst d k
                | none => d)
             else d
           let d := updQueue d p q fun x => { x with
             entries := x.entries.filter (fun b => b.index != i), kept := x.kept.filter (· != i) }
           let d := markStaged d a.num
           let d := if x.type = 2 then ledgerUsed d else d
           let d := if fieldN (entF a.raw 0 1) 3 1 = 1 then countIrq d p q else d
           settleClosing (afterCompletion d p x a) p q)
  | _, _ => d

/-- ENTRY_COMPLETION (R265, R274, R276, R279). -/
def execEntryCompletion (p : Part) (q : QueueId) (i : Nat) (s : State) : Host.Outcome State Fault Refusal :=
  act (whenRun fun d => completeEntry d p q i) s

/-! ### Reading and accepting (R263, R264, R267, R268, R270, R272, R277) -/

/-- Whether an opcode is assigned for a queue type (R271). -/
def opAssigned (type op : Nat) : Bool :=
  match type with
  | 0 => decide (1 ≤ op) && decide (op ≤ 8)
  | 1 => op == 1
  | 2 => decide (1 ≤ op) && decide (op ≤ 6)
  | 3 => op == 1 || op == 2
  | 4 => decide (1 ≤ op) && decide (op ≤ 3)
  | 5 => decide (1 ≤ op) && decide (op ≤ 6)
  | _ => false

/-- A malformed entry (R272). -/
def malformed (type : Nat) (raw : BitVec 512) : Bool :=
  let f := entF raw 0 1
  decide (16 ≤ f) || fieldN f 1 1 == 1 || !opAssigned type (entOp raw) || entF raw 4 2 != 0 || entF raw 6 2 != 0

/-- Whether the A64 reads a queue now. -/
def queueReads (d : Device) (p : Part) (x : Queue) : Bool :=
  x.due && x.enabled && !x.closing && !x.error && partRuns d p && !paused d && !d.ras.fatal &&
    !(x.entries.any fun a => a.index == x.cons)

/-- Entries of a queue that are accepted and not completed. -/
def inFlight (x : Queue) : Nat := x.entries.countP fun a => !x.skip.contains a.index

/-- Whether an entry must wait until earlier ones of its queue have completed (R270). -/
def waitsOrdered (x : Queue) (raw : BitVec 512) : Bool :=
  fieldN (entF raw 0 1) 2 1 == 1 && [1, 3, 4, 5].contains x.type && inFlight x != 0

/-- The causes that hold a FLIGHT entry back; an entry that admission will turn away needs nothing (R255, R267). -/
def backPressure (d : Device) (p : Part) (x : Queue) (raw : BitVec 512) : List Nat :=
  if x.type = 1 && !malformed x.type raw then heldBits d p (entF raw 0x18 8 == 0) true else []

/-- A running self-test pauses when a LEDGER command or a pager request is accepted (R432). -/
def pauseTest (d : Device) : Device :=
  let d := ledgerUsed d
  if regF d LDG_ST_STAT 0 2 = 1 then
    let l := d.ledger
    { setReg d LDG_ST_STAT 0 2 2 with ledger := { l with
        from_ := none, ran := match l.from_ with | some c => l.ran + (d.cycle - c) | none => l.ran } }
  else d

/-- From the acceptance of a FREE, its handle names no segment for any later request, and a page-out of the segment is
cancelled (R302, R308). -/
def markFree (d : Device) (p : Part) (q : QueueId) (i : Nat) (raw : BitVec 512) : Device :=
  if handleBad raw [] || (segOf d p.val (entHandle raw)).isNone then d
  else updSeg d (entHandle raw) fun s => { cancelOut s with freeing := true, freeBy := some (qKey p q, i) }

/-- Accepts the entry at the consumer index. -/
def acceptEntry (d : Device) (p : Part) (q : QueueId) (x : Queue) (raw : BitVec 512) : Device :=
  let i := x.cons
  let bad := malformed x.type raw
  let a : Accepted := {
    num := d.accepted, index := i, raw := raw, outcome := if bad then some ⟨0xd, []⟩ else none
    after := none, saved := [], covered := [], progress := 0, failedOn := none }
  let d := { d with accepted := d.accepted + 1 }
  let d := updQueue d p q fun x => { x with
    cons := (i + 1) % ringSize x, entries := x.entries ++ [a], heldBack := false }
  let d := if x.type = 2 then pauseTest d else d
  let d := if x.type = 5 && entOp raw == 2 && !bad then markFree d p q i raw else d
  if bad then queueError d p q .malformed i else d

/-- The entry at the consumer index is read and, if the A64 owns it, accepted or held back. -/
def readQueue (d : Device) (p : Part) (q : QueueId) (x : Queue) : Device :=
  if x.skip.contains x.cons then
    updQueue d p q fun x => { x with cons := (x.cons + 1) % ringSize x, skip := x.skip.filter (· != x.cons) }
  else match ioRead d p (ringAddr x x.cons) 64 1 with
    | ((some v, false), d) =>
      let raw : BitVec 512 := BitVec.ofNat 512 v
      if fieldN (entF raw 0 1) 0 1 = 0 then updQueue d p q fun x => { x with due := false }
      else if waitsOrdered x raw then d
      else if x.type = 5 && !malformed 5 raw && entOp raw == 1 && allocPends d p then
        updQueue d p q fun x => { x with due := false, heldBack := true }
      else if x.type = 5 && !malformed 5 raw && entOp raw == 1 && allocWaits d p raw then
        updQueue (allocWant d p raw) p q fun x => { x with due := false, heldBack := true }
      else
        (match backPressure d p x raw with
         | [] => acceptEntry d p q x raw
         | bits => updQueue (holdRing d p q bits) p q fun x => { x with due := false })
    | (_, d) => queueError d p q .readFault x.cons

/-- QUEUE_ENTRY_READ (R263, R264, R267 to R274, R277). -/
def execQueueEntryRead (p : Part) (q : QueueId) (s : State) : Host.Outcome State Fault Refusal :=
  act (whenServed fun d =>
    match qFind d p q with
    | some x => if queueReads d p x then readQueue d p q x else d
    | none => d) s

/-- A write of PRT_DBq; one for queue 0 while PRT_ADMIN_CFG.ENABLE is 0 is ignored. -/
def writeQueueBell (d : Device) (p : Part) (q : QueueId) (w : RegAccess) : Device :=
  gateWrite d (PRT_DB p.val q.val) w fun d =>
    match qFind d p q with
    | some x => if x.enabled && !(q == 0 && x.closing) && partRuns d p then updQueue d p q fun x =>
        { x with due := true } else d
    | none => d

/-- DOORBELL (R263, R291, R482). -/
def execDoorbell (p : Part) (q : QueueId) (w : RegAccess) (s : State) : Host.Outcome State Fault Refusal :=
  act (fun d => writeQueueBell d p q w) s

/-! ### Aborts (R275 to R278) -/

/-- The instance of a RUN entry is asked to stop: it does, unless it has stopped or failed already, since its status is
then decided (R276, R278). -/
def stopRun (d : Device) (k : Nat) : Bool × Device :=
  match instOf d k with
  | some x => if x.stop.isSome || x.failed.isSome || x.decided then (false, d)
              else (true, updInst d k fun i => { i with abort := true })
  | none => (false, d)

/-- An accepted entry that is asked to stop: whether it stops, and the device (R278, R430). -/
def stopAccepted (d : Device) (p : Part) (q : QueueId) (x : Queue) (a : Accepted) : Bool × Device :=
  let now := (true, decideEntry d p q a.index 1 [])
  if a.outcome.isSome then (false, d)
  else match x.type, entOp a.raw with
    | 1, _ =>
      (match instOfEntry d p q a.index with
       | some k => stopRun d k
       | none => now)
    | 2, 1 => now
    | 2, 2 => if a.progress = 0 then now else (false, d)
    | 3, _ => (true, abortCodec d p q a)
    | 4, 2 => now
    | _, _ => (false, d)

/-- Space that an ALLOC waited for is wanted no longer. -/
def forgetWant (d : Device) (p : Part) (x : Queue) (raw : BitVec 512) : Device :=
  match x.type, entOp raw with
  | 5, 1 =>
    (match allocQuad d p (fieldN (entF raw 0xb 1) 1 1) with
     | some q => dropWant d ⟨p, fieldN (entF raw 0xb 1) 1 1, q, entF raw 8 1⟩
     | none => d)
  | _, _ => d

/-- An entry that has not been accepted completes with ABORTED, at once unless its completion waits or faults, and the
consumer index later passes over it (R274, R276, R277). -/
def abortUnread (d : Device) (p : Part) (q : QueueId) (x : Queue) (i : Nat) (raw : BitVec 512) : Device :=
  let a : Accepted := {
    num := d.accepted, index := i, raw := raw, outcome := some ⟨1, []⟩, after := none, saved := [], covered := []
    progress := 0, failedOn := none }
  let d := forgetWant { d with accepted := d.accepted + 1 } p x raw
  completeEntry (updQueue d p q fun x => { x with
    skip := insertNat x.skip i, entries := x.entries ++ [a], heldBack := false }) p q i

/-- Reads the entry at a ring index that has not been accepted: what it holds, if the A64 owns it, and whether the read
faulted (R274). -/
def ownedRaw (d : Device) (p : Part) (x : Queue) (i : Nat) : (Option (BitVec 512) × Bool) × Device :=
  if x.skip.contains i || x.entries.any (fun a => a.index == i) then ((none, false), d)
  else match ioRead d p (ringAddr x i) 64 1 with
    | ((some v, false), d) => ((if v % 2 = 1 then some (BitVec.ofNat 512 v) else none, false), d)
    | (_, d) => ((none, true), d)

/-- The first entry from ring index `i` on, within `n`, that the A64 owns unread and that carries a tag, and whether a
read faulted on the way. -/
def findUnread (d : Device) (p : Part) (x : Queue) (tag : Nat) (i : Nat) :
    Nat → (Option (Nat × BitVec 512) × Bool) × Device
  | 0 => ((none, false), d)
  | n + 1 =>
    let r := ownedRaw d p x i
    match r.1.1 with
    | some raw =>
      if entF raw 2 2 = tag then ((some (i, raw), false), r.2) else findUnread r.2 p x tag ((i + 1) % ringSize x) n
    | none =>
      let t := findUnread r.2 p x tag ((i + 1) % ringSize x) n
      ((t.1.1, t.1.2 || r.1.2), t.2)

/-- A read of the ring that faulted puts the queue in ERROR at its consumer index (R274). -/
def scanFault (d : Device) (p : Part) (q : QueueId) (fault : Bool) : Device :=
  match qFind d p q with
  | some x => if fault then queueError d p q .readFault x.cons else d
  | none => d

/-- Decides an ABORT of a tag in a queue: its status, the entry whose completion must be visible first, and the
device. -/
def resolveAbort (d : Device) (p : Part) (q : QueueId) (tag : Nat) : (Nat × Option (Nat × Nat)) × Device :=
  match qFind d p q with
  | none => ((2, none), d)
  | some x =>
    match takeFirst (fun a => entF a.raw 2 2 == tag) x.entries with
    | some (a, _) =>
      let r := stopAccepted d p q x a
      ((if r.1 then 0 else 2, some (qKey p q, a.index)), r.2)
    | none =>
      let r := findUnread d p x tag x.cons (ringSize x)
      let d := scanFault r.2 p q r.1.2
      match r.1.1 with
      | some (i, raw) => ((0, some (qKey p q, i)), abortUnread d p q x i raw)
      | none => ((2, none), d)

/-- Every entry from ring index `i` on, within `n`, that the A64 owns unread completes with ABORTED; whether a read
faulted. -/
def abortOwned (d : Device) (p : Part) (q : QueueId) (x : Queue) (i : Nat) : Nat → Bool × Device
  | 0 => (false, d)
  | n + 1 =>
    let r := ownedRaw d p x i
    let t := abortOwned (match r.1.1 with | some raw => abortUnread r.2 p q x i raw | none => r.2) p q x
      ((i + 1) % ringSize x) n
    (t.1 || r.1.2, t.2)

/-- The consumer index passes over entries that completed before acceptance (R277). -/
def passSkipped (d : Device) (p : Part) (q : QueueId) : Nat → Device
  | 0 => d
  | n + 1 =>
    match qFind d p q with
    | none => d
    | some x =>
      if x.skip.contains x.cons then
        passSkipped (updQueue d p q fun x => { x with
          cons := (x.cons + 1) % ringSize x, skip := x.skip.filter (· != x.cons) }) p q n
      else d

/-- Every device-owned entry of a queue is handled as if an ABORT named it, the consumer index passes over those that
had not been accepted, and the queue runs (mode 0, R275). -/
def abortQueue (d : Device) (p : Part) (q : QueueId) : Device :=
  match qFind d p q with
  | none => d
  | some x =>
    let d := updQueue d p q fun x => { x with error := false, cause := .none, kept := [] }
    let d := x.entries.foldl (fun d a =>
      match accFind d p q a.index with
      | some a => (stopAccepted d p q x a).2
      | none => d) d
    let r := abortOwned d p q x x.cons (ringSize x)
    scanFault (updQueue (passSkipped r.2 p q (ringSize x)) p q fun x => { x with heldBack := false }) p q r.1

/-- Reading goes on after an error (mode 1, R275). -/
def resumeQueue (d : Device) (p : Part) (q : QueueId) : Device :=
  updQueue d p q fun x =>
    if x.error then
      { x with
        cons := if x.cause = .malformed then (x.errIndex + 1) % ringSize x else x.errIndex
        error := false, cause := .none, kept := [], due := true }
    else x

/-! ### The ADMIN queue's registers (R275, R283, R291) -/

/-- The ADMIN queue takes its parameters from its registers. -/
def syncAdmin (d : Device) (p : Part) : Device :=
  updQueue d p 0 fun x => { x with
    base := regF d (PRT_ADMIN_BASE p.val) 12 40 * 4096
    log2 := regF d (PRT_ADMIN_CFG p.val) 8 5
    poll := regF d (PRT_ADMIN_CFG p.val) 1 1 == 1
    msiEn := regF d (PRT_ADMIN_CFG p.val) 2 1 == 1
    msiAddr := regF d (PRT_ADMIN_MSI_ADDR p.val) 2 62 * 4
    msiData := BitVec.ofNat 32 (regF d (PRT_ADMIN_MOD p.val) 0 32)
    count := regF d (PRT_ADMIN_MOD p.val) 32 12
    timer := regF d (PRT_ADMIN_MOD p.val) 48 11 }

/-- A write of PRT_ADMIN_CFG: LOG2 stays while ENABLE is 1. -/
def writeAdminCfg (d : Device) (p : Part) (w : RegAccess) : Device :=
  let r := PRT_ADMIN_CFG p.val
  gateWrite d r w fun d =>
    let old := reg d r
    let d := plainWrite d r w
    let d := if field old 0 1 = 1 then setReg d r 8 5 (field old 8 5) else d
    let was := match qFind d p 0 with | some x => x.msiEn | none => false
    let d := syncAdmin d p
    let en := regF d r 0 1
    let d := if field old 0 1 = 0 && en == 1 then
        updQueue d p 0 fun x => { x with enabled := true, closing := false, cons := 0 }
      else if field old 0 1 = 1 && en == 0 then
        settleClosing (updQueue d p 0 fun x => { x with closing := true }) p 0
      else d
    sendIf d p 0 fun x => !was && x.msiEn

/-- PRT_ADMIN_CFG_WRITE (R279, R291). -/
def execPrtAdminCfgWrite (p : Part) (w : RegAccess) (s : State) : Host.Outcome State Fault Refusal :=
  act (fun d => writeAdminCfg d p w) s

/-- A write of PRT_ADMIN_MOD: a COUNT at or below n takes effect at once. -/
def writeAdminMod (d : Device) (p : Part) (w : RegAccess) : Device :=
  gateWrite d (PRT_ADMIN_MOD p.val) w fun d =>
    moderate (syncAdmin (plainWrite d (PRT_ADMIN_MOD p.val) w) p) p 0

/-- PRT_ADMIN_MOD_WRITE (R279, R283, R291). -/
def execPrtAdminModWrite (p : Part) (w : RegAccess) (s : State) : Host.Outcome State Fault Refusal :=
  act (fun d => writeAdminMod d p w) s

/-- A write of PRT_ADMIN_RESET: 1 aborts, 2 resumes, other values do nothing. -/
def writeAdminReset (d : Device) (p : Part) (w : RegAccess) : Device :=
  gateWrite d (PRT_ADMIN_RESET p.val) w fun d =>
    match carried w 0 2 with
    | some 1 => abortQueue d p 0
    | some 2 => resumeQueue d p 0
    | _ => d

/-- ADMIN_RESET_ABORT (R275): a write of PRT_ADMIN_RESET with MODE 0b01. -/
def execAdminResetAbort (p : Part) (w : RegAccess) (s : State) : Host.Outcome State Fault Refusal :=
  act (served fun d => if carried w 0 2 = some 1 then writeAdminReset d p w else d) s

/-- ADMIN_RESET_RESUME (R275): a write of PRT_ADMIN_RESET with MODE 0b10. -/
def execAdminResetResume (p : Part) (w : RegAccess) (s : State) : Host.Outcome State Fault Refusal :=
  act (fun d => if carried w 0 2 = some 2 then writeAdminReset d p w else d) s

end Sys2Proof.Machine
end

