-- ==== Sys2Proof/Machine/Admin.lean ====
section
/-! DEFINITION. The commands of the ADMIN queue that act on queues and CAM banks (R282, R283, R275, R276). -/

namespace Sys2Proof.Machine

open Sys2Proof

/-- The ADMIN entry at a ring index, where it is the next to execute and carries an opcode: the A64 executes ADMIN
entries one at a time, in ring order. An entry that is decided and whose completion cannot be written yet, since it
waits for the entry that it aborted or for a reset of the queue, holds up nothing behind it (log entry 118). -/
def adminEntry (d : Device) (p : Part) (i op : Nat) : Option Accepted :=
  match qFind d p 0 with
  | some x =>
    (match x.entries.find? fun a => a.outcome.isNone || mayComplete d x a with
     | some a => if a.index = i then openEntryOf d p 0 i 0 op else none
     | none => none)
  | none => none

/-- Decides an ADMIN entry. -/
def adminEnd (d : Device) (p : Part) (i st : Nat) : Device := decideEntry d p 0 i st []

/-- Whether QID lies outside 1 to 16,383. -/
def qidBad (raw : BitVec 512) : Bool := entF raw 8 2 == 0 || decide (16383 < entF raw 8 2)

/-- Whether MSI_ADDR, COUNT, TIMER or QFLAGS of an entry lies outside its range. -/
def modBad (raw : BitVec 512) : Bool :=
  decide (3 < entF raw 0xc 1) || entF raw 0x18 8 % 4 != 0 || entF raw 0x24 2 == 0 || decide (4095 < entF raw 0x24 2) ||
  entF raw 0x26 2 == 0 || decide (1024 < entF raw 0x26 2)

/-- Acts on the ADMIN entry: the meaning decides it. -/
def runAdmin (p : Part) (i op : Nat) (f : Device → Accepted → Device) (d : Device) : Device :=
  match adminEntry d p i op with
  | some a => f d a
  | none => d

/-- Runs a command that names an existing queue. -/
def onQueue (d : Device) (p : Part) (i : Nat) (a : Accepted) (bad : Bool) (f : QueueId → Queue → Device) : Device :=
  if bad then adminEnd d p i 3
  else match qFind d p (namedQ a.raw) with
    | some x => f (namedQ a.raw) x
    | none => adminEnd d p i 2

/-! ### CREATE_QUEUE -/

/-- Queues of a partition beyond ADMIN. -/
def queueCount (d : Device) (p : Part) : Nat := d.queues.countP fun x => x.1 / 16384 == p.val && x.1 % 16384 != 0

def createBad (raw : BitVec 512) : Bool :=
  !bodyClear raw [(8, 2), (0xa, 1), (0xb, 1), (0xc, 1), (0x10, 8), (0x18, 8), (0x20, 4), (0x24, 2), (0x26, 2)] ||
  qidBad raw || entF raw 0xa 1 == 0 || decide (5 < entF raw 0xa 1) || decide (entF raw 0xb 1 < 4) ||
  decide (16 < entF raw 0xb 1) || entF raw 0x10 8 % 4096 != 0 || modBad raw

/-- CREATE_QUEUE (R282, R283). -/
def createQueue (d : Device) (p : Part) (i : Nat) (a : Accepted) : Device :=
  if createBad a.raw then adminEnd d p i 3
  else if (qFind d p (namedQ a.raw)).isSome then adminEnd d p i 0x601
  else if quotaQueues d p ≤ queueCount d p then adminEnd d p i 8
  else adminEnd { d with queues := sput d.queues (qKey p (namedQ a.raw)) (newQueue a.raw) } p i 0

def execCreateQueue (p : Part) (i : Nat) (s : State) : Host.Outcome State Fault Refusal :=
  act (whenRun (runAdmin p i 1 fun d a => createQueue d p i a)) s

/-! ### DELETE_QUEUE and RESET_QUEUE -/

/-- DELETE_QUEUE: the queue is aborted first, and gone once its entries have completed; a completion that cannot be
written goes with it (log entry 118). -/
def deleteQueue (d : Device) (p : Part) (i : Nat) (a : Accepted) : Device :=
  onQueue d p i a (!bodyClear a.raw [(8, 2)] || qidBad a.raw) fun q x =>
    let d := if x.closing then d else updQueue (abortQueue d p q) p q fun x => { x with closing := true }
    match qFind d p q with
    | some x => if x.entries.all fun a => x.kept.contains a.index then
        adminEnd { d with queues := sdel d.queues (qKey p q) } p i 0 else d
    | none => d

def execDeleteQueue (p : Part) (i : Nat) (s : State) : Host.Outcome State Fault Refusal :=
  act (whenServed (runAdmin p i 2 fun d a => deleteQueue d p i a)) s

/-- RESET_QUEUE (R275). -/
def resetQueue (d : Device) (p : Part) (i : Nat) (a : Accepted) : Device :=
  onQueue d p i a (!bodyClear a.raw [(8, 2), (0xa, 1)] || qidBad a.raw || decide (1 < entF a.raw 0xa 1)) fun q _ =>
    adminEnd (if entF a.raw 0xa 1 = 0 then abortQueue d p q else resumeQueue d p q) p i 0

def execResetQueue (p : Part) (i : Nat) (s : State) : Host.Outcome State Fault Refusal :=
  act (whenServed (runAdmin p i 3 fun d a => resetQueue d p i a)) s

/-! ### ABORT -/

/-- Decides an ABORT-like entry: its status, and the entry whose completion comes first (R276). -/
def endAbort (d : Device) (p : Part) (q : QueueId) (i : Nat) (r : Nat × Option (Nat × Nat)) : Device :=
  updAcc (decideEntry d p q i r.1 []) p q i fun a => { a with after := if r.2 = some (qKey p q, i) then none else r.2 }

/-- ABORT (R276). -/
def abortCmd (d : Device) (p : Part) (i : Nat) (a : Accepted) : Device :=
  onQueue d p i a (!bodyClear a.raw [(8, 2), (0xa, 2)] || qidBad a.raw) fun q _ =>
    let r := resolveAbort d p q (entF a.raw 0xa 2)
    endAbort r.2 p 0 i r.1

def execAbortEntry (p : Part) (i : Nat) (s : State) : Host.Outcome State Fault Refusal :=
  act (whenServed (runAdmin p i 4 fun d a => abortCmd d p i a)) s

/-! ### GET_QUEUE and SET_MODERATION -/

/-- ERR_CAUSE (R282). -/
def causeNum (c : ErrCause) : Nat :=
  match c with
  | .none => 0
  | .malformed => 1
  | .readFault => 2
  | .writeFault => 3

/-- The result fields of GET_QUEUE. -/
def queueReport (x : Queue) : List (Nat × Nat × Nat) :=
  [(0x10, 1, if x.error then 2 else 1), (0x11, 1, causeNum x.cause), (0x12, 2, x.cons), (0x14, 2, x.errIndex),
   (0x16, 1, x.type), (0x17, 1, x.log2), (0x18, 4, inFlight x), (0x1c, 2, x.n)]

/-- GET_QUEUE (R282). -/
def getQueue (d : Device) (p : Part) (i : Nat) (a : Accepted) : Device :=
  let fields := [(8, 2), (0x10, 1), (0x11, 1), (0x12, 2), (0x14, 2), (0x16, 1), (0x17, 1), (0x18, 4), (0x1c, 2)]
  onQueue d p i a (!bodyClear a.raw fields || decide (16383 < entF a.raw 8 2)) fun _ x =>
    decideEntry d p 0 i 0 (queueReport x)

def execGetQueue (p : Part) (i : Nat) (s : State) : Host.Outcome State Fault Refusal :=
  act (whenRun (runAdmin p i 5 fun d a => getQueue d p i a)) s

/-- SET_MODERATION (R282, R283); its values take effect as its completion becomes visible (`afterCompletion`). -/
def moderationCmd (d : Device) (p : Part) (i : Nat) (a : Accepted) : Device :=
  let fields := [(8, 2), (0xc, 1), (0x18, 8), (0x20, 4), (0x24, 2), (0x26, 2)]
  onQueue d p i a (!bodyClear a.raw fields || qidBad a.raw || modBad a.raw) fun _ _ => adminEnd d p i 0

def execSetModeration (p : Part) (i : Nat) (s : State) : Host.Outcome State Fault Refusal :=
  act (whenRun (runAdmin p i 6 fun d a => moderationCmd d p i a)) s

/-! ### CAM_CONFIG -/

/-- The bank that bytes 0x08 and 0x09 name. -/
def namedBank (raw : BitVec 512) : Bank := ⟨entF raw 8 2 % 256, Nat.mod_lt _ (by omega)⟩

/-- CAM_CONFIG (R206, R282, R283). -/
def camConfig (d : Device) (p : Part) (i : Nat) (a : Accepted) : Device :=
  let raw := a.raw
  if !bodyClear raw [(8, 2), (0xa, 1), (0xb, 1), (0xc, 1), (0xd, 1)] || decide (255 < entF raw 8 2) ||
      decide (2 < entF raw 0xa 1) || decide (1 < entF raw 0xb 1) || decide (entF raw 0xc 1 < 4) ||
      decide (64 < entF raw 0xc 1) || decide (1 < entF raw 0xd 1) then adminEnd d p i 3
  else
    let b := namedBank raw
    if !bankOf d b.val p.val then adminEnd d p i 0x602
    else if d.banks[b].retired then adminEnd d p i 0x603
    else
      let v := reg d (CAM_CFG (b.val / 4) (b.val % 4))
      let v := setField (setField (setField v 0 2 (entF raw 0xa 1)) 2 1 (entF raw 0xb 1)) 4 7 (entF raw 0xc 1)
      adminEnd (setCamCfg d b v (entF raw 0xd 1 == 1)) p i 0

def execCamConfig (p : Part) (i : Nat) (s : State) : Host.Outcome State Fault Refusal :=
  act (whenRun (runAdmin p i 7 fun d a => camConfig d p i a)) s

end Sys2Proof.Machine
end

