-- ==== Sys2Proof/Machine/Branch.lean ====
section
/-! DEFINITION. Branches and jumps (R103). -/

namespace Sys2Proof.Machine

open Sys2Proof

/-- The target of a branch: the branch's own address plus 4 × off16, modulo 2^16. -/
def target (pc off : BitVec 16) : BitVec 16 := pc + off <<< 2

/-- The next pc of a branch that is taken or not. -/
def branchTo (x : Engine) (taken : Bool) (off : BitVec 16) : Engine :=
  { x with pc := if taken then target x.pc off else x.pc + 4 }

/-- A conditional branch on rs1 and rs2. -/
def branch (e : Eng) (i : Instr) (f : BForm) (c : Dword → Dword → Bool) (s : State) :
    Host.Outcome State Fault Refusal :=
  runEng e i (fun x => branchTo x (c (getS x f.a) (getS x f.b)) f.off) s

/-- A branch on a predicate; bits [25:21] hold it in their low three. -/
def branchP (e : Eng) (i : Instr) (f : PForm) (c : Mask → Bool) (s : State) :
    Host.Outcome State Fault Refusal :=
  runEng e i (fun x => branchTo x (c (getP x (f.a.setWidth 3))) f.off) s

/-- BEQ (R103). -/
def execBeq (e : Eng) (f : BForm) (s : State) : Host.Outcome State Fault Refusal :=
  branch e (.beq e f) f (fun a b => a == b) s

/-- BNE (R103). -/
def execBne (e : Eng) (f : BForm) (s : State) : Host.Outcome State Fault Refusal :=
  branch e (.bne e f) f (fun a b => a != b) s

/-- BLT (R103). -/
def execBlt (e : Eng) (f : BForm) (s : State) : Host.Outcome State Fault Refusal :=
  branch e (.blt e f) f (fun a b => a.slt b) s

/-- BGE (R103). -/
def execBge (e : Eng) (f : BForm) (s : State) : Host.Outcome State Fault Refusal :=
  branch e (.bge e f) f (fun a b => !a.slt b) s

/-- BLTU (R103). -/
def execBltu (e : Eng) (f : BForm) (s : State) : Host.Outcome State Fault Refusal :=
  branch e (.bltu e f) f (fun a b => decide (a < b)) s

/-- BGEU (R103). -/
def execBgeu (e : Eng) (f : BForm) (s : State) : Host.Outcome State Fault Refusal :=
  branch e (.bgeu e f) f (fun a b => !decide (a < b)) s

/-- BPANY (R103). -/
def execBpany (e : Eng) (f : PForm) (s : State) : Host.Outcome State Fault Refusal :=
  branchP e (.bpany e f) f (fun p => p != 0) s

/-- BPNONE (R103). -/
def execBpnone (e : Eng) (f : PForm) (s : State) : Host.Outcome State Fault Refusal :=
  branchP e (.bpnone e f) f (fun p => p == 0) s

/-- BPALL (R103). -/
def execBpall (e : Eng) (f : PForm) (s : State) : Host.Outcome State Fault Refusal :=
  branchP e (.bpall e f) f (fun p => p == 0xffff) s

/-- JAL links pc + 4 and jumps relative to pc (R103). -/
def execJal (e : Eng) (f : BForm) (s : State) : Host.Outcome State Fault Refusal :=
  runEng e (.jal e f) (fun x =>
    { setS x f.a (x.pc.setWidth 64 + 4) with pc := target x.pc f.off }) s

/-- JALR computes its target before it links (R103). -/
def execJalr (e : Eng) (f : IForm) (s : State) : Host.Outcome State Fault Refusal :=
  runEng e (.jalr e f) (fun x =>
    { setS x f.rd (x.pc.setWidth 64 + 4) with
      pc := (getS x f.rs1 + sext16 f.imm).setWidth 16 &&& 0xfffc }) s

end Sys2Proof.Machine
end

