-- ==== Sys2Proof/Machine/Ledger.lean ====
section
/-! DEFINITION. The ledger: stacks and members, namespaces, LEDGER commands, the write buffer and self-tests
(R411 to R433). -/

namespace Sys2Proof.Machine

open Sys2Proof

def updLedger (d : Device) (f : Ledger → Ledger) : Device := { d with ledger := f d.ledger }

/-! ### Members (R412, R413) -/

/-- A member that failed its code has been rebuilt. -/
def memberRecon (d : Device) (k : StackId) (lba : Nat) : Device :=
  let r := LDG_HEALTH k.val
  let d := incRegSat (incRegSat (setReg d LDG_ERR 0 1 1) r 16 16) r 32 16
  raiseEvent (lifeAdd d 7 0 1) 0x11 k.val lba 0 none

/-- A block is lost. -/
def blockLost (d : Device) (k : StackId) (key : Nat) (p : Option Part) : Device :=
  let d := incRegSat (setReg d LDG_ERR 1 1 1) (LDG_HEALTH k.val) 32 16
  let d := raiseEvent (lifeAdd d 7 1 1) 0x12 k.val (key % 2 ^ 40) 0 p
  updLedger d fun l => { l with lost := insertNat l.lost key }

/-- Whether a stack has failed. -/
def stackFailed (d : Device) (k : Nat) : Bool := regF d LDG_STAT (2 * k) 2 == 1

/-- Whether a failing member cannot be rebuilt: another member of its stripe fails too, or lies in a failed stack. -/
def memberGone (d : Device) (f : MemberFail) : Bool :=
  f.lost || (List.range 4).any fun k => k != f.stack.val && stackFailed d k

/-- Failing members met by a read from block `key` on. -/
def memberFails (d : Device) (key n : Nat) (p : Option Part) (fl : List MemberFail) : Device :=
  fl.foldl (fun d f =>
    if n ≤ f.off then d
    else if memberGone d f then blockLost d f.stack (key + f.off) p
    else memberRecon d f.stack ((key + f.off) % 2 ^ 40)) d

/-- Armed injections make the next member read from their stacks fail (R524). -/
def memberArmed (d : Device) (key : Nat) : Device :=
  [(0 : StackId), 1, 2, 3].foldl (fun d k =>
    let a := takeArmed d 0x11 k.val (key % 2 ^ 40)
    if a.1 then memberRecon a.2 k (key % 2 ^ 40) else d) d

/-! ### Blocks -/

/-- The key of a block of a namespace. -/
def blockKey (nsid lba : Nat) : Nat := 2 ^ 40 * nsid + lba

/-- The value that a staged command gives a block, if it names it. -/
def stagedBlock (s : Staged) (key : Nat) : Option Nat :=
  if s.key ≤ key then
    if key < s.key + s.data.length then s.data[key - s.key]?
    else if key < s.key + s.zeros then some 0 else none
  else none

/-- The latest staged value of a block. -/
def stagedNow (l : List Staged) (key : Nat) : Option Nat :=
  match l with
  | [] => none
  | s :: t =>
    match stagedNow t key with
    | some v => some v
    | none => stagedBlock s key

/-- A block as a command that executes now finds it. -/
def blockNow (d : Device) (key : Nat) : Block :=
  match stagedNow d.ledger.staged key with
  | some v => some v
  | none => if d.ledger.lost.contains key then none else some (sget d.ledger.media key 0)

/-- Whether a block would be read from media. -/
def fromMedia (d : Device) (key : Nat) : Bool := (stagedNow d.ledger.staged key).isNone

/-- Blocks in the write buffer (LDG_STAT.WB_BLOCKS). -/
def bufferBlocks (d : Device) : Nat := d.ledger.staged.foldl (fun n s => n + s.data.length) 0

/-! ### Entries (R420, R421) -/

def ldgNsid (raw : BitVec 512) : Nat := entF raw 8 1
def ldgBlocks (raw : BitVec 512) : Nat := entF raw 0xc 4
def ldgLba (raw : BitVec 512) : Nat := entF raw 0x10 8
def ldgKey (raw : BitVec 512) : Nat := blockKey (ldgNsid raw) (ldgLba raw)
def ldgFua (raw : BitVec 512) : Bool := fieldN (entF raw 9 1) 0 1 == 1

/-- Whether the body of a command breaks R420. -/
def ldgBad (op : Nat) (raw : BitVec 512) : Bool :=
  let nsBad := ldgNsid raw == 0 || decide (64 < ldgNsid raw)
  let sgl := [(0x18, 8), (0x20, 2)]
  let res := [(0x28, 8), (0x30, 4)]
  let sglBad := entF raw 0x18 8 % 16 != 0 || entF raw 0x20 2 == 0 || decide (256 < entF raw 0x20 2)
  match op with
  | 1 => !bodyClear raw ([(8, 1), (0xc, 4), (0x10, 8)] ++ sgl ++ res) || nsBad || sglBad || ldgBlocks raw == 0 ||
      decide (4096 < ldgBlocks raw)
  | 2 => !bodyClear raw ([(8, 1), (9, 1), (0xc, 4), (0x10, 8)] ++ sgl ++ res) || nsBad || sglBad ||
      decide (1 < entF raw 9 1) || ldgBlocks raw == 0 || decide (4096 < ldgBlocks raw)
  | 3 => !bodyClear raw ([(8, 1)] ++ res) || nsBad
  | 4 => !bodyClear raw ([(8, 1), (0xc, 4), (0x10, 8)] ++ res) || nsBad || ldgBlocks raw == 0
  | _ => !bodyClear raw ([(8, 1), (9, 1), (0xc, 4), (0x10, 8)] ++ res) || nsBad || decide (1 < entF raw 9 1) ||
      ldgBlocks raw == 0

/-- The namespace of a partition. -/
def nsOf (d : Device) (p : Part) (nsid : Nat) : Option Namespace :=
  match sfind d.ledger.nss nsid with
  | some n => if n.owner = some p then some n else none
  | none => none

/-- Checks 1 to 3 of R421; 0 where they hold. -/
def ldgChecks (d : Device) (p : Part) (op : Nat) (raw : BitVec 512) : Nat :=
  if ldgBad op raw then 3
  else match nsOf d p (ldgNsid raw) with
    | none => 2
    | some n => if op != 3 && decide (n.size * 262144 < ldgLba raw + ldgBlocks raw) then 0x201 else 0

/-- Checks 4 to 6: the elements of the scatter-gather list as address and length. -/
def sglRead (d : Device) (p : Part) (raw : BitVec 512) : (Nat × List (Nat × Nat)) × Device :=
  let n := entF raw 0x20 2
  match ioRead d p (entF raw 0x18 8) (16 * n) 1 with
  | ((none, _), d) => ((0x203, []), d)
  | ((some _, true), d) => ((0xb, []), d)
  | ((some v, false), d) =>
    let recs := chainRecs v n
    if recs.any fun r => r.2.1 == 0 || r.2.2 != 0 then ((3, []), d)
    else if (recs.foldl (fun n r => n + r.2.1) 0) != ldgBlocks raw * 4096 then ((4, []), d)
    else ((0, recs.map fun r => (r.1, r.2.1)), d)

/-- Ends a LEDGER command with a status; a MEDIA_ERROR is counted (R433). -/
def ldgEnd (d : Device) (p : Part) (q : QueueId) (i st lba n : Nat) : Device :=
  let d := if st = 0xa then incRegSat d LDG_ERR 16 16 else d
  decideEntry d p q i st [(0x28, 8, lba), (0x30, 4, n)]

/-- Accepted entries of LEDGER queues of a partition, with their queues. -/
def ldgEntries (d : Device) (p : Part) : List (Nat × Accepted) :=
  (d.queues.filter fun x => x.1 / 16384 == p.val && x.2.type == 2).flatMap fun x => x.2.entries.map fun a => (x.1, a)

/-- A command with ORDERED = 1 waits for every earlier command of its namespace (R425). -/
def ldgOrdered (d : Device) (p : Part) (a : Accepted) : Bool :=
  fieldN (entF a.raw 0 1) 2 1 == 1 && (ldgEntries d p).any fun b =>
    entOp b.2.raw != 6 && ldgNsid b.2.raw == ldgNsid a.raw && decide (b.2.num < a.num)

def isWrite (op : Nat) : Bool := op == 2 || op == 4 || op == 5

/-- Runs a LEDGER command: a FAILED ledger ends it, an earlier one of its namespace may hold it, and the first checks
come before its effect (R414, R421, R425). -/
def ldgEntry (d : Device) (p : Part) (q : QueueId) (i op : Nat) (f : Device → Accepted → Device) : Device :=
  match openEntryOf d p q i 2 op with
  | none => d
  | some a =>
    if ldgState d = 3 then ldgEnd d p q i 0xa (ldgLba a.raw) (ldgBlocks a.raw)
    else if ldgOrdered d p a then d
    else
      let st := ldgChecks d p op a.raw
      if st != 0 then ldgEnd d p q i st 0 0 else f d a

/-! ### READ (R413, R419, R422, R423) -/

/-- A write-type command of the same queue that was accepted earlier, overlaps, and has not executed. -/
def readWaits (d : Device) (p : Part) (q : QueueId) (a : Accepted) : Bool :=
  match qFind d p q with
  | none => false
  | some x => x.entries.any fun b =>
      decide (b.num < a.num) && isWrite (entOp b.raw) && b.outcome.isNone && b.progress == 0 &&
      overlaps (ldgKey b.raw) (ldgBlocks b.raw) (ldgKey a.raw) (ldgBlocks a.raw)

/-- A block as a READ sees it: as it stood before later commands of the queue replaced it. -/
def readBlock (d : Device) (a : Accepted) (key : Nat) : Block :=
  match sfind a.saved key with
  | some b => b
  | none => blockNow d key

/-- Blocks of a READ, in order. -/
def readBlocks (d : Device) (a : Accepted) : List Block :=
  (List.range (ldgBlocks a.raw)).map fun j => readBlock d a (ldgKey a.raw + j)

/-- Cuts bytes along a scatter-gather list. -/
def scatter (l : List Byte) : List (Nat × Nat) → List (Nat × List Byte)
  | [] => []
  | (a, n) :: t => (a, l.take n) :: scatter (l.drop n) t

/-- The blocks of a READ reach memory. -/
def readDone (d : Device) (p : Part) (q : QueueId) (i : Nat) (a : Accepted) (sgl : List (Nat × Nat)) : Device :=
  let bs := readBlocks d a
  let lost := (List.range bs.length).filter fun j => bs[j]? == some none
  match lost with
  | j :: _ => ldgEnd (freeBuffers d p sgl) p q i 0xa (ldgLba a.raw + j) lost.length
  | [] =>
    match writeOutput d p (scatter ((bs.map fun b => bytesOf (b.getD 0) 4096).flatten) sgl) with
    | (false, d) => ldgEnd d p q i 0x203 0 0
    | (true, d) => ldgEnd (incReg d LDG_EVT_RD 0 64 (ldgBlocks a.raw)) p q i 0 0 0

/-- LEDGER_READ (R412, R413, R419 to R424): `fl` names the members that fail their codes. -/
def execLedgerRead (p : Part) (q : QueueId) (i : Nat) (fl : List MemberFail) (s : State) :
    Host.Outcome State Fault Refusal :=
  act (whenServed fun d => ldgEntry d p q i 1 fun d a =>
    if readWaits d p q a then d
    else
      match sglRead d p a.raw with
      | ((st, sgl), d) =>
        if st != 0 then ldgEnd d p q i st 0 0
        else
          let key := ldgKey a.raw
          let media := (List.range (ldgBlocks a.raw)).any fun j => fromMedia d (key + j)
          let fl := fl.filter fun f => fromMedia d (key + f.off) && (sfind a.saved (key + f.off)).isNone
          let d := memberFails (if media then memberArmed d key else d) key (ldgBlocks a.raw) (some p) fl
          readDone d p q i a sgl) s

/-! ### Write-type commands (R415, R419, R422, R423, R427, R431) -/

/-- The parts of a range outside a list of ranges. -/
def outside (l : List (Nat × Nat)) (r : Nat × Nat) : List (Nat × Nat) :=
  l.flatMap fun x =>
    if overlaps x.1 x.2 r.1 r.2 then
      (if x.1 < r.1 then [(x.1, r.1 - x.1)] else []) ++
      (if r.1 + r.2 < x.1 + x.2 then [(r.1 + r.2, x.1 + x.2 - (r.1 + r.2))] else [])
    else [x]

/-- The parts of a command's range that no later command of its queue has replaced. -/
def uncovered (a : Accepted) : List (Nat × Nat) :=
  a.covered.foldl (fun l c => outside l c.2) [(ldgKey a.raw, ldgBlocks a.raw)]

/-- What a write leaves in a block: a block of its data, or zeros. -/
def writeBlock (a : Accepted) (data : List Nat) (key : Nat) : Block :=
  some (if data.isEmpty then 0 else data[key - ldgKey a.raw]?.getD 0)

/-- A READ that waits meets the effect of a write: one accepted before the write keeps what the write replaces, and
one accepted after it takes the write's data for what a still later command has replaced already. -/
def saveFor (d : Device) (a : Accepted) (data : List Nat) (r : Accepted) : Accepted :=
  let hit := (List.range (ldgBlocks r.raw)).map (fun j => ldgKey r.raw + j) |>.filter fun k =>
    decide (ldgKey a.raw ≤ k) && decide (k < ldgKey a.raw + ldgBlocks a.raw)
  if r.num < a.num then
    { r with saved := hit.foldl (fun l k => if (sfind l k).isSome then l else sput l k (blockNow d k)) r.saved }
  else
    let past := fun k => a.covered.any fun c => decide (c.1 < r.num) && decide (c.2.1 ≤ k) && decide (k < c.2.1 + c.2.2)
    { r with saved := hit.foldl (fun l k =>
        if (sfind l k).isSome && !past k then sput l k (writeBlock a data k) else l) r.saved }

/-- The other commands of the queue that have not executed learn of a write's effect (R423). -/
def tellQueue (d : Device) (a : Accepted) (data : List Nat) (b : Accepted) : Accepted :=
  if b.num = a.num || b.outcome.isSome || b.progress != 0 then b
  else if entOp b.raw = 1 && ldgNsid b.raw == ldgNsid a.raw then saveFor d a data b
  else if isWrite (entOp b.raw) && decide (b.num < a.num) then
    { b with covered := b.covered ++ [(a.num, ldgKey a.raw, ldgBlocks a.raw)] }
  else b

/-- A write's blocks enter the write buffer. -/
def stageWrite (d : Device) (p : Part) (q : QueueId) (i : Nat) (a : Accepted) (data : List Nat) : Device :=
  let parts := (uncovered a).map fun r =>
    (⟨a.num, none, r.1, (data.drop (r.1 - ldgKey a.raw)).take r.2, if data.isEmpty then r.2 else 0⟩ : Staged)
  let d := updQueue d p q fun x => { x with entries := x.entries.map (tellQueue d a data) }
  let d := updAcc d p q i fun a => { a with progress := ldgBlocks a.raw }
  updLedger d fun l => { l with staged := l.staged ++ parts }

/-- Decides a write whose blocks are where R427 wants them. -/
def settleWrite (d : Device) (p : Part) (q : QueueId) (i : Nat) (a : Accepted) : Device :=
  if (regF d LDG_STAT 10 1 == 0 && !ldgFua a.raw) || !(d.ledger.staged.any fun s => s.cmd == a.num) then
    ldgEnd d p q i 0 0 0
  else d

/-- A write-type command that has staged its blocks, or stages them now. -/
def writeEntry (d : Device) (p : Part) (q : QueueId) (i : Nat) (a : Accepted)
    (f : Device → Option (List Nat) × Nat × Device) : Device :=
  if a.progress != 0 then settleWrite d p q i a
  else match f d with
    | (some data, _, d) => settleWrite (stageWrite d p q i a data) p q i a
    | (none, st, d) => if st = 0 then d else ldgEnd d p q i st 0 0

/-- Reads the elements of a list from memory: the bytes, or a status. -/
def gather (d : Device) (p : Part) : List (Nat × Nat) → (Option (List Byte) × Nat) × Device
  | [] => ((some [], 0), d)
  | (a, n) :: t =>
    match ioRead d p a n 1 with
    | ((none, _), d) => ((none, 0x203), d)
    | ((some _, true), d) => ((none, 0xb), d)
    | ((some v, false), d) =>
      match gather d p t with
      | ((some r, _), d) => ((some (bytesOf v n ++ r), 0), d)
      | x => x

/-- Cuts bytes into blocks. -/
def blocksOf (l : List Byte) : Nat → List Nat
  | 0 => []
  | n + 1 => ofBytes (l.take 4096) :: blocksOf (l.drop 4096) n

/-- Check 7 of R421, after every other check. -/
def unlessReadOnly (d : Device) (f : Device → Option (List Nat) × Nat × Device) : Option (List Nat) × Nat × Device :=
  if ldgState d = 2 then (none, 0x202, d) else f d

/-- The data of a WRITE: none with status 0 while the buffer has no room. -/
def writeData (p : Part) (a : Accepted) (d : Device) : Option (List Nat) × Nat × Device :=
  match sglRead d p a.raw with
  | ((st, sgl), d') =>
    if st != 0 then (none, st, d')
    else unlessReadOnly d' fun d' =>
      if 8192 < bufferBlocks d + ldgBlocks a.raw then (none, 0, d)
      else match gather d' p sgl with
        | ((some l, _), d) =>
          (some (blocksOf l (ldgBlocks a.raw)), 0, incReg d LDG_EVT_WR 0 64 (ldgBlocks a.raw))
        | ((none, st), d) => (none, st, d)

/-- LEDGER_WRITE (R419 to R423, R427). -/
def execLedgerWrite (p : Part) (q : QueueId) (i : Nat) (s : State) : Host.Outcome State Fault Refusal :=
  act (whenServed fun d => ldgEntry d p q i 2 fun d a => writeEntry d p q i a (writeData p a)) s

/-- DEALLOCATE (R419, R431). -/
def execDeallocate (p : Part) (q : QueueId) (i : Nat) (s : State) : Host.Outcome State Fault Refusal :=
  act (whenRun fun d => ldgEntry d p q i 4 fun d a => writeEntry d p q i a fun d =>
    unlessReadOnly d fun d => (some [], 0, d)) s

/-- WRITE_ZEROES (R419, R431). -/
def execWriteZeroes (p : Part) (q : QueueId) (i : Nat) (s : State) : Host.Outcome State Fault Refusal :=
  act (whenRun fun d => ldgEntry d p q i 5 fun d a => writeEntry d p q i a fun d =>
    unlessReadOnly d fun d => (some [], 0, incReg d LDG_EVT_WR 0 64 (ldgBlocks a.raw))) s

/-! ### FLUSH and ABORT (R426, R430) -/

/-- Whether staged blocks are covered by a FLUSH. -/
def flushCovers (a : Accepted) (s : Staged) : Bool :=
  s.key / 2 ^ 40 == ldgNsid a.raw &&
    ((match s.done with | some c => decide (c ≤ a.num) | none => false) ||
      (fieldN (entF a.raw 0 1) 2 1 == 1 && decide (s.cmd < a.num)))

/-- LEDGER_FLUSH (R426): it completes once nothing that it covers waits in the buffer. -/
def execLedgerFlush (p : Part) (q : QueueId) (i : Nat) (s : State) : Host.Outcome State Fault Refusal :=
  act (whenRun fun d => ldgEntry d p q i 3 fun d a =>
    if d.ledger.staged.any (flushCovers a) then d else ldgEnd d p q i 0 0 0) s

/-- LEDGER_ABORT (R276, R420, R430). -/
def ledgerAbort (d : Device) (p : Part) (q : QueueId) (i : Nat) (a : Accepted) : Device :=
  let n := entF a.raw 8 2
  let t : QueueId := if n = 0 then q else ⟨n % 16384, Nat.mod_lt _ (by omega)⟩
  if !bodyClear a.raw [(8, 2), (0xa, 2), (0x28, 8), (0x30, 4)] || decide (16383 < n) ||
      fieldN (entF a.raw 0 1) 2 1 == 1 then ldgEnd d p q i 3 0 0
  else match qFind d p t with
    | none => ldgEnd d p q i 2 0 0
    | some x =>
      if x.type != 2 then ldgEnd d p q i 3 0 0
      else
        let r := resolveAbort d p t (entF a.raw 0xa 2)
        endAbort r.2 p q i r.1

def execLedgerAbort (p : Part) (q : QueueId) (i : Nat) (s : State) : Host.Outcome State Fault Refusal :=
  act (whenServed fun d =>
    match openEntryOf d p q i 2 6 with
    | some a => ledgerAbort d p q i a
    | none => d) s

/-! ### The write buffer (R411, R415, R427) -/

/-- Staged blocks reach media. -/
def toMedia (l : Ledger) (s : Staged) : Ledger :=
  let hit := fun k => decide (s.key ≤ k) && decide (k < s.key + max s.data.length s.zeros)
  let media := l.media.filter fun m => !hit m.1
  { l with
    lost := l.lost.filter fun k => !hit k
    media := ((List.range s.data.length).zip s.data).foldl (fun m x =>
    if x.2 = 0 then m else sput m (s.key + x.1) x.2) media
    writes := l.writes + s.data.length }

/-- Completes the commands that waited for their blocks to reach media. -/
def settleMedia (d : Device) (n : Nat) : Device :=
  d.queues.foldl (fun d x =>
    if x.2.type = 2 then
      x.2.entries.foldl (fun d a =>
        if a.num = n && a.progress != 0 then
          let p : Part := ⟨x.1 / 16384 % 64, Nat.mod_lt _ (by omega)⟩
          let q : QueueId := ⟨x.1 % 16384, Nat.mod_lt _ (by omega)⟩
          settleWrite d p q a.index a
        else d) d
    else d) d

/-- The ledger enters READ_ONLY when a stack's spare blocks are exhausted. -/
def spareLeft (d : Device) (k : StackId) (pct : Nat) : Device :=
  let d := setReg d (LDG_HEALTH k.val) 8 8 (min 100 pct)
  if pct = 0 && ldgState d != 3 && ldgState d != 2 then
    raiseEvent (setReg (setReg d LDG_STAT 8 2 2) LDG_ERR 3 1 1) 0x13 k.val 0 2 none
  else d

/-- The oldest staged blocks reach media with their parity. -/
def drainOne (d : Device) : Device :=
  match d.ledger.staged with
  | [] => d
  | s :: t => settleMedia (updLedger d fun l => toMedia { l with staged := t } s) s.cmd

/-- WRITE_BUFFER_DRAIN (R411, R415, R427); `sp` gives a stack's spare blocks in percent when they change. -/
def execWriteBufferDrain (sp : Option (StackId × Nat)) (s : State) : Host.Outcome State Fault Refusal :=
  act (whenRun fun d =>
    if ldgState d = 3 then d
    else
      let d := drainOne d
      match sp with
      | some (k, n) => spareLeft d k n
      | none => d) s

/-! ### Stacks (R414) -/

/-- A stack enters FAILED; the second one makes the ledger FAILED. READ_ONLY stays when one stack fails (DESIGN
CHOICE, log entry 43). -/
def failStack (d : Device) (k : StackId) : Device :=
  if stackFailed d k.val then d
  else
    let other := (List.range 4).any (stackFailed d)
    let d := setReg (setReg d LDG_STAT (2 * k.val) 2 1) LDG_ERR 2 1 1
    let st := if other then 3 else if ldgState d = 2 then 2 else 1
    raiseEvent (setReg d LDG_STAT 8 2 st) 0x13 k.val 0 st none

/-- STACK_FAILURE (R414): a stack that stops answering or loses more than 1 percent of its members. -/
def execStackFailure (k : StackId) (o : StackFault) (s : State) : Host.Outcome State Fault Refusal :=
  act (fun d => match o with
    | .silent => failStack d k
    | .members n => if 8388608 < 100 * n then failStack d k else d) s

/-! ### Self-tests (R432) -/

/-- Starts a self-test unless one runs. -/
def startTest (d : Device) (ty : Nat) : Device :=
  if regF d LDG_ST_STAT 0 2 != 0 then d
  else
    let d := setReg (setReg (setReg d LDG_ST_STAT 0 64 0) LDG_ST_STAT 0 2 1) LDG_ST_STAT 2 1 ty
    updLedger d fun l => { l with from_ := some d.cycle, ran := 0 }

/-- Running time of the current test in engine cycles. -/
def testCycles (d : Device) : Nat :=
  d.ledger.ran + (match d.ledger.from_ with | some c => d.cycle - c | none => 0)

/-- A test ends with a result. -/
def endTest (d : Device) (res stack : Nat) : Device :=
  if regF d LDG_ST_STAT 0 2 = 0 then d
  else
    let d := setReg d LDG_ST_STAT 32 32 (testCycles d / 2000000000)
    let d := setReg (setReg (setReg d LDG_ST_STAT 0 2 0) LDG_ST_STAT 3 3 res) LDG_ST_STAT 6 2 stack
    let d := setReg d LDG_ST_STAT 16 16 (Config.testProgress (regF d LDG_ST_STAT 2 1) (testCycles d) % 65536)
    lifeNote (updLedger d fun l => { l with from_ := none }) .selftest (regF d LDG_ST_STAT 2 1) res

/-- A write of LDG_ST_CTL. -/
def writeTestCtl (d : Device) (w : RegAccess) : Device :=
  gateWrite d LDG_ST_CTL w fun d =>
    match carried w 0 2 with
    | some 1 => startTest d 0
    | some 2 => startTest d 1
    | some 3 => endTest d 3 0
    | _ => d

/-- SELFTEST_SHORT_START, SELFTEST_EXTENDED_START and SELFTEST_ABORT (R432): writes of LDG_ST_CTL. -/
def execSelftestShortStart (w : RegAccess) (s : State) : Host.Outcome State Fault Refusal :=
  act (fun d => if carried w 0 2 = some 1 then writeTestCtl d w else d) s

def execSelftestExtendedStart (w : RegAccess) (s : State) : Host.Outcome State Fault Refusal :=
  act (fun d => if carried w 0 2 = some 2 then writeTestCtl d w else d) s

def execSelftestAbort (w : RegAccess) (s : State) : Host.Outcome State Fault Refusal :=
  act (fun d => if carried w 0 2 = some 3 then writeTestCtl d w else d) s

/-- SELFTEST_RESUME (R432): no request has been pending for 5 ms, 10,000,000 engine cycles. -/
def execSelftestResume (s : State) : Host.Outcome State Fault Refusal :=
  act (whenRun fun d =>
    if regF d LDG_ST_STAT 0 2 = 2 && (List.finRange 64).all (fun p => (ldgEntries d p).isEmpty) &&
        decide (d.ledger.used + 10000000 ≤ d.cycle) then
      updLedger (setReg d LDG_ST_STAT 0 2 1) fun l => { l with from_ := some d.cycle }
    else d) s

/-- SELFTEST_COMPLETE (R432): a running test ends; an EXTENDED one has repaired the members `fl` names. -/
def execSelftestComplete (fail : Option StackId) (fl : List MemberFail) (s : State) :
    Host.Outcome State Fault Refusal :=
  act (whenRun fun d =>
    if regF d LDG_ST_STAT 0 2 = 1 then
      let d := if regF d LDG_ST_STAT 2 1 = 1 then
          fl.foldl (fun d f => if memberGone d f then blockLost d f.stack f.off none else memberRecon d f.stack 0) d
        else d
      match fail with
      | some k => endTest d 2 k.val
      | none => endTest d 1 0
    else d) s

end Sys2Proof.Machine
end

