-- ==== Sys2Proof/Machine/Pager.lean ====
section
/-! DEFINITION. The pager: donation and reclaim of ranges, page-out, page-in, the CXL tier, and the release of segments
(R175, R292 to R310, R313, R460). -/

namespace Sys2Proof.Machine

open Sys2Proof

/-! ### Content of granules -/

/-- Every mezzanine loses the lines of granules before they are used anew (R175). -/
def dropMez (d : Device) (gs : List Nat) : Device :=
  { d with mez := d.mez.map fun m => { m with
      lines := m.lines.filter fun l => !inGran gs l.2.tag
      vb := m.vb.filter fun v => !inGran gs v.line } }

/-- Granules and the partners of those that are mirrored. -/
def withPartners (d : Device) (gs : List Nat) : List Nat :=
  gs ++ (d.mirrors.filter fun m => gs.contains m.prim).map (·.partner)

/-- Every byte of granules reads as 0, wherever a line of them was held (R301). -/
def zeroGranules (d : Device) (gs : List Nat) : Device :=
  let l := withPartners d gs
  let out := fun a => !inGran l a
  let d := l.foldl (fun d g => logGranule d (g * 4096)) d
  { d with
    mem := d.mem.filter fun c => out c.1
    flips := d.flips.filter fun x => out x.1
    galFlips := d.galFlips.filter fun x => out x.1
    poison := d.poison.filter out
    chans := d.chans.map fun c => { c with wrq := c.wrq.filter fun w => out w.line }
    gal := d.gal.map fun g => { g with
      lines := g.lines.filter fun x => out x.2.line
      dir := g.dir.filter fun x => out x.1
      victims := g.victims.filter fun v => out v.line }
    harts := d.harts.map fun h => { h with
      lines := h.lines.filter fun x => out x.1
      reserve := match h.reserve with | some a => if out a then some a else none | none => none } }

/-- Whether writes to some granule would wait for a clean page of the persistent window (R435); the pages are asked
for. -/
def windowWait (d : Device) (gs : List Nat) : List Nat :=
  gs.flatMap fun g => (List.range 16).flatMap fun k => winWaits d (g * 4096 + 4096 * k)

/-- The bytes of granules, as the pager reads them for a partition, and whether any line of them is poisoned. -/
def granulesRead (d : Device) (p : Part) : List Nat → (List Nat × Bool) × Device
  | [] => (([], false), d)
  | g :: t =>
    let x := memRead d (g * 4096) granBytes ⟨3, p, false⟩
    let y := granulesRead x.2 p t
    ((x.1.1 :: y.1.1, x.1.2 || y.1.2), y.2)

/-- A line is written poisoned. -/
def poisonLine (d : Device) (a : Nat) (v : Line) : Device :=
  slicePut (recallLine d a) a v (BitVec.allOnes 64) true 0 false 3

/-- Copies a granule line by line; a poisoned line stays poisoned. -/
def copyGranule (d : Device) (p : Part) (src dst : Nat) : Device :=
  let d := logGranule d (dst * 4096)
  (List.range 1024).foldl (fun d k =>
    let x := unitRead d (src * 4096 + 64 * k) ⟨3, p, false⟩ .clean
    let a := dst * 4096 + 64 * k
    if x.1.poison then poisonLine x.2 a x.1.data else lineWrite x.2 a x.1.data (BitVec.allOnes 64) p false 3) d

/-- Copies granules one by one. -/
def copyGranules (d : Device) (p : Part) (src dst : List Nat) : Device :=
  (src.zip dst).foldl (fun d x => copyGranule d p x.1 x.2) d

/-! ### Reclaim of a range (R295) -/

/-- Granules of a range that are still occupied. -/
def blocking (d : Device) (r : DonRange) : Nat := r.granules.countP (occupied d)

/-- A range leaves the heap, with its mirror entries and its retired granules. -/
def dropRange (d : Device) (p : Part) (iova : Nat) : Device :=
  match d.pager.ranges.find? fun r => r.part == p && r.iova == iova with
  | none => d
  | some r =>
    let d := { d with mirrors := d.mirrors.filter fun m => !r.granules.contains m.prim }
    updPager d fun g => { g with
      ranges := g.ranges.filter fun x => !(x.part == p && x.iova == iova)
      retired := g.retired.filter fun x => !r.granules.contains x
      healed := g.healed.filter fun x => !r.granules.contains x }

/-- Percent of the partition's donated heap that is free lies below a limit. -/
def freeBelow (d : Device) (p : Part) (pct : Nat) : Bool := decide (100 * freeGran d p < pct * donatedGran d p)

/-- The partition is between its watermarks on the way up, or below the lower one (R307); looked at wherever its free or
its donated granules change. -/
def markActive (d : Device) (p : Part) : Device :=
  if freeBelow d p (regF d PGR_CTL 0 8) then updPager d fun g => { g with active := insertNat g.active p.val }
  else if freeBelow d p (regF d PGR_CTL 8 8) then d
  else updPager d fun g => { g with active := g.active.filter (· != p.val) }

/-- The reclaim under way completes once nothing occupies its range. -/
def settleReclaim (d : Device) : Device :=
  match d.pager.ranges.find? (·.reclaiming) with
  | none => d
  | some r =>
    let d := settleSaves d r.part
    if blocking d r = 0 then
      setReg (setReg (markActive (dropRange d r.part r.iova) r.part) PGR_DON_STAT 0 2 2) PGR_DON_STAT 16 24 0
    else setReg d PGR_DON_STAT 16 24 (blocking d r)

/-! ### Releasing segments (R296, R302) -/

/-- Decides the ring entry of a key and index. -/
def decideKey (d : Device) (k i st : Nat) : Device :=
  decideEntry d ⟨k / 16384 % 64, Nat.mod_lt _ (by omega)⟩ ⟨k % 16384, Nat.mod_lt _ (by omega)⟩ i st []

/-- A segment ceases to exist: its granules and its copy are free, its index has a new generation, and a FREE that
waited completes. -/
def releaseSeg (d : Device) (h : Nat) : Device :=
  match sfind d.pager.segs (segKey h) with
  | none => d
  | some s =>
    let d := updPager (dropMez d s.granules) fun g => { g with
      segs := sdel g.segs (segKey h), gens := sput g.gens (segKey h) ((s.gen + 1) % 2 ^ 14) }
    let d := markActive (endSystem d (pageInWork h)) s.part
    settleReclaim (match s.freeBy with | some (k, i) => decideKey d k i 0 | none => d)

/-- A segment that is being freed goes once nothing uses it. -/
def freeIfIdle (d : Device) (h : Nat) : Device := if movable d h then releaseSeg d h else d

/-- SEGMENT_FREE_RELEASE (R159, R302): a deferred FREE whose segment has fallen idle. -/
def execSegmentFreeRelease (h : Nat) (s : State) : Host.Outcome State Fault Refusal :=
  act (whenRun fun d =>
    match segHeld d (hPart h) h with
    | some s => if s.freeing then freeIfIdle d h else d
    | none => d) s

/-! ### Room (R300, R307, R309) -/

/-- Whether space that is waited for has appeared. -/
def wantMet (d : Device) (w : Want) : Bool := !(placesOf d w.part w.kind (some w.quad) w.sizeK).isEmpty

/-- Whether a page-out in a quadrant is needed. -/
def outNeeded (d : Device) (p : Part) (quad : Nat) : Bool :=
  d.pager.active.contains p.val ||
    d.pager.wants.any fun w => w.part == p && w.quad == quad && !wantMet d w

/-- Segments that may be victims in a quadrant (R307). -/
def victimsIn (d : Device) (p : Part) (quad : Nat) (only : Segment → Bool) : Sparse Segment :=
  let l := d.pager.segs.filter fun s =>
    s.2.part == p && s.2.quad == quad && s.2.state == .resident && !s.2.freeing && only s.2 &&
      movable d (handleOf s.2.part.val s.2.gen (s.1 % 2 ^ 20))
  let fresh := l.filter fun s => !s.2.avoid
  if fresh.isEmpty then l else fresh

/-- The one whose last dispatch is oldest; the lower handle of equals. -/
def oldestSeg (l : Sparse Segment) : Option (Nat × Segment) :=
  l.foldl (fun (m : Option (Nat × Segment)) s =>
    match m with
    | none => some s
    | some o => if s.2.last < o.2.last || (s.2.last == o.2.last &&
        decide (handleOf s.2.part.val s.2.gen (s.1 % 2 ^ 20) < handleOf o.2.part.val o.2.gen (o.1 % 2 ^ 20)))
      then some s else some o) none

/-- Whether a segment lies in a range that is being reclaimed. -/
def inReclaim (d : Device) (s : Segment) : Bool :=
  d.pager.ranges.any fun r => r.reclaiming && s.granules.any fun g => r.granules.contains g

/-- Whether a segment lies in a granule that is retired, or whose mirror partner is (R312). -/
def inRetired (d : Device) (s : Segment) : Bool := s.granules.any (retiredAt d)

/-- Whether a segment is the next victim, for a reclaim, a retired granule or space. -/
def isVictim (d : Device) (h : Nat) (s : Segment) : Bool :=
  let first := fun only => match oldestSeg (victimsIn d s.part s.quad only) with
    | some (k, _) => k == segKey h
    | none => false
  (inReclaim d s && first (inReclaim d)) || (inRetired d s && first (inRetired d)) ||
      (outNeeded d s.part s.quad && first fun _ => true)

/-! ### Page-out (R308, R309, R459, R460) -/

/-- A segment leaves its granules. -/
def leaveHeap (d : Device) (h : Nat) (copy : Option SegCopy) : Device :=
  match sfind d.pager.segs (segKey h) with
  | none => d
  | some s =>
    let d := updSeg (dropMez d s.granules) h fun s =>
      { s with state := .paged, granules := [], copy := copy, avoid := false }
    settleReclaim (markActive (incReg d PGR_EVT 0 32 1) s.part)

/-- Element width of the codec blocks of a segment (R308). -/
def outWidth (s : Segment) : Nat :=
  if s.format = 1 && s.width == 40 then 5 else if s.format = 4 || s.format = 5 then s.width / 8 else 1

/-- Bytes of the ledger pager region in use, and its size in force (R416). -/
def regionUsed (d : Device) : Nat :=
  d.pager.segs.foldl (fun n s => match s.2.copy with
    | some (.ledger bs) => bs.foldl (fun n b => n + b.bytes.length) n
    | _ => n) 0
def nsGib (d : Device) : Nat := d.ledger.nss.foldl (fun n x => n + x.2.size) 0
def winGib (d : Device) : Nat := ceilDiv (winPages d) 16384
def pagerGib (d : Device) : Nat := min (regF d PGR_LDG 0 7) (95 - nsGib d - winGib d)

/-- Whether the pager may write to the ledger (R414, R415). -/
def ldgWritable (d : Device) : Bool := ldgState d == 0 || ldgState d == 1

/-- The data of granules as codec blocks with their digests; raw blocks where no codec is in service. -/
def copyBlocks (e : Nat) (raw : Bool) (data : List Nat) : List CopyBlock :=
  data.map fun v =>
    let src := bytesOf v granBytes
    let b := blockBytes (if raw then rawBlock src else encodeBlock e src)
    ⟨b, sha3 b⟩

/-- Compresses the data of granules on a codec, and on a second one after a mismatch; none where both mismatch. -/
def compressOn (d : Device) (k k2 : CodecId) (mis : Nat) (e : Nat) (gs : List Nat) : Option (List CopyBlock) × Device :=
  let bs := copyBlocks e (noCodec d) gs
  let out := bs.foldl (fun n b => n + b.bytes.length) 0
  let count := fun d k => codecBytes d k none (granBytes * gs.length) out
  if noCodec d then (some bs, d)
  else
    let a := blockMismatch d k (decide (1 ≤ mis))
    if !a.1 then (some bs, count a.2 k)
    else
      let b := blockMismatch (codecMismatch a.2 k) k2 (decide (2 ≤ mis))
      if !b.1 then (some bs, count b.2 k2) else (none, codecMismatch b.2 k2)

/-- The page-out of a segment has failed; another victim is chosen. -/
def outFails (d : Device) (h : Nat) : Device := updSeg d h fun s => { s with state := .resident, avoid := true }

/-- A pager request pauses a self-test (R432) and keeps a copy of the data of granules in the ledger; it waits while the
region has no room, and `fails` says what becomes of a segment that two codecs could not compress. -/
def toLedger (d : Device) (s : Segment) (gs : List Nat) (k k2 : CodecId) (mis : Nat) (fails : Device → Device)
    (done : Device → SegCopy → Device) : Device :=
  if !ldgWritable d || !(noCodec d || (codecFree d k && codecFree d k2)) then d
  else match compressOn (pauseTest d) k k2 mis (outWidth s) gs with
    | (none, d) => fails d
    | (some bs, d') =>
      if pagerGib d * 2 ^ 30 < regionUsed d + bs.foldl (fun n b => n + b.bytes.length) 0 then d
      else done d' (.ledger bs)

/-- Steps 1 to 3 of R308 for a segment that is being paged out. -/
def finishOut (d : Device) (h : Nat) (s : Segment) (k k2 : CodecId) (mis : Nat) : Device :=
  let x := granulesRead d s.part s.granules
  let d := x.2
  if x.1.2 then outFails d h
  else match (placesOf d s.part 2 none s.sizeK).head? with
    | some (_, gs) => leaveHeap (copyGranules d s.part s.granules gs) h (some (.cxl gs))
    | none => toLedger d s x.1.1 k k2 mis (fun d => outFails d h) fun d c => leaveHeap d h (some c)

/-- A segment moves to other granules and keeps its state and its copy. -/
def relocate (d : Device) (h : Nat) (s : Segment) (dst : Nat × List Nat) : Device :=
  let d := copyGranules d s.part s.granules dst.2
  settleReclaim (updSeg (dropMez d (s.granules ++ dst.2)) h fun s => { s with granules := dst.2, addr := dst.1 })

/-- Whether the pager may begin a page-out now (R242): page-ins, at priority 0, go first, unless the page-out makes the
room that they or an ALLOC wait for, or empties a range or a granule (log entry 123). -/
def outServed (d : Device) (s : Segment) : Bool :=
  inReclaim d s || inRetired d s || (d.pager.wants.any fun w => w.part == s.part && w.quad == s.quad && !wantMet d w) ||
    !((d.sched.serving ++ d.sched.system).any fun t => t.unit == .pager)

/-- PAGE_OUT (R295, R307 to R309, R312, R483): a victim in a range being reclaimed, or in a retired granule, moves
where it can, one that has a copy is dropped, and any other is first marked and, with the second command, written out.
`k` and `k2` are the codecs used, `mis` the runs that fail their verification. -/
def execPageOut (h : Nat) (k k2 : CodecId) (mis : Nat) (s : State) : Host.Outcome State Fault Refusal :=
  act (whenServed fun d =>
    match segHeld d (hPart h) h with
    | none => d
    | some s =>
      let d := markActive d s.part
      match s.state with
      | .movingOut => finishOut d h s k k2 mis
      | .resident =>
        if !isVictim d h s || partFrozen d s.part || !outServed d s then d
        else match (if (inReclaim d s || inRetired d s) && !allocPends d s.part then
            (placesOf d s.part (kindOf s) (some s.quad) s.sizeK).head? else none) with
          | some dst => if (windowWait d dst.2).isEmpty then relocate d h s dst else askPages d (windowWait d dst.2)
          | none => if s.copy.isSome then leaveHeap d h s.copy else updSeg d h fun s => { s with state := .movingOut }
      | _ => d) s

/-! ### The CXL tier (R295, R309) -/

/-- Segments of a partition that have a copy in the CXL tier. -/
def cxlSegs (d : Device) (p : Part) (only : Segment → Bool) : Sparse Segment :=
  d.pager.segs.filter fun s => s.2.part == p && !(cxlOf s.2).isEmpty && only s.2

/-- Whether a copy lies in a range that is being reclaimed. -/
def copyInReclaim (d : Device) (s : Segment) : Bool :=
  d.pager.ranges.any fun r => r.reclaiming && (cxlOf s).any fun g => r.granules.contains g

/-- Whether the partition's CXL tier needs room: a page-out waits that finds none. -/
def cxlFull (d : Device) (p : Part) : Bool :=
  d.pager.segs.any fun s => s.2.part == p && s.2.state == .movingOut && (placesOf d p 2 none s.2.sizeK).isEmpty

/-- Whether a copy is the next to leave the CXL tier. -/
def cxlNext (d : Device) (h : Nat) (s : Segment) : Bool :=
  let first := fun only => match oldestSeg (cxlSegs d s.part only) with
    | some (k, _) => k == segKey h
    | none => false
  (copyInReclaim d s && first (copyInReclaim d)) || (cxlFull d s.part && first fun _ => true)

/-- CXL_TIER_MOVE (R295, R309): the oldest copy moves to another range of the tier when its own is reclaimed, or to
the ledger. -/
def execCxlTierMove (h : Nat) (k k2 : CodecId) (mis : Nat) (s : State) : Host.Outcome State Fault Refusal :=
  act (whenServed fun d =>
    match segHeld d (hPart h) h with
    | none => d
    | some s =>
      if !cxlNext d h s || partFrozen d s.part then d
      else
        let gs := cxlOf s
        match (if copyInReclaim d s then (placesOf d s.part 2 none s.sizeK).head? else none) with
        | some (_, dst) =>
          settleReclaim (updSeg (copyGranules d s.part gs dst) h fun s => { s with copy := some (.cxl dst) })
        | none =>
          let x := granulesRead d s.part gs
          if x.1.2 then x.2
          else toLedger x.2 s x.1.1 k k2 mis (fun d => updSeg d h fun s => { s with avoid := true }) fun d c =>
            settleReclaim (updSeg d h fun s => { s with copy := some c })) s

/-! ### Page-in (R306, R310) -/

/-- A granule whose copy block is bad is uncorrectable: its lines are poisoned (R311). -/
def badGranule (d : Device) (g : Nat) (p : Part) : Device :=
  let d := setReg (setReg d PGR_ERR 3 1 1) PGR_ERR 1 1 1
  let d := (List.range 1024).foldl (fun d k => poisonLine d (g * 4096 + 64 * k) 0) d
  raiseEvent d 0x15 (chanOf d (g * 4096)).val (g * 4096) 0xb (some p)

/-- One block of a ledger copy reaches its granule. -/
def inBlock (d : Device) (p : Part) (k : CodecId) (g : Nat) (b : CopyBlock) (bad : Bool) : Device :=
  let d := logGranule d (g * 4096)
  match (if bad || b.digest != sha3 b.bytes then none else decodeBlock b.bytes) with
  | some (out, _) => codecBytes (cohWrite d (g * 4096) granBytes (ofBytes out) p 3) k none b.bytes.length out.length
  | none => badGranule d g p

/-- The members that fail as a copy is read. -/
def copyFails (d : Device) (fl : List MemberFail) : Device :=
  fl.foldl (fun d f =>
    if f.lost then incRegSat (setReg d LDG_ERR 1 1 1) (LDG_HEALTH f.stack.val) 32 16 else memberRecon d f.stack 0) d

/-- The data of a segment's copy reach its granules. -/
def fillIn (d : Device) (s : Segment) (k : CodecId) (fl : List MemberFail) : Device :=
  match s.copy with
  | some (.cxl gs) => copyGranules d s.part gs s.granules
  | some (.ledger bs) =>
    let d := copyFails (pauseTest d) fl
    ((List.range bs.length).zip (s.granules.zip bs)).foldl (fun d x =>
      inBlock d s.part k x.2.1 x.2.2 (fl.any fun f => f.lost && f.off == x.1)) d
  | none => d

/-- Instances that hold a segment read what its header names, once it is resident (R305, R306). -/
def tellHolders (d : Device) (h : Nat) : Device :=
  d.sched.insts.foldl (fun d i => if i.2.held.contains h then readHeaders d i.1 else d) d

/-- Starts a page-in where a free block lies in the segment's quadrant, or asks for space. -/
def startIn (d : Device) (h pick : Nat) (s : Segment) : Device :=
  let w : Want := ⟨s.part, kindOf s, s.quad, s.sizeK⟩
  if partFrozen d s.part || allocPends d s.part then d
  else match choosePlace (placesOf d s.part (kindOf s) (some s.quad) s.sizeK) pick with
  | none => addWant d w
  | some dst =>
    if !(windowWait d dst.2).isEmpty then askPages d (windowWait d dst.2)
    else updSeg (dropWant (dropMez d dst.2) w) h fun s => { s with state := .movingIn, granules := dst.2,
                                                                   addr := dst.1 }

/-- Whether an instance holds a segment as its output (R304). -/
def outputOf (d : Device) (h : Nat) : Bool :=
  d.sched.insts.any fun i => outHandle i.2 == h && i.2.rows != 0 && !i.2.decided

/-- PAGER_PAGE_IN (R306, R310): the pager starts the page-in that it serves, and ends it with the second command.
`k` is the codec used, `pick` chooses among free blocks, and `fl` names ledger members that fail, by block. -/
def execPagerPageIn (h : Nat) (k : CodecId) (pick : Nat) (fl : List MemberFail) (s : State) :
    Host.Outcome State Fault Refusal :=
  act (whenServed fun d =>
    if !d.sched.serving.contains (pageInWork h) then d
    else match segHeld d (hPart h) h with
      | none => endSystem d (pageInWork h)
      | some s =>
        match s.state with
        | .paged => startIn d h pick s
        | .movingIn =>
          if cxlOf s == [] && (ldgState d == 3 || !(noCodec d || codecFree d k)) then d
          else
            let d := fillIn d s k fl
            let out := outputOf d h
            let d := updSeg (incReg d PGR_EVT 32 32 1) h fun s => { s with
              state := .resident, copy := if out then none else s.copy }
            tellHolders (markActive (endSystem d (pageInWork h)) s.part) h
        | .movingOut => d
        | _ => endSystem d (pageInWork h)) s

/-! ### Donation (R292 to R294, R391) -/

/-- The physical granule of an IOVA, where every page of it can be read and written and they are contiguous: cause 2
or 3 otherwise. -/
def granAt (d : Device) (p : Part) (va : Nat) : Except Nat Nat :=
  let pg := fun k wr => (xlatPure d (devOf p) (va + 4096 * k) wr).map (·.1)
  if (List.range 16).any fun k => (pg k true).isNone || (pg k false).isNone then .error 2
  else match pg 0 true with
    | some a => if (List.range 16).all fun k => pg k true == some (a + 4096 * k) then .ok (a / 4096) else .error 3
    | none => .error 2

/-- The granules of a range of `n` granules, or the first failed check of causes 2 and 3. -/
def granList (d : Device) (p : Part) (iova n : Nat) : Except Nat (List Nat) :=
  let l := (List.range n).map fun i => granAt d p (iova + granBytes * i)
  if l.any fun x => match x with | .error 2 => true | _ => false then .error 2
  else if l.any fun x => match x with | .error _ => true | _ => false then .error 3
  else .ok (l.filterMap fun x => match x with | .ok g => some g | _ => none)

/-- The checks of a range, after its granules are known; 0 where they hold. -/
def donChecks (d : Device) (p : Part) (kind iova n : Nat) (gs : List Nat) : Nat :=
  let r := d.pager.ranges
  let oneQuad := fun g => inDram d (g * 4096) && inDram d (g * 4096 + granBytes - 1) &&
    quadOf d (g * 4096) == quadOf d (gs.headD 0 * 4096) &&
        quadOf d (g * 4096 + granBytes - 1) == quadOf d (gs.headD 0 * 4096)
  let oneWin := fun g => inCxl (g * 4096) && inCxl (g * 4096 + granBytes - 1) &&
    cxlWindow (g * 4096) == cxlWindow (gs.headD 0 * 4096) &&
        cxlWindow (g * 4096 + granBytes - 1) == cxlWindow (gs.headD 0 * 4096)
  if (r.any fun x => x.part == p && overlaps x.iova (granBytes * x.granules.length) iova (granBytes * n)) ||
      r.any fun x => x.granules.any fun y => gs.any fun g => overlaps (y * 4096) granBytes (g * 4096) granBytes then 5
  else if 64 ≤ (r.filter fun x => x.part == p).length then 6
  else if kind != 2 && !gs.all oneQuad then 4
  else if kind != 2 && decide (2 ^ 48 < iova + granBytes * n) then 9
  else if kind = 1 && decide (16384 < (d.mirrors.countP fun m =>
      quadOf d (m.prim * 4096) == quadOf d (gs.headD 0 * 4096)) + n / 2) then 8
  else if kind = 2 && !gs.all oneWin then 10
  else 0

/-- A donation or reclaim ends with a state and a cause. -/
def donEnd (d : Device) (st cause : Nat) : Device :=
  setReg (setReg (setReg d PGR_DON_STAT 0 2 st) PGR_DON_STAT 8 8 cause) PGR_DON_STAT 16 24 0

/-- Whether a granule holds a line of a row of the repair list, an entry of which names the row's local address in units
of 16 KiB and its subchannel (R400, R401). -/
def inRepair (d : Device) (g : Nat) : Bool :=
  d.life.work.notes.any fun x => x.kind == .row && granHits d ⟨x.item % 16, Nat.mod_lt _ (by omega)⟩ (x.val / 2) g

/-- The fault of the first page of a range that does not translate for reading and writing is recorded (R380). -/
def donFault (d : Device) (p : Part) (iova n : Nat) : Device :=
  let bad := fun k wr => (xlatPure d (devOf p) (iova + 4096 * k) wr).isNone
  match (List.range (16 * n)).find? fun k => bad k true || bad k false with
  | some k => ioFault d (devOf p) (iova + 4096 * k) (if bad k true then 15 else 13) (bad k true)
  | none => d

/-- Accepts a range. -/
def donate (d : Device) (p : Part) (kind iova n : Nat) : Device :=
  match granList d p iova n with
  | .error c => donEnd (if c = 2 then donFault d p iova n else d) 3 c
  | .ok gs =>
    let c := donChecks d p kind iova n gs
    if c != 0 then donEnd d 3 c
    else
      let d := updPager d fun g => { g with
        ranges := g.ranges ++ [⟨p, kind, iova, gs, false⟩]
        retired := g.retired ++ gs.filter fun x => kind != 2 && inRepair d x }
      let pairs := if kind = 1 then (gs.take (n / 2)).zip (gs.drop (n / 2)) else []
      donEnd (markActive { d with mirrors := d.mirrors ++ pairs.map fun x => ⟨x.1, x.2⟩ } p) 2 0

/-- Starts a reclaim. -/
def reclaim (d : Device) (p : Part) (iova : Nat) : Device :=
  if d.pager.ranges.any fun r => r.part == p && r.iova == iova then
    settleReclaim (donEnd (updPager d fun g => { g with ranges := g.ranges.map fun r =>
      if r.part = p ∧ r.iova = iova then { r with reclaiming := true } else r }) 1 0)
  else donEnd d 3 7

/-- A write of PGR_DON_CMD: it stores every value, and GO acts on the command that then stands there. -/
def writeDonCmd (d : Device) (w : RegAccess) : Device :=
  gateWrite d PGR_DON_CMD w fun d =>
    let d := plainWrite d PGR_DON_CMD w
    let p : Part := ⟨regF d PGR_DON_CMD 0 6 % 64, Nat.mod_lt _ (by omega)⟩
    let n := regF d PGR_DON_CMD 8 24
    let kind := regF d PGR_DON_CMD 32 2
    let iova := regF d PGR_DON_IOVA 16 48 * 65536
    if !strobe w 63 || regF d PGR_DON_STAT 0 2 == 1 then d
    else match regF d PGR_DON_CMD 34 2 with
      | 1 => if n = 0 || kind == 3 || (kind == 1 && n % 2 == 1) then donEnd d 3 11 else donate d p kind iova n
      | 2 => reclaim d p iova
      | _ => donEnd d 3 11

/-- OP as PGR_DON_CMD holds it after a write. -/
def donOp (d : Device) (w : RegAccess) : Nat := (carried w 34 2).getD (regF d PGR_DON_CMD 34 2)

/-- DONATE (R292 to R294): a write of PGR_DON_CMD with GO that leaves OP = DONATE. -/
def execDonate (w : RegAccess) (s : State) : Host.Outcome State Fault Refusal :=
  act (fun d => if strobe w 63 && donOp d w == 1 then writeDonCmd d w else d) s

/-- RECLAIM (R295): a write of PGR_DON_CMD with GO that leaves OP = RECLAIM. -/
def execReclaim (w : RegAccess) (s : State) : Host.Outcome State Fault Refusal :=
  act (fun d => if strobe w 63 && donOp d w == 2 then writeDonCmd d w else d) s

/-! ### PGR_CTL and the quotas (R313) -/

/-- A write of PGR_CTL: the watermarks take effect as a pair or not at all. -/
def writePgrCtl (d : Device) (w : RegAccess) : Device :=
  gateWrite d PGR_CTL w fun d =>
    let old := reg d PGR_CTL
    let lo := (carried w 0 8).getD (field old 0 8)
    let hi := (carried w 8 8).getD (field old 8 8)
    let d := plainWrite d PGR_CTL w
    let mark := fun d => d.parts.foldl (fun d x => markActive d ⟨x.1 % 64, Nat.mod_lt _ (by omega)⟩) d
    if decide (1 ≤ lo) && decide (lo ≤ 50) && decide (hi ≤ 60) && decide (lo < hi) then mark d
    else setReg (setReg d PGR_CTL 0 8 (field old 0 8)) PGR_CTL 8 8 (field old 8 8)

/-- PGR_CTL_WRITE (R313). -/
def execPgrCtlWrite (w : RegAccess) (s : State) : Host.Outcome State Fault Refusal := act (fun d => writePgrCtl d w) s

/-- A write of PGR_PART_QUOTA sets the quotas of the partition that PGR_PART_SEL names. -/
def writeQuota (d : Device) (w : RegAccess) : Device :=
  gateWrite d PGR_PART_QUOTA w fun d =>
    let k := regF d PGR_PART_SEL 0 6
    let v := regGet (regWrite (regPut d.regs PGR_PART_QUOTA (sget d.pager.quota k 0)) PGR_PART_QUOTA w) PGR_PART_QUOTA
    updPager d fun g => { g with quota := sput g.quota k v }

end Sys2Proof.Machine
end

