-- ==== Sys2Proof/Machine/Segments.lean ====
section
/-! DEFINITION. The commands of SEGMENT queues (R286, R296, R299 to R302, R304). -/

namespace Sys2Proof.Machine

open Sys2Proof

/-- ADDR as R299 reports it. -/
def shownAddr (s : Segment) : Nat := if s.state = .pinned then s.addr else 0

/-- Whether the FREE of a segment was accepted after an entry. -/
def freedAfter (d : Device) (a : Accepted) (s : Segment) : Bool :=
  match s.freeBy with
  | some (k, i) =>
    (match sfind d.queues k with
     | some x => x.entries.any fun b => b.index == i && decide (a.num < b.num)
     | none => false)
  | none => false

/-- The segment that an accepted entry names: a freed one still answers what was accepted before its FREE (R302). -/
def segFor (d : Device) (p : Part) (a : Accepted) : Option Segment :=
  match segHeld d p.val (entHandle a.raw) with
  | some s => if s.freeing && !freedAfter d a s then none else some s
  | none => none

/-- Runs a command that names a segment by handle. -/
def onSegment (d : Device) (p : Part) (q : QueueId) (i op : Nat) (fields : List (Nat × Nat))
    (f : Accepted → Segment → Device) : Device :=
  match openEntryOf d p q i 5 op with
  | none => d
  | some a =>
    if handleBad a.raw fields then decideEntry d p q i 3 []
    else match segFor d p a with
      | some s => f a s
      | none => decideEntry d p q i 2 []

/-! ### ALLOC -/

/-- The header that the allocator writes: MAGIC, VERSION, FORMAT and WIDTH (R160, R301). -/
def allocHeader (fmt width : Nat) : Nat := 0x5347 + 2 ^ 16 + fmt * 2 ^ 24 + width * 2 ^ 32

/-- A map index of a partition that no segment uses, the first at or after a choice. -/
def freeIndex (d : Device) (p : Part) (pick : Nat) : Nat :=
  let m := segMax d p
  let used := (d.pager.segs.filter fun s => s.2.part == p).map fun s => s.1 % 2 ^ 20 - 1
  1 + (takeNums used m (used.length + 1) (pick % m) 1).headD 0

/-- The segment comes into being in the granules chosen for it. -/
def makeSeg (d : Device) (p : Part) (q : QueueId) (i : Nat) (raw : BitVec 512) (pick : Nat) (at_ : Nat × List Nat) :
    Device :=
  let idx := freeIndex d p pick
  let key := p.val * 2 ^ 20 + idx
  let gen := sget d.pager.gens key 0
  let pin := fieldN (entF raw 0xb 1) 0 1 == 1
  let s : Segment := {
    part := p, gen := gen, sizeK := entF raw 8 1, format := entF raw 9 1, width := entF raw 0xa 1,
    mirror := fieldN (entF raw 0xb 1) 1 1 == 1, state := if pin then .pinned else .resident, granules := at_.2,
    quad := quadOf d (at_.2.headD 0 * 4096), addr := at_.1, copy := none, last := 0, freeing := false, freeBy := none,
    avoid := false }
  let d := zeroGranules (dropMez d at_.2) at_.2
  let d := cohWrite d (at_.2.headD 0 * 4096) 64 (allocHeader s.format s.width) p 3
  let d := updPager d fun g => { g with segs := sput g.segs key s }
  let d := markActive (dropWant d ⟨p, kindOf s, s.quad, s.sizeK⟩) p
  decideEntry d p q i 0 [(0x10, 8, handleOf p.val gen idx), (0x18, 8, shownAddr s)]

/-- ALLOC (R296, R298 to R302); `pick` chooses the map index and `blk` the free block. -/
def execAlloc (p : Part) (q : QueueId) (i : Nat) (pick blk : Nat) (s : State) : Host.Outcome State Fault Refusal :=
  act (whenRun fun d =>
    match openEntryOf d p q i 5 1 with
    | none => d
    | some a =>
      let st := allocStatus d p a.raw
      if st != 0 then decideEntry d p q i st []
      else match choosePlace (allocPlaces d p a.raw) blk with
        | none => allocWant d p a.raw
        | some dst =>
          if (windowWait d dst.2).isEmpty then makeSeg d p q i a.raw pick dst else askPages d (windowWait d dst.2)) s

/-! ### FREE -/

/-- Whether a FREE is the one that the segment of its handle waits for. -/
def freeHolds (d : Device) (p : Part) (q : QueueId) (a : Accepted) : Bool :=
  match segHeld d p.val (entHandle a.raw) with
  | some s => s.freeing && s.freeBy == some (qKey p q, a.index)
  | none => false

/-- FREE (R159, R302): its handle has named no segment since its acceptance, and the segment goes once nothing uses
it. -/
def execFree (p : Part) (q : QueueId) (i : Nat) (s : State) : Host.Outcome State Fault Refusal :=
  act (whenRun fun d =>
    match openEntryOf d p q i 5 2 with
    | none => d
    | some a =>
      if handleBad a.raw [] then decideEntry d p q i 3 []
      else if freeHolds d p q a then freeIfIdle d (entHandle a.raw)
      else decideEntry d p q i 2 []) s

/-! ### PIN and UNPIN -/

/-- PIN (R302, R304): the copy is discarded; a segment that is not resident is brought in first. -/
def pinSeg (d : Device) (p : Part) (q : QueueId) (i h : Nat) (s : Segment) : Device :=
  let done := fun d => decideEntry d p q i 0 [(0x18, 8, s.addr)]
  if s.state = .pinned then done d
  else if pinQ d p < pinnedGran d p + sizeGran s then decideEntry d p q i 0x501 []
  else match s.state with
    | .paged => askSystem d (pageInWork h)
    | .movingIn => d
    | _ => done (updSeg d h fun s => { s with state := .pinned, copy := none })

def execPin (p : Part) (q : QueueId) (i : Nat) (s : State) : Host.Outcome State Fault Refusal :=
  act (whenRun fun d => onSegment d p q i 3 [(0x18, 8)] fun a s =>
    settleReclaim (pinSeg d p q i (entHandle a.raw) s)) s

/-- UNPIN (R302). -/
def execUnpin (p : Part) (q : QueueId) (i : Nat) (s : State) : Host.Outcome State Fault Refusal :=
  act (whenRun fun d => onSegment d p q i 4 [] fun a s =>
    if s.state = .pinned then
      decideEntry (updSeg d (entHandle a.raw) fun s => { s with state := .resident }) p q i 0 []
    else decideEntry d p q i 0x502 []) s

/-! ### QUERY and PAGE_IN -/

/-- STATE of R286. -/
def segStateNum (s : SegState) : Nat :=
  match s with
  | .resident => 0
  | .paged => 1
  | .movingOut => 2
  | .movingIn => 2
  | .pinned => 3

/-- QUERY (R286, R299). -/
def execQuery (p : Part) (q : QueueId) (i : Nat) (s : State) : Host.Outcome State Fault Refusal :=
  act (whenRun fun d => onSegment d p q i 5 [(0x18, 8), (0x20, 1), (0x21, 1), (0x22, 1), (0x23, 1)] fun _ s =>
    decideEntry d p q i 0 [(0x18, 8, shownAddr s), (0x20, 1, segStateNum s.state), (0x21, 1, s.sizeK),
      (0x22, 1, s.format), (0x23, 1, s.width)]) s

/-- PAGE_IN (R302): a prefetch. -/
def execPageIn (p : Part) (q : QueueId) (i : Nat) (s : State) : Host.Outcome State Fault Refusal :=
  act (whenRun fun d => onSegment d p q i 6 [] fun a s =>
    match s.state with
    | .resident => decideEntry d p q i 0 []
    | .pinned => decideEntry d p q i 0 []
    | .paged => askSystem d (pageInWork (entHandle a.raw))
    | _ => d) s

end Sys2Proof.Machine
end

