-- ==== Sys2Proof/Machine/Dram.lean ====
section
/-! DEFINITION. DRAM channels: decoding, the order of requests, errors and healing, repair, row disturbance, drift,
retraining and command errors (R390 to R408, R311, R312, R437, R476, R43). -/

namespace Sys2Proof.Machine

open Sys2Proof

/-- REFRESH_WINDOW_START (R403). -/
def execRefreshWindowStart (c : Chan) (s : State) : Host.Outcome State Fault Refusal :=
  act (whenRun fun d => updChan (setReg d (DRC_RH c.val) 32 14 0) c fun x => { x with acts := [] }) s

/-- DRAM_REFRESH_COMMAND (R403, R43): postponed in a quiet window or while the link retrains, else issued with those
postponed. -/
def execDramRefreshCommand (c : Chan) (s : State) : Host.Outcome State Fault Refusal :=
  act (whenRun fun d =>
    if inQuiet d c || regF d (DRC_STAT c.val) 0 2 == 1 then
      updChan d c fun x => { x with postponed := x.postponed + 1 }
    else updChan d c fun x => { x with postponed := 0, openRow := [] }) s

/-- DRAM_ALERT (R407). -/
def execDramAlert (c : Chan) (sub : Bool) (k : AlertKind) (s : State) : Host.Outcome State Fault Refusal :=
  act (whenRun fun d => if chanFailed d c then d else alert d c (if sub then 1 else 0) k) s

/-- LINK_RETRAINING (R406, R408): it ends, and the channel serves requests again or fails. -/
def execLinkRetraining (c : Chan) (o : RetrainOutcome) (s : State) : Host.Outcome State Fault Refusal :=
  act (whenRun fun d =>
    if regF d (DRC_STAT c.val) 0 2 != 1 then d
    else
      let d := incRegSat (setReg d (DRC_ERR c.val) 2 1 1) (DRC_LINK c.val) 40 8
      let d := raiseEvent d 0x0e c.val 0 0 none
      let again := incRegSat d (DRC_LINK c.val) 40 8
      match o with
      | .good => setReg d (DRC_STAT c.val) 0 2 (if d.chans[c].slow then 2 else 0)
      | .slower =>
        let d := setReg (setReg again (DRC_ERR c.val) 3 1 1) (DRC_STAT c.val) 0 2 2
        raiseEvent (updChan d c fun x => { x with slow := true }) 0x0f c.val 0 0 none
      | .failed =>
        raiseEvent (setReg (setReg again (DRC_ERR c.val) 4 1 1) (DRC_STAT c.val) 0 2 3) 0x10 c.val 0 0 none) s

/-! ### The order of requests (R393 to R395, R476) -/

/-- Whether writes go now. -/
def writesGo (d : Device) (c : Chan) : Bool := burst d c || (urgentWrite d c).isSome || d.chans[c].rdq.isEmpty

/-- Whether a read hits an open row. -/
def rowHit (d : Device) (c : Chan) (r : ReadReq) : Bool :=
  let l := localOf d r.req.addr
  sfind d.chans[c].openRow (bankKey d l) == some (rowOf d l)

/-- The read that a channel takes next, with the balances it leaves. -/
def pickRead (d : Device) (c : Chan) : Option (ReadReq × Sparse Int) :=
  let q := d.chans[c].rdq.take 128
  let q2 := q.filter fun r => !r.promoted
  match q.find? (·.promoted) with
  | some r => some (r, d.chans[c].balance)
  | none =>
    match nextPart d c (waitingParts q2) with
    | none => none
    | some p =>
      let mine := q2.filter fun r => r.req.part == p
      (match mine.find? (rowHit d c) with
       | some r => some r
       | none => mine.head?).map fun r => (r, balances d c p (waitingParts q2))

/-- The slice receives the line of a miss. -/
def fillSlice (d : Device) (r : ReadReq) (l : Option Line) : Device :=
  match galFind d.gal[r.home] r.req.addr with
  | some (_, x) => answerMez d r.req (if x.poison then none else some x.data)
  | none =>
    match l with
    | some x =>
      answerMez (galInstall d (wayMask d r.home r.req.part.val) ⟨r.req.addr, x, false, false, 0, 2⟩ 2) r.req (some x)
    | none => answerMez d r.req none

/-- DRAM_READ_ISSUE (R393, R394, R397 to R399, R476); `o` is what the check of the line finds. -/
def execDramReadIssue (c : Chan) (o : EccOutcome) (s : State) : Host.Outcome State Fault Refusal :=
  act (whenRun fun d =>
    if !chanReady d c || burst d c || (urgentWrite d c).isSome then d
    else match pickRead d c with
      | none => d
      | some (r, bal) =>
        let d := updChan d c fun x => { x with rdq := x.rdq.erase r, balance := bal }
        let x := readDram (command d c (localOf d r.req.addr)) r.req.addr o
        fillSlice x.2 r x.1) s

/-- DRAM_REQUEST_PROMOTION (R394): a read that has waited longer than the age limit. -/
def execDramRequestPromotion (c : Chan) (i : Nat) (s : State) : Host.Outcome State Fault Refusal :=
  act (whenRun fun d => updChan d c fun x => { x with
    rdq := updAt x.rdq i fun r => if ageLimit d c < d.cycle - r.arrived then { r with promoted := true } else r }) s

/-- One write leaves the queue: an urgent one first, but never past an earlier write of its line. -/
def drainWrite (d : Device) (c : Chan) : Device :=
  let target := match urgentWrite d c with | some w => some w | none => d.chans[c].wrq.head?
  match target with
  | none => d
  | some w =>
    match takeFirst (fun x => x.line == w.line) d.chans[c].wrq with
    | none => d
    | some (x, rest) =>
      let run := burst d c
      let d := command d c (localOf d x.line)
      let d := updChan d c fun y => { y with wrq := rest, bursting := run && decide (16 < (rest.take 64).length) }
      if chanFailed d c then d else mediaWrite d x

/-- WRITE_QUEUE_DRAIN (R393, R395, R399, R408). -/
def execWriteQueueDrain (c : Chan) (s : State) : Host.Outcome State Fault Refusal :=
  act (whenRun fun d => if chanReady d c && writesGo d c then drainWrite d c else d) s

/-! ### Patrol scrub (R402) -/

/-- The scrubber has read its line. -/
def scrubOn (d : Device) (c : Chan) : Device :=
  let n := d.chans[c].scrub + 64
  let wrap := decide (chanCap d ≤ n)
  let d := updChan d c fun x => { x with scrub := if wrap then 0 else n }
  let d := if wrap then incReg d (DRC_STAT c.val) 48 16 1 else d
  setReg d (DRC_STAT c.val) 32 16 (d.chans[c].scrub * 65536 / max 1 (chanCap d))

/-- PATROL_SCRUB_READ (R402), in class 3. -/
def execPatrolScrubRead (c : Chan) (o : EccOutcome) (s : State) : Host.Outcome State Fault Refusal :=
  act (whenRun fun d =>
    if !mayRead d c ⟨3, 0, false⟩ || chanCap d == 0 then d
    else
      let l := d.chans[c].scrub
      scrubOn (readDram (command d c l) (globalOf d c l) o).2 c) s

/-- CE_WINDOW_EXPIRY (R400): a new 24-hour window. -/
def execCeWindowExpiry (c : Chan) (s : State) : Host.Outcome State Fault Refusal :=
  act (whenRun fun d => updChan d c fun x => { x with ceRows := [], suspect := [] }) s

/-! ### Drift (R41, R43, R404 to R406) -/

/-- The beat generator designates a quiet window for a channel. -/
def askQuiet (d : Device) (c : Chan) : Device :=
  let r := BEAT_QW_NEXT c.val
  if regF d r 63 1 = 1 then d
  else
    let b := (beatNow d + 31) / 16 * 16
    setReg (setReg (setReg d r 0 48 (b % 2 ^ 48)) r 63 1 1) BEAT_QW_PEND c.val 1 1

/-- Whether 256 beats have passed since the channel's last quiet window began. -/
def windowAgo (d : Device) (c : Chan) : Bool :=
  match d.chans[c].lastWindow with
  | some b => decide (b + 256 ≤ beatNow d)
  | none => true

/-- A drift is recorded and met with a quiet window or with retraining. -/
def driftSeen (d : Device) (c : Chan) (drift : Nat) : Device :=
  let th := regF d (DRC_TRAIN c.val) 0 8
  let d := setReg d (DRC_TRAIN c.val) 8 16 drift
  if 4 * th < drift then startRetrain d c
  else if th < drift && windowAgo d c then askQuiet d c
  else d

/-- DQS_OSCILLATOR_READ (R404 to R406), at a tick with BEAT_COUNT mod 1,024 = 0. -/
def execDqsOscillatorRead (c : Chan) (drift : BitVec 16) (s : State) : Host.Outcome State Fault Refusal :=
  act (whenRun fun d => if beatNow d % 1024 = 0 && !chanFailed d c then driftSeen d c drift.toNat else d) s

/-- One step of the delays in the designated beat, after which the window ends; `drift` is what the oscillator then
shows. -/
def quietStep (d : Device) (c : Chan) (drift : Nat) : Device :=
  let d := incReg (setReg d (DRC_TRAIN c.val) 8 16 drift) (DRC_LINK c.val) 48 16 1
  updChan d c fun x => { x with quiet := false, lastWindow := some (beatNow d) }

/-- QUIET_WINDOW_STEP (R43, R405). -/
def execQuietWindowStep (c : Chan) (drift : BitVec 16) (s : State) : Host.Outcome State Fault Refusal :=
  act (whenRun fun d => if !inQuiet d c then d else quietStep d c drift.toNat) s

end Sys2Proof.Machine
end

