-- ==== Sys2Proof/Machine/Holdup.lean ====
section
/-! DEFINITION. The persistent window, its cleaner, the hold-up store and the drain (R434 to R447). -/

namespace Sys2Proof.Machine

open Sys2Proof

def updHup (d : Device) (f : Holdup → Holdup) : Device := { d with hup := f d.hup }

/-- Dirty pages of the window (R441). -/
def dirtyPages (d : Device) : Nat := winPages d - d.hup.clean.length

/-- The window limit in force (R440). -/
def winLimit (d : Device) : Nat := regF d HUP_LIMIT 21 19

/-- Whether the first row of R441 is in force. -/
def unprotected (d : Device) : Bool := regF d HUP_STAT 3 1 == 1

/-! ### The store and its charger (R438, R439, R553) -/

/-- Whether the latest samples show a full store. -/
def storeFull (d : Device) : Bool :=
  let full := decide (regF d HUP_STORE 40 16 * 1000 ≤ d.hup.volts)
  if regF d HUP_CFG 1 1 = 1 then full && decide (d.hup.amps < Int.ofNat (regF d HUP_STORE 0 24 * 50)) else full

/-- Whether the charger is to be enabled. -/
def chargeWanted (d : Device) : Bool :=
  regF d HUP_CFG 0 1 == 1 && decide (sfield (regF d HUP_CHG 8 8) 8 * 1000 ≤ d.hup.temp) &&
    decide (d.hup.temp ≤ Int.ofNat (regF d HUP_CHG 16 8 * 1000)) && !storeFull d

/-- The charger outputs follow the latest samples; a charge that begins is noted with the counter at its start. -/
def driveCharger (d : Device) : Device :=
  let on := chargeWanted d
  let near := decide (Int.ofNat (regF d HUP_CHG 16 8 * 1000) - 5000 ≤ d.hup.temp)
  let duty := regF d HUP_CHG 0 8
  let starts := on && !d.hup.chgEn
  setReg (updHup d fun h => { h with
    chgEn := on
    iset := if near then duty / 2 else duty
    chargeFrom := if starts then some h.coulombs else h.chargeFrom
    charged := if starts then 0 else h.charged }) HUP_STAT 2 1 (if on then 1 else 0)

/-- The charger outputs follow the samples and the settings, but from a drain on they stay off (R438, R443, R446). -/
def setCharger (d : Device) : Device := if d.phase == .draining || d.phase == .persisted then d else driveCharger d

/-- The rated capacity in coulombs. -/
def ratedCap (d : Device) : Nat := regF d HUP_STORE 0 24 * 18 / 5

/-- One sample of the ADC: voltage, current and temperature counts; the coulomb counter integrates the current over
10 µs. -/
def adcSample (d : Device) (v i t : Nat) : Device :=
  let amps := (Int.ofNat (i % 4096) - 2048) * Int.ofNat (regF d HUP_SCALE 16 16)
  let q := min (Int.ofNat d.hup.coulombs + amps).toNat (d.hup.qcap * 10 ^ 11)
  let d := updHup d fun h => { h with
    volts := v % 4096 * regF d HUP_SCALE 0 16
    amps := amps
    temp := Int.ofNat (t % 4096 * regF d HUP_SCALE 32 16) + sfield (regF d HUP_SCALE 48 16) 16 * 1000
    coulombs := q
    charged := if h.chgEn then h.charged + amps else h.charged }
  setCharger d

/-- ADC_SAMPLE (R438, R439, R553); the always-on domain samples whatever the part does. -/
def execAdcSample (v i t : BitVec 16) (s : State) : Host.Outcome State Fault Refusal :=
  act (fun d => adcSample d v.toNat i.toNat t.toNat) s

/-- The capacity after a charge that began low: an eighth of the way to the measured one, at most the rated one. -/
def fadedCap (d : Device) (start : Nat) : Nat :=
  let cap := Int.ofNat d.hup.qcap
  let meas := (Int.ofNat start + d.hup.charged) / 10 ^ 11
  min (ratedCap d) (cap + (meas - cap) / 8).toNat

/-- q_cap in mAh, as HUP_ENERGY shows it. -/
def showCap (d : Device) : Device :=
  setReg d HUP_ENERGY 32 32 (if regF d HUP_CFG 1 1 = 1 then d.hup.qcap * 5 / 18 else 0)

/-- CHARGE_TERMINATION (R439): the charge of a pack has brought it to full. -/
def execChargeTermination (s : State) : Host.Outcome State Fault Refusal :=
  act (fun d =>
    match d.hup.chargeFrom with
    | none => d
    | some start =>
      if regF d HUP_CFG 0 2 != 3 || !storeFull d || d.hup.chgEn then d
      else
        let low := decide (2 * start ≤ d.hup.qcap * 10 ^ 11)
        let cap := if low then fadedCap d start else d.hup.qcap
        let d := updHup d fun h => { h with qcap := cap, coulombs := cap * 10 ^ 11, chargeFrom := none, charged := 0 }
        showCap (if low then lifeAdd (lifeNote d .capacity 0 cap) 8 0 1 else d)) s

/-! ### The loop (R439 to R441) -/

/-- Twice E_avail in 10^-15 J. -/
def energy2 (d : Device) : Nat :=
  let lo := regF d HUP_STORE 24 16
  if regF d HUP_CFG 1 1 = 1 then d.hup.coulombs * (lo + regF d HUP_STORE 40 16) * 10
  else regF d HUP_STORE 0 24 * (d.hup.volts * d.hup.volts - lo * 1000 * (lo * 1000))

/-- E_fixed in 10^-15 J. -/
def energyFixed (d : Device) : Nat := regF d HUP_DRAIN 0 8 * regF d HUP_DRAIN 24 16 * 10 ^ 9

/-- The window limit of R440 for twice an energy `e2` and a fixed energy `ef`, both in 10^-15 J. -/
def limitOf (e2 ef p rate pages : Nat) : Nat := min pages ((e2 - 3 * ef) * rate / (3 * p * 10 ^ 9 * 65536))

/-- WT takes a value; a change from 0 to 1 is recorded (R428, R433). -/
def setWt (d : Device) (on : Nat) : Device :=
  let d := if on = 1 && regF d LDG_STAT 10 1 = 0 then setReg d LDG_ERR 4 1 1 else d
  setReg d LDG_STAT 10 1 on

/-- WT is set or cleared (R428, R441); it is held at 1 while no store is fitted. -/
def driveWt (d : Device) (e2 ef : Nat) : Device :=
  setWt d (if regF d HUP_CFG 0 1 = 0 || decide (e2 < 3 * ef) then 1
    else if 33 * ef ≤ 10 * e2 then 0 else regF d LDG_STAT 10 1)

/-- The third row of R441: the cleaner starts at three quarters of the limit and stops at half of it. -/
def driveCleaner (d : Device) : Device :=
  let n := dirtyPages d
  updHup d fun h => { h with
    cleaning := if 3 * winLimit d ≤ 4 * n && n != 0 then true else if 2 * n ≤ winLimit d then false else h.cleaning }

/-- One run of the loop. -/
def holdupLoop (d : Device) : Device :=
  let e2 := energy2 d
  let ef := energyFixed d
  let limit := if regF d HUP_CFG 0 1 = 0 then 0
    else limitOf e2 ef (regF d HUP_DRAIN 0 8) (regF d HUP_DRAIN 8 16) (winPages d)
  let d := setReg (setReg d HUP_LIMIT 21 19 limit) HUP_ENERGY 0 32 (e2 / (2 * 10 ^ 12))
  let d := setReg d HUP_STAT 3 1 (if e2 < 3 * ef then 1 else 0)
  driveCleaner (driveWt (showCap d) e2 ef)

/-- HOLDUP_LOOP (R439 to R441, R49): at ticks whose beat number is a multiple of 1,000. -/
def execHoldupLoop (s : State) : Host.Outcome State Fault Refusal :=
  act (fun d => if (running d || d.phase == .recovery) && beatNow d % 1000 == 0 then holdupLoop d else d) s

/-! ### Dirty pages and the cleaner (R435, R436, R441) -/

/-- Whether some write or grant waits for a clean page. -/
def pageWanted (d : Device) (pg : Nat) : Bool :=
  d.hup.wants.contains pg || d.hup.held.any fun h => winPage d h.line == some pg

/-- PAGE_DIRTY (R435, R441): a clean page that something waits for becomes dirty, if the limit leaves room. -/
def execPageDirty (pg : Nat) (s : State) : Host.Outcome State Fault Refusal :=
  act (whenRun fun d =>
    if !d.hup.clean.contains pg || !pageWanted d pg then d
    else if !unprotected d && decide (winLimit d < dirtyPages d + 1) then setReg d HUP_STAT 4 1 1
    else driveCleaner (updHup d fun h => { h with
      clean := h.clean.filter (· != pg), order := h.order ++ [pg], records := insertNat h.records pg,
      wants := h.wants.filter (· != pg) })) s

/-- DIRTY_MAP_RECORD_COMPLETE (R435, R441): what waited for the record goes on; while the window is unprotected, its
writes are complete only after the page's clean. -/
def execDirtyMapRecordComplete (pg : Nat) (s : State) : Host.Outcome State Fault Refusal :=
  act (whenRun fun d =>
    if ldgState d = 3 || !d.hup.records.contains pg then d
    else updHup d fun h => { h with
      records := h.records.filter (· != pg), mapClean := h.mapClean.filter (· != pg),
      strict := if unprotected d then insertNat h.strict pg else h.strict }) s

/-- Core copies of a line become shared, and modified data reach the slice. -/
def downgrade (d : Device) (a : Nat) : Device :=
  let t := homeOf d a
  match sfind d.gal[t].dir a with
  | none => d
  | some e =>
    let d := match modified d a with
      | some (x, p) => slicePut d a x (BitVec.allOnes 64) p (wayMask d t 0) true 1
      | none => d
    let d := (dirHarts e).foldl (fun d h => updHart d h fun s =>
      { s with lines := supd s.lines a fun l => { l with dirty := false } }) d
    match e.owner with
    | some h => updGal d t fun g => { g with dir := sput g.dir a ⟨insertNat e.sharers (h.val / 2), none⟩ }
    | none => d

/-- A line of the window is copied to its place in the image, a poisoned one as poisoned. -/
def imageCopy (d : Device) (off : Nat) (l : Line × Bool) : Device :=
  updHup d fun h => { h with
    image := mwrite h.image off 64 l.1.toNat
    imagePoison := if l.2 then insertNat h.imagePoison off else h.imagePoison.filter (· != off) }

/-- Byte offsets in the window of a page's lines. -/
def pageLines (pg : Nat) : List Nat := (List.range 1024).map fun k => pg * 65536 + 64 * k

/-- A line of the window is read coherently, in class 3, and copied to the image. -/
def copyToImage (d : Device) (off : Nat) : Device :=
  let x := unitRead d (winBase d + off) ⟨3, 0, false⟩ .clean
  imageCopy x.2 off (x.1.data, x.1.poison)

/-- The four steps of R436 on a page. -/
def cleanPage (d : Device) (pg : Nat) : Device :=
  let d := (pageLines pg).foldl (fun d o => downgrade d (winBase d + o)) d
  let d := (pageLines pg).foldl copyToImage d
  updHup d fun h => { h with
    clean := insertNat h.clean pg, mapClean := insertNat h.mapClean pg,
    order := h.order.filter (· != pg), strict := h.strict.filter (· != pg) }

/-- The page the cleaner takes next: those to be cleaned at once, then the page that became dirty earliest. -/
def nextDirty (d : Device) : Option Nat :=
  match d.hup.strict with
  | pg :: _ => some pg
  | [] =>
    match (List.range (winPages d)).find? fun pg => !d.hup.clean.contains pg && !d.hup.order.contains pg with
    | some pg => some pg
    | none => d.hup.order.find? fun pg => !d.hup.records.contains pg

/-- Whether the ledger has no other work. -/
def ledgerIdle (d : Device) : Bool :=
  d.ledger.staged.isEmpty && (List.finRange 64).all fun p => (ldgEntries d p).isEmpty

/-- Whether the cleaner runs (R441). -/
def cleanerRuns (d : Device) : Bool :=
  ldgState d != 3 && !d.hup.kept &&
    (!d.hup.strict.isEmpty || d.hup.cleaning || ledgerIdle d ||
      ((!d.hup.wants.isEmpty || !d.hup.held.isEmpty) && decide (winLimit d < dirtyPages d + 1)))

/-- CLEANER_PAGE_CLEAN (R436, R441). -/
def execCleanerPageClean (s : State) : Host.Outcome State Fault Refusal :=
  act (whenServed fun d =>
    if !cleanerRuns d then d
    else match nextDirty d with
      | some pg => driveCleaner (cleanPage d pg)
      | none => d) s

/-- Whether the held write at index `i` may be performed: its page is dirty and recorded, and no earlier write to its
line waits. -/
def releasable (d : Device) (i : Nat) (w : HeldWrite) : Bool :=
  !(d.hup.held.take i).any (fun h => h.line == w.line) &&
    (match winPage d w.line with
     | some pg => !d.hup.clean.contains pg && !d.hup.records.contains pg
     | none => true)

/-- HELD_WRITE_RELEASE (R435, R441): the write held at index `i` proceeds. -/
def execHeldWriteRelease (i : Nat) (s : State) : Host.Outcome State Fault Refusal :=
  act (whenRun fun d =>
    match d.hup.held[i]? with
    | none => d
    | some w =>
      if releasable d i w then
        sliceWrite (updHup d fun h => { h with held := h.held.take i ++ h.held.drop (i + 1) }) w 1
      else d) s

/-! ### The drain (R45, R50, R409, R443 to R445) -/

/-- A quiet window when the drain begins: a step in progress completes, with a drift that is a free value, and a window
whose beat has not started is cancelled (R45). -/
def drainWindow (d : Device) (c : Chan) : Device :=
  if inQuiet d c then
    let f := drawFree d
    quietStep f.2 c (Config.freeValue f.1 % 2 ^ 16)
  else if regF d BEAT_QW_PEND c.val 1 = 1 then setReg (setReg d (BEAT_QW_NEXT c.val) 63 1 0) BEAT_QW_PEND c.val 1 0
  else d

/-- Step 1: outputs, morsels, streams, the beat generator, quiet windows, harts, the self-test and the cleaner. -/
def drainStop (d : Device) : Device :=
  let d := updHup d fun h => { h with chgEn := false, dischEn := true, cleaning := false, persistDone := false }
  let d := setReg (setReg d HUP_STAT 0 2 1) HUP_STAT 2 1 0
  let d := abandonAll d (activeP d) (beatNow d)
  let d := allEngines (setReg d BEAT_STAT 4 1 1) fun _ x =>
    if x.run == .running then { x with run := .held, waiting := false } else x
  let d := (List.finRange 16).foldl drainWindow (updBeat d fun b => { b with outAt := none })
  let d := (List.finRange 256).foldl cancelStreams d
  endTest (allHarts d fun h => { h with sb := [] }) 4 0

/-- Whether a line lies in the window. -/
def inWindow (d : Device) (a : Nat) : Bool := (winPage d a).isSome

/-- Dirty window lines of the harts reach their slices. -/
def flushHarts (d : Device) : Device :=
  (List.finRange 128).foldl (fun d h =>
    (d.harts[h].lines.filter fun l => l.2.dirty && inWindow d l.1).foldl (fun d l => downgrade d l.1) d) d

/-- Dirty window lines and victims of a slice reach their channels. -/
def flushSlice (d : Device) (t : Tile) : Device :=
  let g := d.gal[t]
  let vs := g.victims.filter fun v => inWindow d v.line
  let ls := (g.lines.map (·.2)).filter fun l => (l.dirty || l.poison) && inWindow d l.line
  let d := updGal d t fun g => { g with
    victims := g.victims.filter fun v => !inWindow d v.line
    lines := g.lines.map fun l => (l.1, if inWindow d l.2.line then { l.2 with dirty := false } else l.2) }
  (vs ++ ls).foldl (fun d l => chanWrite d l.line l.data (BitVec.allOnes 64) l.poison 0) d

/-- Waiting window writes of a channel reach its DRAM; a failed channel discards them (R408). -/
def flushChan (d : Device) (c : Chan) : Device :=
  let ws := d.chans[c].wrq.filter fun w => inWindow d w.line
  let d := updChan d c fun x => { x with wrq := x.wrq.filter fun w => !inWindow d w.line }
  if chanFailed d c then d else ws.foldl mediaWrite d

/-- Step 2: the cache flush. -/
def drainFlush (d : Device) : Device :=
  let d := (List.finRange 64).foldl flushSlice (flushHarts d)
  (List.finRange 16).foldl flushChan d

/-- Step 3: the write buffer and the dirty-map records reach media. -/
def drainBuffer (d : Device) : Device :=
  let d := updLedger d fun l => d.ledger.staged.foldl toMedia { l with staged := [] }
  updHup d fun h => { h with mapClean := h.mapClean.filter fun pg => !h.records.contains pg, records := [] }

/-- Whether a page lies on one of these channels (R389, R409). -/
def onChans (d : Device) (l : List Chan) (pg : Nat) : Bool :=
  l.any fun c => c.val / 4 == quadOf d (winBase d + pg * 65536)

/-- Pages that the dirty map holds dirty. -/
def mapDirty (d : Device) : List Nat := (List.range (winPages d)).filter fun pg => !d.hup.mapClean.contains pg

/-- Step 4 copies a line from DRAM: what its read finds, a poisoned line as poisoned (R437). -/
def drainLine (d : Device) (off : Nat) : Device :=
  let a := winBase d + off
  match readDram d a .clean with
  | (some l, d) => imageCopy d off (l, false)
  | (none, d) => imageCopy d off ((mediaLine d a).1, true)

/-- Step 4 copies one page from DRAM. -/
def drainPage (d : Device) (pg : Nat) : Device := (pageLines pg).foldl drainLine d

/-- The highest page named by a progress record when `k` of the pages have been copied. -/
def progressOf (l : List Nat) (k : Nat) : Option Nat :=
  let n := if l.length ≤ k then l.length else k / 1024 * 1024
  if n = 0 then none else l[n - 1]?

/-- Step 4: the pages copied and the result: COMPLETE, out of energy, or a failed channel. -/
def drainCopy (d : Device) (o : DrainEnv) : (Nat × Nat) × Device :=
  let all := mapDirty d
  let good := all.filter fun pg => !onChans d o.lost pg
  let bad := all.filter (onChans d o.lost)
  let k := min good.length (o.copied.getD good.length)
  let d := (good.take k).foldl drainPage d
  let d := updHup d fun h => { h with progress := progressOf good k, lost := bad }
  ((k, if k < good.length then 2 else if bad.isEmpty then 1 else 3), d)

/-- P_drain and drain_rate as a COMPLETE drain refines them (R445). -/
def refine (x meas : Nat) (lo hi : Nat) : Nat :=
  min hi (max lo (Int.ofNat x + (Int.ofNat meas - Int.ofNat x) / 8).toNat)

/-- The stored HUP_DRAIN after a COMPLETE drain. -/
def refined (d : Device) (o : DrainEnv) (v : Dword) : Dword :=
  setField (setField v 0 8 (refine (regF d HUP_DRAIN 0 8) o.pMeas 60 250)) 8 16
    (refine (regF d HUP_DRAIN 8 16) o.rateMeas 8000 48000)

/-- Step 5: the outcome record; the part enters PERSISTED. A drain that ran out of energy does not get there: its
PERSIST_DONE stays low and its duration is a free value. -/
def drainEnd (d : Device) (o : DrainEnv) (copied res : Nat) : Device :=
  let f := drawFree d
  let ms := if res = 2 then Config.freeValue f.1 else o.ms
  let out : Dword := setField (setField (setField 0 0 2 res) 2 19 copied) 40 16 ms
  let d := lifeSave (lifeNote f.2 .drain res copied)
  let d := updHup d fun h => { h with
    outcome := out, persistDone := res != 2
    saved := if res = 1 then sput h.saved HUP_DRAIN (refined d o (sget h.saved HUP_DRAIN (resetReg HUP_DRAIN)))
    else h.saved }
  setReg { d with phase := .persisted } HUP_STAT 0 2 (if res = 2 then 1 else 2)

/-- The drain from acceptance to its end. A part in start-up leaves the image as it is, as does one whose image is kept
or whose ledger is FAILED (R447, R414); with no store fitted no drain can run (R557). -/
def drainNow (d : Device) (o : DrainEnv) : Device :=
  if d.phase == .draining || d.phase == .persisted then d
  else
    let frozen := !d.pkg.bootDone || d.hup.kept || ldgState d == 3
    let d' := drainStop { d with phase := .draining }
    if regF d HUP_CFG 0 1 = 0 then
      setReg { updHup d' (fun h => { h with dischEn := false }) with phase := .persisted } HUP_STAT 0 2 0
    else if frozen then drainEnd (drainFlush d') o 0 1
    else
      match drainCopy (drainBuffer (drainFlush d')) o with
      | ((k, res), d) => drainEnd d o k res

/-- PWRFAIL_ACCEPT (R442, R443). -/
def execPwrfailAccept (o : DrainEnv) (s : State) : Host.Outcome State Fault Refusal :=
  act (fun d => drainNow d o) s

/-- DISCHARGE_DISABLE (R443): 10 ms after PERSIST_DONE. -/
def execDischargeDisable (s : State) : Host.Outcome State Fault Refusal :=
  act (fun d => if d.hup.persistDone then updHup d fun h => { h with dischEn := false } else d) s

end Sys2Proof.Machine
end

