-- ==== Sys2Proof/Machine/Cores.lean ====
section
/-! DEFINITION. The general cores as far as the spec describes them: accesses to memory through their caches and the
gallery's directory, fences, cache operations, LR, SC and AMO, idle states, interrupt files, inbound device requests
and the IOMMU's command queue (R338, R344 to R358, R371 to R385). -/

namespace Sys2Proof.Machine

open Sys2Proof

/-- Whether a hart executes instructions. -/
def awake (d : Device) (h : Hart) : Bool := !d.harts[h].held && d.harts[h].idle == .running

/-- An instruction of a hart that executes, once its reads of memory are served. -/
def coreRun (h : Hart) (f : Device → Device) (s : State) : Host.Outcome State Fault Refusal :=
  act (whenServed fun d => if awake d h then f d else d) s

/-! ### Control and status registers (R369, R370, R374, R382)

The numbers, the fields and what a trap does with them are those of the RISC-V privileged specification (PRESUMED, log
entry 116). -/

/-- The reset value of a register: menvcfg.ADUE is 1 and the identity registers are R370's; the timers compare with
their largest value (DESIGN CHOICE, log entry 116). -/
def csrReset (n : Nat) : Dword :=
  if n = 0x30a then 0x2000000000000000
  else if n = 0xf12 then 0x410064
  else if n = 0xf13 then 1
  else if n = 0x14d ∨ n = 0x24d then BitVec.allOnes 64
  else 0

def csrGet (x : HartState) (n : Nat) : Dword := sget x.csr n (csrReset n)
def csrPut (x : HartState) (n : Nat) (v : Dword) : HartState := { x with csr := sput x.csr n v }
def csrF (x : HartState) (n lo len : Nat) : Nat := field (csrGet x n) lo len
def csrSet (x : HartState) (n lo len v : Nat) : HartState := csrPut x n (setField (csrGet x n) lo len v)

/-- The counter cycle: core cycles at the hart's frequency, of engine cycles at 2 GHz; it stops in the idle states. -/
def coreCycles (d : Device) (h : Hart) : Nat :=
  let x := d.harts[h]
  (x.clocked + if awake d h then (d.cycle - x.clockAt) * x.freq else 0) / 2000

/-- The counter is brought up to date before the hart's frequency or state changes. -/
def syncClock (d : Device) (h : Hart) : Device :=
  updHart d h fun x => { x with
    clocked := x.clocked + (if awake d h then (d.cycle - x.clockAt) * x.freq else 0), clockAt := d.cycle }

/-- The counter time: the 100 MHz reference. -/
def coreTime (d : Device) : Nat := d.cycle / 20

/-- A control and status register as a read finds it. -/
def csrView (d : Device) (h : Hart) (n : Nat) : Dword :=
  if n = 0xf14 then BitVec.ofNat 64 h.val
  else if n = 0xb00 ∨ n = 0xc00 then BitVec.ofNat 64 (coreCycles d h)
  else if n = 0xc01 then BitVec.ofNat 64 (coreTime d)
  else if n = 0xb02 ∨ n = 0xc02 then d.harts[h].instret
  else if (0xb03 ≤ n ∧ n ≤ 0xb1f) ∨ (0xc03 ≤ n ∧ n ≤ 0xc1f) then d.harts[h].hpm[n % 256 - 3]?.getD 0
  else if 0x323 ≤ n ∧ n ≤ 0x33f then d.harts[h].mhpmevent[n - 0x323]?.getD 0
  else csrGet d.harts[h] n

/-- A trap is taken: in machine mode, or where medeleg and hedeleg send it; the register of its mode save where it came
from, and execution goes on at that mode's vector. -/
def enterTrap (x : HartState) (cause tval : Nat) : HartState :=
  let v := BitVec.ofNat 64
  let virt := x.mode == .virtualSupervisor || x.mode == .virtualUser
  let spp := if x.mode = .hypervisor ∨ x.mode = .virtualSupervisor then 1 else 0
  let save := fun (x : HartState) base =>
    csrPut (csrPut (csrPut x (base + 0x41) (v x.pc)) (base + 0x42) (v cause)) (base + 0x43) (v tval)
  let down := x.mode != .machine && csrF x 0x302 cause 1 == 1
  if down && virt && csrF x 0x602 cause 1 == 1 then
    let y := csrSet (csrSet (csrSet (save x 0x200) 0x200 5 1 (csrF x 0x200 1 1)) 0x200 1 1 0) 0x200 8 1 spp
    { y with mode := .virtualSupervisor, pc := csrF y 0x205 2 62 * 4 }
  else if down then
    let y := csrSet (csrSet (csrSet (save x 0x100) 0x300 5 1 (csrF x 0x300 1 1)) 0x300 1 1 0) 0x300 8 1 spp
    let y := csrSet (csrSet y 0x600 7 1 virt.toNat) 0x600 6 1 virt.toNat
    let y := if virt then csrSet y 0x600 8 1 spp else y
    { y with mode := .hypervisor, pc := csrF y 0x105 2 62 * 4 }
  else
    let y := csrSet (csrSet (csrSet (save x 0x300) 0x300 7 1 (csrF x 0x300 3 1)) 0x300 3 1 0) 0x300 11 2
      (if x.mode = .machine then 3 else spp)
    let y := csrSet (csrSet y 0x300 39 1 virt.toNat) 0x300 38 1 virt.toNat
    { y with mode := .machine, pc := csrF y 0x305 2 62 * 4 }

/-- An instruction retires (R382). -/
def retire (d : Device) (h : Hart) : Device := updHart d h fun x => { x with instret := x.instret + 1 }

/-- The bit of mhpmevent that inhibits counting in a mode. -/
def inhibitBit (m : CoreMode) : Nat :=
  match m with
  | .machine => 62
  | .hypervisor => 61
  | .user => 60
  | .virtualSupervisor => 59
  | .virtualUser => 58

/-- Whether a programmable counter counts an event in a mode. -/
def hpmTakes (e : Dword) (m : CoreMode) (ev : Nat) : Bool := field e 0 16 == ev && field e (inhibitBit m) 1 == 0

/-- The programmable counters of a hart count an event; one that overflows sets its OF bit, and the local
counter-overflow interrupt is pending where the bit was 0 (R382). -/
def hpmCount (d : Device) (h : Hart) (ev : Nat) : Device :=
  updHart d h fun x =>
    let full := fun k : Fin 8 => hpmTakes x.mhpmevent[k] x.mode ev && x.hpm[k] == BitVec.allOnes 64
    let y := if (List.finRange 8).any fun k => full k && field x.mhpmevent[k] 63 1 == 0 then
        csrSet x 0x344 13 1 1 else x
    { y with
      hpm := Vector.ofFn fun k => if hpmTakes x.mhpmevent[k] x.mode ev then x.hpm[k] + 1 else x.hpm[k]
      mhpmevent := Vector.ofFn fun k => if full k then setField x.mhpmevent[k] 63 1 1 else x.mhpmevent[k] }

/-- A hart takes a trap: cause and trap value, and its reservation is lost (R352). -/
def coreTrap (d : Device) (h : Hart) (cause tval : Nat) : Device :=
  updHart d h fun x => { enterTrap x cause tval with trap := some ⟨cause, tval⟩, reserve := none }

/-- A trap of an access: of a vector access, vstart holds the element (R351). -/
def accTrap (d : Device) (h : Hart) (acc : CoreAccess) (cause tval : Nat) : Device :=
  coreTrap (match acc.elem with
    | some v => updHart d h fun x => csrPut x 8 (BitVec.ofNat 64 v.k)
    | none => d) h cause tval

/-- An access is done: a vector instruction retires with its last element, and leaves vstart at 0. -/
def accDone (d : Device) (h : Hart) (acc : CoreAccess) : Device :=
  match acc.elem with
  | some v => if v.last then retire (updHart d h fun x => csrPut x 8 0) h else d
  | none => retire d h

/-- What an instruction leaves in its destination register. -/
def setLoaded (d : Device) (h : Hart) (v : Nat) : Device :=
  updHart d h fun x => { x with loaded := BitVec.ofNat 64 v }

/-! ### The directory and the caches (R338, R339, R371, R372) -/

/-- Room for an entry of the directory: a full set evicts one, which the spec does not name (log
entry 23). -/
def dirRoom (d : Device) (a : Nat) : Device :=
  let t := homeOf d a
  let set := d.gal[t].dir.filter fun e => e.1 / 64 % 4096 == a / 64 % 4096
  if set.length < 16 || (sfind d.gal[t].dir a).isSome then d
  else
    let f := drawFree d
    match set[Config.freeValue f.1 % set.length]? with
    | some e => incReg (recallLine f.2 e.1) (GAL_EVT t.val) 48 16 1
    | none => f.2

/-- A hart becomes a sharer of a line, or its owner. -/
def dirAdd (d : Device) (h : Hart) (a : Nat) (excl : Bool) : Device :=
  let d := dirRoom d a
  updGal d (homeOf d a) fun g => { g with
    dir := sput g.dir a (if excl then ⟨[], some h⟩ else
      match sfind g.dir a with
      | some e => ⟨insertNat e.sharers (h.val / 2), none⟩
      | none => ⟨[h.val / 2], none⟩) }

/-- Whether a hart owns a line. -/
def owns (d : Device) (h : Hart) (a : Nat) : Bool :=
  match sfind d.gal[homeOf d a].dir a with
  | some e => e.owner == some h
  | none => false

/-- A line from its home slice or the memory behind it, in class 1; a miss allocates in the slice (R336, R340, R341,
R392). -/
def fetchSlice (d : Device) (h : Hart) (a : Nat) (o : EccOutcome) : (Line × Bool) × Device :=
  let x := sliceRead d a ⟨1, 0, false⟩ o
  let d := if x.1.miss then hpmCount x.2 h 4 else x.2
  ((x.1.data, x.1.poison), if x.1.miss && !x.1.poison then
    galInstall d (wayMask d (homeOf d a) 0) ⟨a, x.1.data, false, false, 0, 1⟩ 1 else d)

/-- What the error check of the hart's own caches finds (R372): an uncorrectable dirty line goes to the gallery
poisoned, and a clean one is fetched again. -/
def ownCheck (d : Device) (h : Hart) (a : Nat) (o : EccOutcome) : Device :=
  match sfind d.harts[h].lines a with
  | none => d
  | some l =>
    match o with
    | .clean => d
    | .bad =>
      let d' := updHart d h fun x => { x with
        lines := sdel x.lines a, reserve := if x.reserve == some a then none else x.reserve }
      if l.dirty then
        raiseEvent (slicePut d' a l.data (BitVec.allOnes 64) true (wayMask d (homeOf d a) 0) true 1)
          0x15 (chanOf d a).val a 0 none
      else d'
    | _ => raiseEvent d 0x08 h.val a 0 none

/-- The directory forgets a hart; its square stays a sharer while the other hart of the square holds the line. -/
def dirForget (l : Sparse DirEntry) (h : Hart) (a : Nat) (others : Bool) : Sparse DirEntry :=
  match sfind l a with
  | none => l
  | some e =>
    let sh := if others then e.sharers else e.sharers.filter (· != h.val / 2)
    let ow := if e.owner == some h then none else e.owner
    if sh.isEmpty && ow.isNone then sdel l a else sput l a ⟨sh, ow⟩

/-- A line that leaves the L1D takes its reservation with it (R352). -/
def unreserve (x : HartState) (a : Nat) : HartState :=
  { x with reserve := if x.reserve == some a then none else x.reserve }

/-- One line leaves the caches of a hart: modified data go to the gallery, and the directory forgets the hart. -/
def leaveLine (d : Device) (h : Hart) (a : Nat) : Device :=
  match sfind d.harts[h].lines a with
  | none => d
  | some l =>
    let d := if l.dirty then slicePut d a l.data (BitVec.allOnes 64) l.poison (wayMask d (homeOf d a) 0) true 1 else d
    let d := updHart d h fun x => unreserve { x with lines := sdel x.lines a } a
    let others := (hartsOf (h.val / 2)).any fun k => (sfind d.harts[k].lines a).isSome
    updGal d (homeOf d a) fun g => { g with dir := dirForget g.dir h a others }

/-- One of some lines, by a value that the spec leaves free (log entry 128). -/
def anyOf (d : Device) (l : List Nat) : Option Nat × Device :=
  let f := drawFree d
  (l[Config.freeValue f.1 % l.length]?, f.2)

/-- Room for a line in the 8 ways of the L1D: a full set loses a line, which the spec does not name, to the L2 (R371).
-/
def l1dRoom (d : Device) (h : Hart) (a : Nat) : Device :=
  let set := d.harts[h].lines.filter fun x => x.2.l1 && x.1 / 64 % 128 == a / 64 % 128
  if set.length < 8 then d
  else match anyOf d (set.map (·.1)) with
    | (some v, d) => updHart d h fun x => unreserve { x with lines := supd x.lines v fun l => { l with l1 := false } } v
    | (none, d) => d

/-- Room for a line in the 16 ways of the L2, and in the L1D, which the L2 includes (R371). -/
def coreRoom (d : Device) (h : Hart) (a : Nat) : Device :=
  let set := d.harts[h].lines.filter fun x => x.1 / 64 % 1024 == a / 64 % 1024
  let d := if set.length < 16 || (sfind d.harts[h].lines a).isSome then d
    else match anyOf d (set.map (·.1)) with
      | (some v, d) => leaveLine d h v
      | (none, d) => d
  l1dRoom d h a

/-- A line that the L2 holds comes into the L1D. -/
def l1dFill (d : Device) (h : Hart) (a : Nat) : Device :=
  updHart (l1dRoom (hpmCount d h 1) h a) h fun x => { x with lines := supd x.lines a fun l => { l with l1 := true } }

/-- Whether the L1D of a hart holds a line. -/
def inL1d (d : Device) (h : Hart) (a : Nat) : Bool :=
  match sfind d.harts[h].lines a with
  | some l => l.l1
  | none => false

/-- A line comes into the caches of a hart, exclusive for a store. -/
def coreFetch (d : Device) (h : Hart) (a : Nat) (excl : Bool) (o : EccOutcome) : Device :=
  let had := (sfind d.harts[h].lines a).isSome
  let d := ownCheck d h a o
  let d := if (sfind d.harts[h].lines a).isSome && !inL1d d h a then l1dFill d h a else d
  if (sfind d.harts[h].lines a).isSome && (!excl || owns d h a) then d
  else
    let d := if had then d else hpmCount (hpmCount d h 1) h 3
    let keep := d.harts[h].reserve
    let d := if excl then updHart (recallLine d a) h fun x => { x with reserve := keep } else downgrade d a
    match fetchSlice d h a (if had then .clean else o) with
    | ((l, p), d) =>
      updHart (dirAdd (coreRoom d h a) h a excl) h fun x => { x with lines := sput x.lines a ⟨l, false, p, true⟩ }

/-- A line as the hart holds it. -/
def heldLine (d : Device) (h : Hart) (a : Nat) : CoreLine := sget d.harts[h].lines a ⟨0, false, false, false⟩

/-! ### The store buffer (R344, R345, R349, R435) -/

/-- A store laid over a line. -/
def storeOver (l : Line) (w : CoreStore) : Line :=
  lineMerge l (w.data <<< (8 * (w.pa % 64) : Nat)) (enables (w.pa % 64) w.size)

/-- A store is performed: the hart's line is merged and modified, and reservations of other harts are lost. -/
def performStore (d : Device) (h : Hart) (w : CoreStore) (o : EccOutcome) : Device :=
  let a := lineOf w.pa
  let d := coreFetch d h a true o
  let l := heldLine d h a
  let new : CoreLine := ⟨storeOver l.data w, true, l.poison && !fullLine (enables (w.pa % 64) w.size), true⟩
  loseReserve (updHart d h fun x => { x with lines := sput x.lines a new }) a (some h)

/-- The oldest stores are performed, at most `n` of them, as far as the window lets them. -/
def drainSb (d : Device) (h : Hart) : Nat → Device
  | 0 => d
  | n + 1 =>
    match d.harts[h].sb with
    | [] => d
    | w :: rest =>
      if winHolds d w.pa then wantPage d w.pa
      else drainSb (updHart (performStore d h w .clean) h fun x => { x with sb := rest }) h n

/-- Whether a store of the line waits in the hart's store buffer. -/
def sbHas (d : Device) (h : Hart) (a : Nat) : Bool := d.harts[h].sb.any fun w => lineOf w.pa == a

/-- A line with the hart's own waiting stores laid over it (R344). -/
def sbOver (d : Device) (h : Hart) (a : Nat) (l : Line) : Line :=
  (d.harts[h].sb.filter fun w => lineOf w.pa == a).foldl storeOver l

/-! ### Loads and stores (R347 to R350, R372, R373) -/

/-- One piece of an access: virtual and physical address, size, and the exception its checks raise. -/
structure CorePiece where
  va : Nat
  pa : Nat
  size : Nat
  fault : Option Nat
  deriving DecidableEq, Repr

/-- The interrupt files and the control window. -/
def inImsic (a : Nat) : Bool :=
  (decide (0xe000000000000 ≤ a) && decide (a < 0xe000001000000)) ||
    (decide (0xe000001000000 ≤ a) && decide (a < 0xe000001400000))
def inControl (a : Nat) : Bool := decide (0xf000000000000 ≤ a) && decide (a < 0xf000100000000)

/-- The pieces of an access, split at a 16-byte boundary (R347). -/
def corePieces (acc : CoreAccess) : List CorePiece :=
  let k := 16 - acc.va % 16
  if acc.size ≤ k then [⟨acc.va, acc.pa, acc.size, acc.fault⟩]
  else [⟨acc.va, acc.pa, k, acc.fault⟩, ⟨acc.va + k, acc.pa2, acc.size - k, acc.fault2⟩]

/-- The exception a piece raises, if any: translation and protection, then whether the address is populated (R373). -/
def pieceFault (d : Device) (st : Bool) (p : CorePiece) : Option Nat :=
  match p.fault with
  | some c => some c
  | none => if inMain d p.pa || inMmio p.pa || inImsic p.pa then none else some (if st then 7 else 5)

/-- The first piece that fails its checks: cause and trap value (R348). A piece of an access that begins in main memory
may not lie in I/O (log entry 73). -/
def accessFault (d : Device) (st : Bool) (l : List CorePiece) : Option (Nat × Nat) :=
  let main := l.head?.any fun p => inMain d p.pa
  l.findSome? fun p =>
    match pieceFault d st p with
    | some c => some (c, p.va)
    | none => if main && !inMain d p.pa then some (if st then 7 else 5, p.va) else none

/-- Whether an access is naturally aligned, and whether its size is one a core has. -/
def coreAligned (acc : CoreAccess) : Bool := acc.va % acc.size == 0
def coreSize (acc : CoreAccess) : Bool := [1, 2, 4, 8].contains acc.size

/-- An interrupt file accepts only aligned accesses of 4 bytes (R373); other I/O accesses are taken whole. -/
def ioBad (acc : CoreAccess) : Bool :=
  !inMmio acc.pa && (acc.size != 4 || !coreAligned acc)

/-- Loads the pieces in order: the value, or the piece whose line is poisoned (R372). -/
def loadPieces (d : Device) (h : Hart) (o : EccOutcome) : List CorePiece → Except CorePiece Nat × Device
  | [] => (.ok 0, d)
  | p :: t =>
    let a := lineOf p.pa
    let d := coreFetch d h a false o
    let l := heldLine d h a
    if l.poison then (.error p, d)
    else
      let v := lineRead (sbOver d h a l.data) (p.pa % 64) p.size
      match loadPieces d h o t with
      | (.ok r, d) => (.ok (v + 2 ^ (8 * p.size) * r), d)
      | x => x

/-- A load of main memory. -/
def mainLoad (d : Device) (h : Hart) (acc : CoreAccess) (l : List CorePiece) : Device :=
  match loadPieces d h acc.ecc l with
  | (.ok v, d) => accDone (setLoaded d h v) h acc
  | (.error p, d) => accTrap d h acc 19 p.va

/-- The store-buffer entries of a store, the lower piece first. -/
def storeEntries (v : Nat) : List CorePiece → List CoreStore
  | [] => []
  | p :: t => ⟨p.pa, p.size, BitVec.ofNat 512 (v % 2 ^ (8 * p.size))⟩ :: storeEntries (v / 2 ^ (8 * p.size)) t

/-- A store of main memory enters the store buffer. -/
def mainStore (d : Device) (h : Hart) (acc : CoreAccess) (v : BitVec 64) (l : List CorePiece) : Device :=
  accDone (drainSb (updHart d h fun x => { x with sb := x.sb ++ storeEntries v.toNat l }) h acc.drain) h acc

/-- A root port records an error of a device below it (R357). -/
def portError (d : Device) (rp : RootPort) : Device :=
  { d with pkg := { d.pkg with portErr := sput d.pkg.portErr rp.val (sget d.pkg.portErr rp.val 0 + 1) } }

/-- An access to I/O other than the control window: an interrupt file takes a store as an MSI write and reads as 0,
and a device answers a load. A store to a device that has failed completes as posted, and its root port records the
error (R357). -/
def ioAccess (d : Device) (h : Hart) (acc : CoreAccess) : Device :=
  match acc.store with
  | some v =>
    if ioBad acc then accTrap d h acc 7 acc.va
    else accDone (if inImsic acc.pa then msiWrite d acc.pa (v.setWidth 32)
      else match acc.failed with | some rp => portError d rp | none => d) h acc
  | none =>
    if ioBad acc then accTrap d h acc 5 acc.va
    else accDone (setLoaded d h (if inImsic acc.pa then 0 else acc.dev.toNat % 2 ^ (8 * acc.size))) h acc

/-- A core load or store outside the control window. -/
def coreAccess (d : Device) (h : Hart) (acc : CoreAccess) : Device :=
  let l := corePieces acc
  match accessFault d acc.store.isSome l with
  | some (c, va) => accTrap d h acc c va
  | none =>
    if !inMain d acc.pa then
      (if l.length = 1 then ioAccess d h acc else accTrap d h acc (if acc.store.isSome then 7 else 5) acc.va)
    else match acc.store with
      | some v => mainStore d h acc v l
      | none => mainLoad (drainSb d h acc.drain) h acc l

/-- CORE_LOAD_STORE (R344, R372, R373): a naturally aligned load or store. -/
def execCoreLoadStore (h : Hart) (acc : CoreAccess) (s : State) : Host.Outcome State Fault Refusal :=
  coreRun h (fun d =>
    if !coreSize acc || !coreAligned acc || (inControl acc.pa && acc.fault.isNone) then d else coreAccess d h acc) s

/-- CORE_MISALIGNED_ACCESS (R347 to R349); one to the control window raises an access fault. -/
def execCoreMisalignedAccess (h : Hart) (acc : CoreAccess) (s : State) : Host.Outcome State Fault Refusal :=
  coreRun h (fun d =>
    if !coreSize acc || coreAligned acc then d
    else
      let d := if (corePieces acc).length = 2 then hpmCount d h 6 else d
      coreAccess d h acc) s

/-! ### FENCE and cache operations (R345, R346) -/

/-- CORE_FENCE (R345): with w in its predecessor set it waits until every earlier store has been performed, those to
pages that are being cleaned included (R441). Loads and I/O accesses are complete when their commands end. -/
def execCoreFence (h : Hart) (pred _succ : FenceSet) (s : State) : Host.Outcome State Fault Refusal :=
  coreRun h (fun d =>
    let d := if pred.w then drainSb d h d.harts[h].sb.length else d
    if pred.w && (!d.harts[h].sb.isEmpty || !d.hup.strict.isEmpty) then d else retire d h) s

/-- The checks of a cache operation, and what holds it: earlier stores of the line. -/
def cboRun (h : Hart) (acc : CoreAccess) (f : Device → Nat → Device) (d : Device) : Device :=
  match pieceFault d true ⟨acc.va, acc.pa, 1, acc.fault⟩ with
  | some c => coreTrap d h c acc.va
  | none =>
    let a := lineOf acc.pa
    if !inMain d a then coreTrap d h 7 acc.va
    else
      let d := drainSb d h acc.drain
      if sbHas d h a then d else retire (f d a) h

/-- Modified data of a line are written to the gallery; the core keeps the line. -/
def cleanLine (d : Device) (a : Nat) : Device :=
  match modified d a with
  | none => d
  | some (x, p) =>
    (holders d a).foldl (fun d h => updHart d h fun s => { s with lines := supd s.lines a fun l =>
                                                                  { l with dirty := false } })
      (slicePut d a x (BitVec.allOnes 64) p (wayMask d (homeOf d a) 0) true 1)

/-- CBO_CLEAN (R346). -/
def execCboClean (h : Hart) (acc : CoreAccess) (s : State) : Host.Outcome State Fault Refusal :=
  coreRun h (cboRun h acc cleanLine) s

/-- CBO_FLUSH (R346). -/
def execCboFlush (h : Hart) (acc : CoreAccess) (s : State) : Host.Outcome State Fault Refusal :=
  coreRun h (cboRun h acc recallLine) s

/-- CBO_INVAL (R346): performed as CBO.FLUSH. -/
def execCboInval (h : Hart) (acc : CoreAccess) (s : State) : Host.Outcome State Fault Refusal :=
  coreRun h (cboRun h acc recallLine) s

/-- CBO_ZERO (R346): 64 zero bytes as one store. -/
def execCboZero (h : Hart) (acc : CoreAccess) (s : State) : Host.Outcome State Fault Refusal :=
  coreRun h (fun d =>
    match pieceFault d true ⟨acc.va, acc.pa, 1, acc.fault⟩ with
    | some c => coreTrap d h c acc.va
    | none =>
      if !inMain d acc.pa then coreTrap d h 7 acc.va
      else
        let d := updHart d h fun x => { x with sb := x.sb ++ [⟨lineOf acc.pa, 64, 0⟩] }
        retire (drainSb d h acc.drain) h) s

/-! ### LR, SC and AMO (R350, R352 to R354) -/

/-- Checks of an atomic access: address-misaligned as `mis` says, then its piece; I/O has no atomics. The cause of an
access fault is `acf`. -/
def atomicFault (d : Device) (acc : CoreAccess) (mis : Bool) (acf : Nat) : Option Nat :=
  if inControl acc.pa && acc.fault.isNone then some acf
  else if mis then some 6
  else match acc.fault with
    | some c => some c
    | none => if inMain d acc.pa then none else some acf

/-- Runs an atomic access once no earlier store of its line waits. -/
def atomicRun (h : Hart) (acc : CoreAccess) (mis : Bool) (acf : Nat) (f : Device → Nat → Device) (d : Device) :
    Device :=
  if acc.size != 4 && acc.size != 8 then d
  else match atomicFault d acc mis acf with
    | some c => coreTrap d h c acc.va
    | none =>
      let d := drainSb d h acc.drain
      if sbHas d h (lineOf acc.pa) then d else f d (lineOf acc.pa)

/-- A value of an access as the destination register takes it: a word is sign-extended. -/
def signLoad (v size : Nat) : Nat := if size = 4 then (BitVec.ofNat 32 v).signExtend 64 |>.toNat else v

/-- CORE_LR (R350, R352): the 64-byte granule is reserved. -/
def execCoreLr (h : Hart) (acc : CoreAccess) (s : State) : Host.Outcome State Fault Refusal :=
  coreRun h (atomicRun h acc (!coreAligned acc) 5 fun d a =>
    let d := coreFetch d h a false acc.ecc
    let l := heldLine d h a
    if l.poison then coreTrap d h 19 acc.va
    else
      let d := updHart d h fun x => { x with reserve := some a }
      retire (setLoaded d h (signLoad (lineRead l.data (acc.pa % 64) acc.size) acc.size)) h) s

/-- An SC may fail although its reservation holds, but only so often in a row (R352, R353; log entry 115). -/
def scSucceeds (x : HartState) (a : Nat) (spurious : Bool) : Bool :=
  x.reserve == some a && !(spurious && decide (x.scFails < Config.scBound))

/-- CORE_SC (R350, R352): 0 and the store when the reservation holds, else 1; the reservation is lost either way. -/
def execCoreSc (h : Hart) (acc : CoreAccess) (v : BitVec 64) (spurious : Bool) (s : State) :
    Host.Outcome State Fault Refusal :=
  coreRun h (atomicRun h acc (!coreAligned acc) 7 fun d a =>
    let ok := scSucceeds d.harts[h] a spurious
    if ok && winHolds d acc.pa then wantPage d acc.pa
    else
      let d := if ok then performStore d h ⟨acc.pa, acc.size, BitVec.ofNat 512 (v.toNat % 2 ^ (8 * acc.size))⟩ acc.ecc
        else hpmCount d h 7
      let d := updHart d h fun x => { x with
        reserve := none, scFails := if ok then 0 else if x.reserve == some a then x.scFails + 1 else x.scFails }
      retire (setLoaded d h (if ok then 0 else 1)) h) s

/-- The value an AMO stores. -/
def amoValue (op : AmoOp) (n : Nat) (a b : BitVec n) : BitVec n :=
  match op with
  | .swap => b
  | .add => a + b
  | .xor => a ^^^ b
  | .and => a &&& b
  | .or => a ||| b
  | .min => if a.slt b then a else b
  | .max => if a.slt b then b else a
  | .minu => if a.ult b then a else b
  | .maxu => if a.ult b then b else a

/-- CORE_AMO (R350): atomic within a 16-byte block. -/
def execCoreAmo (h : Hart) (acc : CoreAccess) (op : AmoOp) (v : BitVec 64) (s : State) :
    Host.Outcome State Fault Refusal :=
  coreRun h (atomicRun h acc (decide (16 < acc.va % 16 + acc.size)) 7 fun d a =>
    if winHolds d acc.pa then wantPage d acc.pa
    else
      let d := coreFetch d h a true acc.ecc
      let l := heldLine d h a
      if l.poison then coreTrap d h 19 acc.va
      else
        let old := lineRead l.data (acc.pa % 64) acc.size
        let new := (amoValue op (8 * acc.size) (BitVec.ofNat _ old) (BitVec.ofNat _ v.toNat)).toNat
        let d := performStore d h ⟨acc.pa, acc.size, BitVec.ofNat 512 new⟩ .clean
        retire (setLoaded d h (signLoad old acc.size)) h) s

/-! ### Idle states and interrupts (R376, R377, R384, R385) -/

/-- Whether an interrupt file of the hart has an enabled identity pending. -/
def irqPending (x : HartState) : Bool :=
  x.files.any fun f => f.2.delivery && f.2.pending.any fun i => f.2.enabled.contains i

/-- Whether a debugger asks the hart to halt: the last write of the debug module's control register (the debug
specification's dmcontrol; PRESUMED, log entry 116). -/
def haltAsked (d : Device) (h : Hart) : Bool :=
  match d.pkg.debug with
  | some (a, v) => a == 0x10 && v.getLsbD 31 && fieldN v.toNat 16 10 + fieldN v.toNat 6 10 * 1024 == h.val
  | none => false

/-- Whether an enabled interrupt is pending at a hart: an identity of a file, its timers, a counter overflow or a halt
request (R377, R382, R384). -/
def irqNow (d : Device) (h : Hart) : Bool :=
  let x := d.harts[h]
  irqPending x || haltAsked d h ||
    (csrF x 0x304 5 1 == 1 && decide ((csrGet x 0x14d).toNat ≤ coreTime d)) ||
    (csrF x 0x304 6 1 == 1 && decide ((csrGet x 0x24d).toNat ≤ (coreTime d + (csrGet x 0x605).toNat) % 2 ^ 64)) ||
    (csrF x 0x304 13 1 == 1 && csrF x 0x344 13 1 == 1)

/-- WFI (R384): light idle with no enabled interrupt pending. -/
def execWfi (h : Hart) (s : State) : Host.Outcome State Fault Refusal :=
  coreRun h (fun d =>
    let d := retire d h
    if irqNow d h then d
    else updHart (syncClock d h) h fun x => { x with idle := .light, since := d.cycle }) s

/-- DEEP_IDLE_ENTRY (R367, R384, R385): the store buffer drains, the caches are written back, and the core powers off
unless an interrupt has become pending. -/
def execDeepIdleEntry (h : Hart) (s : State) : Host.Outcome State Fault Refusal :=
  act (whenRun fun d =>
    let x := d.harts[h]
    if x.held || x.idle != .light || decide (d.cycle < x.since + 400000) then d
    else
      let d := drainSb d h x.sb.length
      if !d.harts[h].sb.isEmpty then d
      else
        let d := (d.harts[h].lines.map (·.1)).foldl (fun d a => leaveLine d h a) d
        updHart d h fun x => { x with
          reserve := none, since := d.cycle, clockAt := d.cycle
          idle := if irqNow d h then .running else .deep }) s

/-- Whether no engine has run a unit for 1,000 beats. -/
def enginesQuiet (d : Device) : Bool :=
  (List.finRange 256).all fun e =>
    d.engines[e].dispatch.isNone && ((obsOf d e.val).busy.take 1000).all (!·)

/-- PACKAGE_DEEP_IDLE_ENTRY (R384). -/
def execPackageDeepIdleEntry (s : State) : Host.Outcome State Fault Refusal :=
  act (whenRun fun d =>
    if (List.finRange 128).all (fun h => d.harts[h].held || d.harts[h].idle == .deep) && enginesQuiet d &&
        d.queues.all (fun q => q.2.entries.isEmpty) then
      { d with packageIdle := true, chans := d.chans.map fun c => { c with selfRefresh := true } }
    else d) s

/-- HART_WAKE (R281, R384, R385): the command says that an enabled interrupt is pending at the hart (DESIGN CHOICE, log
entry 116); the package is restored first. -/
def execHartWake (h : Hart) (s : State) : Host.Outcome State Fault Refusal :=
  act (whenRun fun d =>
    if d.harts[h].held || d.harts[h].idle == .running then d
    else updHart (wakePackage d) h fun x => { x with idle := .running, since := d.cycle, clockAt := d.cycle }) s

/-- IMSIC_WRITE (R375 to R377). -/
def execImsicWrite (addr : Nat) (data : BitVec 32) (s : State) : Host.Outcome State Fault Refusal :=
  act (whenRun fun d => msiWrite d addr data) s

/-! ### Devices (R356, R357) -/

/-- An inbound request after its translation: memory, an interrupt file, or neither; a poisoned line answers no data. -/
def inboundAt (d : Device) (pa : Nat) (req : DeviceReq) : Device :=
  let answer := fun (d : Device) (v : Option Nat) => { d with pkg := { d.pkg with inbound := v } }
  match req.store with
  | none =>
    if inMain d pa && inMain d (pa + req.size - 1) then
      let x := memRead d pa req.size ⟨1, 0, false⟩
      answer x.2 (if x.1.2 then none else some x.1.1)
    else answer d none
  | some v =>
    if inMain d pa && inMain d (pa + req.size - 1) then cohWrite d pa req.size v 0 1
    else if inImsic pa && req.size == 4 then msiWrite d pa (BitVec.ofNat 32 v)
    else d

/-- The answer to an inbound read or translation request. -/
def answerReq (d : Device) (v : Option Nat) : Device := { d with pkg := { d.pkg with inbound := v } }

/-- A request that is refused as an unsupported request: a posted write is dropped. -/
def refuseReq (d : Device) (req : DeviceReq) : Device := if req.store.isSome then d else answerReq d none

/-- Whether the context of a function enables ATS, and PRI (R379). -/
def atsOn (d : Device) (rid : Nat) : Bool := match devCtx d rid with | some c => fieldN c.tc 1 1 == 1 | none => false
def priOn (d : Device) (rid : Nat) : Bool :=
  atsOn d rid && match devCtx d rid with | some c => fieldN c.tc 2 1 == 1 | none => false

/-- A memory access of a function, by an address to translate. -/
def memoryReq (d : Device) (req : DeviceReq) : Device :=
  if inControl req.addr then refuseReq d req
  else match xlatReq d req.rid.toNat (req.pasid.map (·.toNat)) req.addr req.store.isSome with
    | (none, d) => refuseReq d req
    | (some pa, d') => if inControl pa then refuseReq d req else inboundAt d' pa req

/-- A memory access by an address that ATS has translated: the function's context must enable ATS (PRESUMED, log entry
25). -/
def translatedReq (d : Device) (req : DeviceReq) : Device :=
  if !atsOn d req.rid.toNat then
    refuseReq (ioFaultAs d req.rid.toNat (req.pasid.map (·.toNat)) req.addr 260 (if req.store.isSome then 7 else 6)) req
  else if inControl req.addr then refuseReq d req
  else inboundAt d req.addr req

/-- An ATS translation request: the physical page with the read and write permissions, which are 0 where the address
does not translate (PRESUMED, log entry 25). -/
def translateReq (d : Device) (req : DeviceReq) (readOnly : Bool) : Device :=
  let rid := req.rid.toNat
  let pasid := req.pasid.map (·.toNat)
  if !atsOn d rid then answerReq (ioFaultAs d rid pasid req.addr 260 8) none
  else
    let r := xlatFor d rid pasid req.addr false
    let w := if readOnly then none else xlatFor d rid pasid req.addr true
    match (if w.isSome then w else r) with
    | some (pa, up) =>
      answerReq (leafUpdate d up) (some (pa / 4096 * 4096 + (if r.isSome then 1 else 0) + (if w.isSome then 2 else 0)))
    | none => answerReq d (some 0)

/-- The IOMMU answers the last page request of a group itself, with a code. -/
def pageReply (d : Device) (req : DeviceReq) (last : Bool) (group code : Nat) : Device :=
  if last then { d with pkg := { d.pkg with
      devMsg := some ⟨req.rid.toNat, 1, group * 2 ^ 32 + code * 2 ^ 44 + req.rid.toNat * 2 ^ 48⟩ } }
  else d

/-- A PRI page request enters the page-request queue, or is answered at once: as invalid where PRI is off, as failed
where the queue is off, and as done where it is full (PRESUMED, log entry 25). -/
def pageReq (d : Device) (req : DeviceReq) (rd wr last : Bool) (group : Nat) : Device :=
  let size := 2 ^ (regF d IOM_PQB 0 5 + 1)
  let tail := regF d IOM_PQ 32 32
  if !priOn d req.rid.toNat then pageReply d req last group 1
  else if regF d IOM_PQCSR 16 1 = 0 || regF d IOM_PQCSR 8 1 == 1 then pageReply d req last group 0xf
  else if (tail + 1) % size = regF d IOM_PQ 0 32 then pageReply (setReg d IOM_PQCSR 9 1 1) req last group 0
  else
    let b := fun (x : Bool) k => if x then 2 ^ k else 0
    let pid := match req.pasid with | some k => k.toNat * 2 ^ 12 + 2 ^ 32 | none => 0
    let w0 := pid + req.rid.toNat * 2 ^ 40
    let w1 := b rd 0 + b wr 1 + b last 2 + group * 2 ^ 3 + req.addr / 4096 * 4096
    let d := cohWrite d (regF d IOM_PQB 10 44 * 4096 + 16 * tail) 16 (w0 + w1 * 2 ^ 64) 0 1
    let d := setReg d IOM_PQ 32 32 ((tail + 1) % size)
    if regF d IOM_PQCSR 1 1 = 1 then iommuMsi (setReg d IOM_PQCSR 35 1 1) 12 else d

/-- INBOUND_DEVICE_REQUEST (R356, R378, R379): a request from a port whose link is up is translated and performed, an
access within one page; one to the control window is refused as an unsupported request. It waits while an earlier
inbound write waits for a page of the window, so that requests of one TID keep their order. -/
def execInboundDeviceRequest (rp : RootPort) (req : DeviceReq) (s : State) : Host.Outcome State Fault Refusal :=
  act (whenServed fun d =>
    let odd := req.size == 0 || decide (4096 < req.addr % 4096 + req.size)
    if !d.pkg.up.contains rp.val || partHeld d 0 then d
    else match req.kind with
      | .memory => if odd then d else memoryReq d req
      | .translated => if odd then d else translatedReq d req
      | .translate readOnly => translateReq d req readOnly
      | .page rd wr last group => pageReq d req rd wr last group.toNat) s

/-- DEVICE_COMPLETION_TIMEOUT (R357): a load from a failed device returns all ones, and the root port records it. -/
def execDeviceCompletionTimeout (rp : RootPort) (h : Hart) (s : State) : Host.Outcome State Fault Refusal :=
  coreRun h (fun d =>
    let d := portError d rp
    retire (setLoaded d h (2 ^ 64 - 1)) h) s

/-! ### The IOMMU's command queue (R379, R381) -/

/-- The queue stops on a command it does not know, or that asks for a wired interrupt. -/
def cqIllegal (d : Device) : Device :=
  let d := setReg d IOM_CSR 10 1 1
  if regF d IOM_CSR 1 1 = 1 then iommuMsi (setReg d IOM_PQCSR 32 1 1) 0 else d

/-- One command: an invalidation of translations has nothing to do, since every request is translated afresh; a fence
writes its data; an ATS command sends its message to the function (PRESUMED layout, log entry 25). -/
def iommuCommand (d : Device) (w0 w1 : Nat) : Option Device :=
  let op := fieldN w0 0 7
  let fn := fieldN w0 7 3
  if op = 1 ∧ fn ≤ 1 then some d
  else if op = 2 ∧ fn = 0 then
    if fieldN w0 11 1 = 1 then none
    else if fieldN w0 10 1 = 1 then some (busWrite4 d (fieldN w1 0 62 * 4) (BitVec.ofNat 32 (fieldN w0 32 32)) 0)
    else some d
  else if op = 3 ∧ fn ≤ 1 then some d
  else if op = 4 ∧ fn ≤ 1 then some { d with pkg := { d.pkg with devMsg := some ⟨fieldN w0 40 16, fn, w1⟩ } }
  else none

/-- IOMMU_COMMAND (R379, R381): the command at the head of the queue. -/
def execIommuCommand (s : State) : Host.Outcome State Fault Refusal :=
  act (whenServed fun d =>
    let head := regF d IOM_CQ 0 32
    let size := 2 ^ (regF d IOM_CQB 0 5 + 1)
    if regF d IOM_CSR 16 1 = 0 || regF d IOM_CSR 8 3 != 0 || head = regF d IOM_CQ 32 32 % size then d
    else
      let a := regF d IOM_CQB 10 44 * 4096 + 16 * head
      if !inMain d a then
        let d := setReg d IOM_CSR 8 1 1
        if regF d IOM_CSR 1 1 = 1 then iommuMsi (setReg d IOM_PQCSR 32 1 1) 0 else d
      else
        let x := memRead d a 16 ⟨1, 0, false⟩
        let d := x.2
        match iommuCommand d (x.1.1 % 2 ^ 64) (x.1.1 / 2 ^ 64) with
        | some d => setReg d IOM_CQ 0 32 ((head + 1) % size)
        | none => cqIllegal d) s

end Sys2Proof.Machine
end

