-- ==== Sys2Proof/Machine/Digest.lean ====
section
/-! DEFINITION. The digest engine: slots in register mode and in queue mode (R461 to R468, R288, R289). -/

namespace Sys2Proof.Machine

open Sys2Proof

def updSlot (d : Device) (s : SlotId) (f : Slot → Slot) : Device := { d with slots := d.slots.set s.val (f d.slots[s]) }

/-- A slot with everything cleared (R462); slot 15 belongs to the Warden. -/
def emptySlot (s : SlotId) : Slot := ⟨zeroLanes, 0, 0, none, if s.val = 15 then .warden else .none, false⟩

def clearSlot (d : Device) (s : SlotId) : Device := updSlot d s fun _ => emptySlot s

/-- Whether a slot is assigned to some partition, and to a given one; slot 15 never is (R462). -/
def slotAssigned (d : Device) (s : SlotId) : Bool := s.val != 15 && regF d (DGST_SLOT s.val) 6 1 == 1
def slotOf (d : Device) (s : SlotId) (p : Part) : Bool := slotAssigned d s && regF d (DGST_SLOT s.val) 0 6 == p.val

/-- Permutations are counted (R470). -/
def countPerms (d : Device) (n : Nat) : Device := incReg d DGST_EVT 0 64 n

/-- A write of another requester than the owner is ignored and recorded (R463). -/
def foreignWrite (d : Device) (s : SlotId) : Device :=
  incRegSat (setReg (setReg d DGST_ERR 0 1 1) DGST_ERR 1 4 s.val) DGST_ERR 16 16

/-! ### Register mode (R463 to R465, R468) -/

/-- A write of a slot page: a foreign one and one while BUSY are ignored, and the first one makes the page the owner.
A slot that is not assigned has no requester. -/
def slotWrite (d : Device) (s : SlotId) (f : Device → Device) : Device :=
  if !slotAssigned d s then d
  else if d.slots[s].owner != .none && d.slots[s].owner != .page then foreignWrite d s
  else if d.slots[s].busy then setReg d (DGST_SSTAT s.val) 1 1 1
  else f (updSlot d s fun x => { x with owner := .page })

/-- START: from zero or from the keyed state. -/
def slotStart (d : Device) (s : SlotId) (keyed : Bool) (alg : Nat) : Device :=
  let k := d.slots[s].keyed
  let d := setReg (setReg d (DGST_CMP_A s.val) 0 8 0) (DGST_CMP_B s.val) 0 8 0
  let d := if keyed && k.isNone then setReg d (DGST_SSTAT s.val) 2 1 1 else d
  updSlot d s fun x => { x with
    lanes := if keyed then k.getD zeroLanes else zeroLanes, count := 0, alg := alg }

/-- The first bytes of the expected value. -/
def expBytes (d : Device) (s : SlotId) (n : Nat) : List Byte :=
  (((List.range 16).map fun k => bytesOf (reg d (DGST_EXP s.val k)).toNat 8).flatten).take n

/-- The two comparison flags. -/
def cmpFlags (ok : Bool) : Nat × Nat := if ok then (0xa5, 0x5a) else (0x5a, 0xa5)

/-- COMPARE: `n` bytes, 1 to 128; a greater number is reserved and starts nothing. -/
def slotCompare (d : Device) (s : SlotId) (n : Nat) : Device :=
  if 128 < n then d
  else
    let f := cmpFlags ((laneBytes d.slots[s].lanes).take n == expBytes d s n)
    setReg (setReg d (DGST_CMP_A s.val) 0 8 f.1) (DGST_CMP_B s.val) 0 8 f.2

/-- RELEASE: owner, working state and keyed state are cleared. -/
def slotRelease (d : Device) (s : SlotId) : Device :=
  updSlot d s fun x => { x with lanes := zeroLanes, count := 0, keyed := none, owner := .none, busy := false }

/-- What a write of DGST_SCTL starts; one that sets several of its command bits is ignored. -/
def sctlAct (d : Device) (s : SlotId) (v : Nat) : Device :=
  match fieldN v 0 5 with
  | 0 => d
  | 1 => slotStart d s (fieldN v 5 1 == 1) (fieldN v 6 2)
  | 2 => updSlot d s fun x => { x with busy := true }
  | 4 => updSlot d s fun x => { x with keyed := some x.lanes }
  | 8 => slotCompare d s (fieldN v 8 8 + 1)
  | 16 => slotRelease d s
  | _ => setReg d (DGST_SSTAT s.val) 1 1 1

/-- A write of DGST_SCTL. -/
def writeSctl (d : Device) (s : SlotId) (w : RegAccess) : Device :=
  gateWrite d (DGST_SCTL s.val) w fun d => slotWrite d s fun d => sctlAct d s ((carried w 0 16).getD 0)

/-- Whether a write of DGST_SCTL sets one command bit. -/
def sctlBit (w : RegAccess) (b : Nat) : Bool := fieldN ((carried w 0 16).getD 0) b 1 == 1

/-- DGST_START, DGST_SQUEEZE, DGST_SAVE, DGST_COMPARE and DGST_RELEASE (R463 to R465, R468): writes of DGST_SCTL. -/
def execDgstStart (s : SlotId) (w : RegAccess) (st : State) : Host.Outcome State Fault Refusal :=
  act (fun d => if sctlBit w 0 then writeSctl d s w else d) st

def execDgstSqueeze (s : SlotId) (w : RegAccess) (st : State) : Host.Outcome State Fault Refusal :=
  act (fun d => if sctlBit w 1 then writeSctl d s w else d) st

def execDgstSave (s : SlotId) (w : RegAccess) (st : State) : Host.Outcome State Fault Refusal :=
  act (fun d => if sctlBit w 2 then writeSctl d s w else d) st

def execDgstCompare (s : SlotId) (w : RegAccess) (st : State) : Host.Outcome State Fault Refusal :=
  act (fun d => if sctlBit w 3 then writeSctl d s w else d) st

def execDgstRelease (s : SlotId) (w : RegAccess) (st : State) : Host.Outcome State Fault Refusal :=
  act (fun d => if sctlBit w 4 then writeSctl d s w else d) st

/-- A word is absorbed; the last one of a block starts a permutation. -/
def absorbWord (x : Slot) (v : Dword) : Slot :=
  { x with lanes := xorLane x.lanes x.count v, count := x.count + 1, busy := x.count + 1 == rateBytes x.alg / 8 }

/-- A write of DGST_DATA. -/
def writeDgstData (d : Device) (s : SlotId) (w : RegAccess) : Device :=
  gateWrite d (DGST_DATA s.val) w fun d => slotWrite d s fun d =>
    match carried w 0 64 with
    | some v => updSlot d s fun x => absorbWord x (BitVec.ofNat 64 v)
    | none => d

/-- DGST_DATA_WRITE (R464, R465). -/
def execDgstDataWrite (s : SlotId) (w : RegAccess) (st : State) : Host.Outcome State Fault Refusal :=
  act (fun d => writeDgstData d s w) st

/-- PERMUTATION_COMPLETE (R461, R464). -/
def execPermutationComplete (s : SlotId) (st : State) : Host.Outcome State Fault Refusal :=
  act (whenRun fun d =>
    if d.slots[s].busy then
      countPerms (updSlot d s fun x => { x with
        lanes := keccakF x.lanes, busy := false
        count := if x.count = rateBytes x.alg / 8 then 0 else x.count }) 1
    else d) st

/-- A write of DGST_SLOTs: a change of the assignment clears the slot; slot 15 ignores it (R462, R470). -/
def writeDgstSlot (d : Device) (s : SlotId) (w : RegAccess) : Device :=
  gateWrite d (DGST_SLOT s.val) w fun d =>
    if s.val = 15 then d
    else
      let d' := plainWrite d (DGST_SLOT s.val) w
      if regF d' (DGST_SLOT s.val) 0 7 = regF d (DGST_SLOT s.val) 0 7 then d' else clearSlot d' s

/-- DGST_SLOT_ASSIGN (R462, R470). -/
def execDgstSlotAssign (s : SlotId) (w : RegAccess) (st : State) : Host.Outcome State Fault Refusal :=
  act (fun d => writeDgstSlot d s w) st

/-! ### Queue mode (R288, R289, R463, R466, R467) -/

/-- The slot an entry names. -/
def entSlot (raw : BitVec 512) : SlotId := ⟨entF raw 9 1 % 16, Nat.mod_lt _ (by omega)⟩

/-- A DIGEST entry ends with a status and its comparison flags. -/
def dgstEnd (d : Device) (p : Part) (q : QueueId) (i st : Nat) (f : Nat × Nat) : Device :=
  decideEntry d p q i st [(0x38, 1, f.1), (0x39, 1, f.2)]

/-- An entry reaches the slot it names: 3 where the slot is not the partition's, 0xC where another requester owns it,
else its queues own it. -/
def queueSlot (d : Device) (p : Part) (raw : BitVec 512) : Nat × Device :=
  let s := entSlot raw
  if 15 < entF raw 9 1 || !slotOf d s p then (3, d)
  else if d.slots[s].owner != .none && d.slots[s].owner != .queue then (0xc, foreignWrite d s)
  else (0, updSlot d s fun x => { x with owner := .queue })

/-- `n` bytes of an entry's data: status 0x401 where a read faults, 0xB where a line is poisoned. -/
def dgstRead (d : Device) (p : Part) (a n : Nat) : (Option (List Byte) × Nat) × Device :=
  if n = 0 then ((some [], 0), d)
  else match ioRead d p a n 3 with
    | ((none, _), d) => ((none, 0x401), d)
    | ((some _, true), d) => ((none, 0xb), d)
    | ((some v, false), d) => ((some (bytesOf v n), 0), d)

/-- Runs an entry of a DIGEST queue. -/
def dgstRun (p : Part) (q : QueueId) (i op : Nat) (f : Device → BitVec 512 → Device) (d : Device) : Device :=
  match openEntryOf d p q i 4 op with
  | some a => f d a.raw
  | none => d

/-- Permutations of a message of `n` bytes and an output of `o` bytes. -/
def permsOf (rate n o : Nat) : Nat := n / rate + 1 + (o - 1) / rate

/-- LOAD_KEY: the keyed state is that of the customization and the key. -/
def loadKey (d : Device) (p : Part) (q : QueueId) (i : Nat) (raw : BitVec 512) : Device :=
  let kn := entF raw 0x18 8
  let cn := entF raw 0x28 8
  if !bodyClear raw [(9, 1), (0x10, 8), (0x18, 8), (0x20, 8), (0x28, 8)] || kn = 0 || decide (256 < kn) ||
      decide (256 < cn) then dgstEnd d p q i 3 (0, 0)
  else match queueSlot d p raw with
    | (0, d) =>
      (match dgstRead d p (entF raw 0x20 8) cn with
       | ((none, st), d) => dgstEnd d p q i st (0, 0)
       | ((some c, _), d) =>
         (match dgstRead d p (entF raw 0x10 8) kn with
          | ((none, st), d) => dgstEnd d p q i st (0, 0)
          | ((some k, _), d) =>
            let a := kmacKeyed c k
            let n := (bytePad (encodeString [0, 0, 0, 0] ++ encodeString c) 136 ++
                bytePad (encodeString k) 136).length / 136
            let d := updSlot d (entSlot raw) fun x => { x with lanes := a, count := 0, alg := 3, keyed := some a }
            dgstEnd (countPerms d n) p q i 0 (0, 0)))
    | (st, d) => dgstEnd d p q i st (0, 0)

/-- LOAD_KEY (R288, R463, R466, R467). -/
def execLoadKey (p : Part) (q : QueueId) (i : Nat) (s : State) : Host.Outcome State Fault Refusal :=
  act (whenServed (dgstRun p q i 1 fun d raw => loadKey d p q i raw)) s

/-- Whether the body of a HASH breaks R288. -/
def hashBad (raw : BitVec 512) : Bool :=
  let alg := entF raw 8 1
  let n := entF raw 0x28 4
  !bodyClear raw [(8, 1), (9, 1), (0xa, 1), (0x10, 8), (0x18, 8), (0x20, 8), (0x28, 4), (0x30, 8), (0x38, 1),
      (0x39, 1)] ||
  decide (3 < alg) || (alg != 3 && entF raw 9 1 != 0) || decide (1 < entF raw 0xa 1) ||
  (match alg with
   | 0 => n != 32
   | 1 => n != 64
   | _ => n == 0 || decide (4096 < n))

/-- The starting state of a HASH: the keyed state of its slot for KMAC256, else zero. -/
def hashFrom (d : Device) (p : Part) (raw : BitVec 512) : (Option Lanes × Nat) × Device :=
  if entF raw 8 1 != 3 then ((some zeroLanes, 0), d)
  else match queueSlot d p raw with
    | (0, d) => (match d.slots[entSlot raw].keyed with
        | some k => ((some k, 0), d)
        | none => ((none, 0x402), d))
    | (st, d) => ((none, st), d)

/-- The first page of a range that a write would fault on. -/
def badPage (d : Device) (p : Part) (va n : Nat) : Option Nat :=
  ((List.range ((va + n - 1) / 4096 - va / 4096 + 1)).map fun k => max va ((va / 4096 + k) * 4096)).find? fun a =>
    !pagesOk d p a 1 true

/-- Writes `n` bytes, or none of them where a page faults; the fault is recorded. -/
def writeAll (d : Device) (p : Part) (va n v : Nat) : Bool × Device :=
  match badPage d p va n with
  | some a => (false, (xlatMem d p a true).2)
  | none => ioWrite d p va n v

/-- A digest is compared and written; a failed entry writes nothing. -/
def hashEnd (d : Device) (p : Part) (q : QueueId) (i : Nat) (raw : BitVec 512) (dig : List Byte) : Device :=
  let n := entF raw 0x28 4
  let out := entF raw 0x20 8
  let cmp := entF raw 0xa 1 == 1
  match (if cmp then dgstRead d p (entF raw 0x30 8) n else ((some dig, 0), d)) with
  | ((none, st), d) => dgstEnd d p q i st (0, 0)
  | ((some e, _), d) =>
    if e != dig then dgstEnd d p q i 7 (cmpFlags false)
    else
      let f := if cmp then cmpFlags true else (0, 0)
      if out = 0 then dgstEnd d p q i 0 f
      else match writeAll d p out n (ofBytes dig) with
        | (false, d) => dgstEnd d p q i 0x401 (0, 0)
        | (true, d) => dgstEnd d p q i 0 f

/-- The state of a KMAC256 sponge after its output has been squeezed. -/
def kmacState (a : Lanes) (m : List Byte) (n : Nat) : Lanes :=
  let l := padded 136 (m ++ rightEncode (8 * n)) 0x04
  (List.range ((n - 1) / 136)).foldl (fun a _ => keccakF a) (absorb a 136 l (l.length / 136))

/-- HASH: the message is hashed from the starting state. -/
def hashRun (d : Device) (p : Part) (q : QueueId) (i : Nat) (raw : BitVec 512) : Device :=
  if hashBad raw then dgstEnd d p q i 3 (0, 0)
  else match hashFrom d p raw with
    | ((none, st), d) => dgstEnd d p q i st (0, 0)
    | ((some a, _), d) =>
      match dgstRead d p (entF raw 0x10 8) (entF raw 0x18 8) with
      | ((none, st), d) => dgstEnd d p q i st (0, 0)
      | ((some m, _), d) =>
        let n := entF raw 0x28 4
        let alg := entF raw 8 1
        let msg := if alg = 3 then m.length + (rightEncode (8 * n)).length else m.length
        let d := if alg = 3 then
            updSlot d (entSlot raw) fun x => { x with lanes := kmacState a m n, count := 0, alg := 3 } else d
        hashEnd (countPerms d (permsOf (rateBytes alg) msg n)) p q i raw (digestOf alg a m n)

/-- HASH (R288, R289, R463, R466, R467). -/
def execHash (p : Part) (q : QueueId) (i : Nat) (s : State) : Host.Outcome State Fault Refusal :=
  act (whenServed (dgstRun p q i 2 fun d raw => hashRun d p q i raw)) s

/-- RELEASE (R288, R463). -/
def execRelease (p : Part) (q : QueueId) (i : Nat) (s : State) : Host.Outcome State Fault Refusal :=
  act (whenServed (dgstRun p q i 3 fun d raw =>
    if !bodyClear raw [(9, 1)] then dgstEnd d p q i 3 (0, 0)
    else match queueSlot d p raw with
      | (0, d) => dgstEnd (slotRelease d (entSlot raw)) p q i 0 (0, 0)
      | (st, d) => dgstEnd d p q i st (0, 0))) s

end Sys2Proof.Machine
end

