-- ==== Sys2Proof/Machine/Ed448.lean ====
section
/-! DEFINITION. Ed448 and Ed448ph of RFC 8032, SHAKE256 with SHA3-512 beside them, and CRC-32C: what R499 to R513
name for images, settings and attestation. -/

namespace Sys2Proof.Machine

open Sys2Proof

/-- SHAKE256 and SHA3-512 of a message (R461). -/
def shake256 (l : List Byte) (n : Nat) : List Byte := digestOf 2 zeroLanes l n
def sha3x512 (l : List Byte) : List Byte := digestOf 1 zeroLanes l 64

/-- The bytes of an ASCII string. -/
def asciiBytes (s : String) : List Byte := s.toList.map fun c => BitVec.ofNat 8 c.toNat

/-! ### The curve -/

/-- The field's prime, the curve's constant d, and the order of the base point. -/
def edP : Nat := 2 ^ 448 - 2 ^ 224 - 1
def edD : Nat := edP - 39081
def edL : Nat := 2 ^ 446 - 13818066809895115352007386748515426880336692474882178609894547503885

/-- A power in the field, over `k` bits of the exponent. -/
def powMod (b e : Nat) : Nat → Nat
  | 0 => 1
  | k + 1 =>
    let h := powMod (b * b % edP) (e / 2) k
    if e % 2 = 1 then b * h % edP else h

/-- A point in projective coordinates. -/
structure EdPoint where
  x : Nat
  y : Nat
  z : Nat
  deriving DecidableEq, Repr

/-- The neutral element and the base point. -/
def edZero : EdPoint := ⟨0, 1, 1⟩
def edBase : EdPoint :=
  ⟨224580040295924300187604334099896036246789641632564134246125461686950415467406032909029192869357953282578032075146446173674602635247710,
   298819210078481492676017930443930673437544040154080242095928241372331506189835876003536878655418784733982303233503462500531545062832660, 1⟩

/-- A difference in the field. -/
def edSub (a b : Nat) : Nat := (a + edP - b % edP) % edP

/-- The sum of two points. -/
def edAdd (p q : EdPoint) : EdPoint :=
  let a := p.z * q.z % edP
  let b := a * a % edP
  let c := p.x * q.x % edP
  let d := p.y * q.y % edP
  let e := edD * (c * d % edP) % edP
  let f := edSub b e
  let g := (b + e) % edP
  let h := (p.x + p.y) * (q.x + q.y) % edP
  ⟨a * f % edP * edSub h (c + d) % edP, a * g % edP * edSub d c % edP, f * g % edP⟩

/-- A multiple of a point, over `k` bits of the factor. -/
def edMul (p : EdPoint) (n : Nat) : Nat → EdPoint
  | 0 => edZero
  | k + 1 =>
    let h := edMul (edAdd p p) (n / 2) k
    if n % 2 = 1 then edAdd p h else h

/-- Whether two points are equal. -/
def edEq (p q : EdPoint) : Bool :=
  p.x * q.z % edP == q.x * p.z % edP && p.y * q.z % edP == q.y * p.z % edP

/-- A point as 57 bytes. -/
def edEncode (p : EdPoint) : List Byte :=
  let i := powMod p.z (edP - 2) 448
  bytesOf (p.y * i % edP + p.x * i % edP % 2 * 2 ^ 455) 57

/-- The point 57 bytes encode, if they encode one. -/
def edDecode (l : List Byte) : Option EdPoint :=
  let v := ofBytes l
  let y := v % 2 ^ 455
  let s := v / 2 ^ 455
  if edP ≤ y then none
  else
    let u := edSub (y * y % edP) 1
    let w := edSub (edD * (y * y % edP) % edP) 1
    let u3 := u * u % edP * u % edP
    let x := u3 * w % edP * powMod (u3 * (u * u % edP) % edP * (w * w % edP * w % edP) % edP) ((edP - 3) / 4) 448 % edP
    if w * (x * x % edP) % edP != u then none
    else if x = 0 && s == 1 then none
    else some ⟨if x % 2 = s then x else edP - x, y, 1⟩

/-! ### Signatures -/

/-- The domain prefix of a flag and a context. -/
def edDom (ph : Bool) (ctx : List Byte) : List Byte :=
  asciiBytes "SigEd448" ++ [if ph then 1 else 0, BitVec.ofNat 8 ctx.length] ++ ctx

/-- What is signed: the message, or its prehash. -/
def edMsg (ph : Bool) (m : List Byte) : List Byte := if ph then shake256 m 64 else m

/-- A hash to a scalar. -/
def edHash (l : List Byte) : Nat := ofBytes (shake256 l 114) % edL

/-- Whether a signature of 114 bytes verifies under a public key. -/
def edVerify (ph : Bool) (ctx key m sig : List Byte) : Bool :=
  let s := ofBytes (sig.drop 57)
  match edDecode key, edDecode (sig.take 57) with
  | some a, some r =>
    let k := edHash (edDom ph ctx ++ sig.take 57 ++ key ++ edMsg ph m)
    decide (s < edL) && edEq (edMul edBase s 446) (edAdd r (edMul a k 446))
  | _, _ => false

/-- The secret scalar and the prefix of a seed of 57 bytes: bits 0 and 1 cleared, bit 447 set, bits above it cleared. -/
def edSecret (seed : List Byte) : Nat × List Byte :=
  let h := shake256 seed 114
  (ofBytes (h.take 56) % 2 ^ 447 / 4 * 4 + 2 ^ 447, h.drop 57)

/-- The public key of a seed. -/
def edPublic (seed : List Byte) : List Byte := edEncode (edMul edBase (edSecret seed).1 448)

/-- A signature. -/
def edSign (ph : Bool) (ctx seed m : List Byte) : List Byte :=
  let k := edSecret seed
  let r := edHash (edDom ph ctx ++ k.2 ++ edMsg ph m)
  let rb := edEncode (edMul edBase r 446)
  let h := edHash (edDom ph ctx ++ rb ++ edPublic seed ++ edMsg ph m)
  rb ++ bytesOf ((r + h * k.1) % edL) 57

/-! ### CRC-32C -/

/-- Eight steps of the reflected CRC with polynomial 0x1EDC6F41. -/
def crcStep (c : Nat) : Nat → Nat
  | 0 => c
  | n + 1 => crcStep (if c % 2 = 1 then Nat.xor (c / 2) 0x82f63b78 else c / 2) n

/-- CRC-32C of bytes. -/
def crc32c (l : List Byte) : Nat :=
  Nat.xor (l.foldl (fun c b => crcStep (Nat.xor c b.toNat) 8) 0xffffffff) 0xffffffff

end Sys2Proof.Machine
end

