-- ==== Sys2Proof/Machine/Warden.lean ====
section
/-! DEFINITION. The Warden's mailbox: command and response areas, doorbell, bulk data, long commands and events, and
the commands on namespaces and results (R417, R418, R432, R490 to R498). -/

namespace Sys2Proof.Machine

open Sys2Proof

def updWarden (d : Device) (f : Warden → Warden) : Device := { d with warden := f d.warden }

/-! ### The command set (R496, R497) -/

/-- A row of the command table: whether it is long, whether it is accepted over I3C, its parameter bytes, and the
parameters as offset and length. -/
structure CmdRow where
  long : Bool
  i3c : Bool
  plen : Nat
  fields : List (Nat × Nat)
  deriving DecidableEq, Repr

/-- The commands by opcode; REC_LOAD's length is that of its data too. -/
def cmdRow (op : Nat) : Option CmdRow :=
  match op with
  | 0x100 => some ⟨false, false, 0, []⟩
  | 0x101 => some ⟨true, false, 1, [(0, 1)]⟩
  | 0x102 => some ⟨true, false, 1, [(0, 1)]⟩
  | 0x103 => some ⟨true, false, 1, [(0, 1)]⟩
  | 0x104 => some ⟨false, false, 1, [(0, 1)]⟩
  | 0x105 => some ⟨true, false, 0x28, [(0, 1), (1, 1), (8, 32)]⟩
  | 0x106 => some ⟨true, false, 0x28, [(8, 32)]⟩
  | 0x107 => some ⟨false, false, 0x1c, [(0, 1), (8, 8), (0x10, 8), (0x18, 4)]⟩
  | 0x200 => some ⟨false, true, 0, []⟩
  | 0x201 => some ⟨true, false, 5, [(0, 4), (4, 1)]⟩
  | 0x202 => some ⟨true, false, 0, []⟩
  | 0x203 => some ⟨false, false, 2, [(0, 2)]⟩
  | 0x204 => some ⟨true, false, 0, []⟩
  | 0x300 => some ⟨false, false, 2, [(0, 1), (1, 1)]⟩
  | 0x301 => some ⟨true, false, 1, [(0, 1)]⟩
  | 0x302 => some ⟨false, true, 1, [(0, 1)]⟩
  | 0x303 => some ⟨false, false, 2, [(0, 1), (1, 1)]⟩
  | 0x400 => some ⟨false, false, 0x12, [(0, 16), (0x10, 2)]⟩
  | 0x401 => some ⟨false, true, 0, []⟩
  | 0x402 => some ⟨false, false, 8, [(0, 2), (2, 1), (4, 2), (6, 1), (7, 1)]⟩
  | 0x500 => some ⟨false, false, 0x28, [(0, 0x28)]⟩
  | 0x501 => some ⟨true, false, 0xc, [(0, 8), (8, 4)]⟩
  | 0x502 => some ⟨false, false, 0, []⟩
  | 0x600 => some ⟨false, true, 0, []⟩
  | 0x601 => some ⟨true, false, 0, []⟩
  | 0x700 => some ⟨true, false, 0, []⟩
  | 0x701 => some ⟨true, false, 0, []⟩
  | 0x800 => some ⟨false, false, 0x12, [(0, 1), (2, 2), (8, 8), (0x10, 2)]⟩
  | 0x900 => some ⟨false, false, 0, []⟩
  | 0x901 => some ⟨false, false, 0x21, [(0, 0x21)]⟩
  | 0xa00 => some ⟨false, true, 0, []⟩
  | 0xa01 => some ⟨false, true, 8, [(0, 4), (4, 4), (8, 240)]⟩
  | 0xa02 => some ⟨true, true, 0, []⟩
  | 0xb00 => some ⟨false, true, 2, [(0, 2)]⟩
  | _ => none

/-- Recovery commands. -/
def recoveryOp (op : Nat) : Bool := [0xa00, 0xa01, 0xa02].contains op

/-! ### The areas (R490) -/

/-- The 256 bytes of the command area as a number, and its fields. -/
def cmdArea (d : Device) : Nat := (List.range 32).foldl (fun n k => n + (reg d (WRD_CMD k)).toNat * 2 ^ (64 * k)) 0
def cmdOp (d : Device) : Nat := fieldN (cmdArea d) 0 16
def cmdTag (d : Device) : Nat := fieldN (cmdArea d) 16 16
def cmdParams (d : Device) : Nat := cmdArea d / 2 ^ 64

/-- `n` bytes of parameters at an offset. -/
def paramF (params off n : Nat) : Nat := fieldN params (8 * off) (8 * n)
def param (d : Device) (off n : Nat) : Nat := paramF (cmdParams d) off n

/-- The Warden writes the response area, with `n` bytes of result, and is no longer busy. -/
def respond (d : Device) (st n result : Nat) : Device :=
  let v := cmdOp d + cmdTag d * 2 ^ 16 + st * 2 ^ 32 + n * 2 ^ 64 + result % 2 ^ (8 * n) * 2 ^ 96
  let d := (List.range 32).foldl (fun d k =>
    updRegs d fun r => regPut r (WRD_RSP k) (BitVec.ofNat 64 (v / 2 ^ (64 * k)))) d
  setReg (setReg d WRD_STAT 0 1 0) WRD_STAT 1 1 1

/-- A response that carries a status alone. -/
def reply (d : Device) (st : Nat) : Device := respond d st 0 0

/-! ### Long commands and events (R492, R495) -/

/-- Long commands that count as pending. -/
def pendingCmds (d : Device) : Nat := d.warden.longs.length + (d.warden.ended.length - 8)

/-- A long command is answered PENDING, with the bulk data it has read. -/
def goLongWith (d : Device) (data : Nat) : Device :=
  let c : LongCmd := ⟨cmdTag d, cmdOp d, cmdParams d, regF d WRD_DMA_ADDR 6 46 * 64, regF d WRD_DMA_LEN 0 32, data⟩
  reply (updWarden d fun w => { w with longs := w.longs ++ [c] }) 0x620

/-- A long command without bulk data is answered PENDING. -/
def goLong (d : Device) : Device := goLongWith d 0

/-- The MSI of a new entry of the event FIFO (R495, R280). -/
def eventMsi (d : Device) : Device :=
  if regF d WRD_EVENT_MSI 32 1 = 0 then d
  else match xlat d 0 (regF d WRD_EVENT_MSI_ADDR 2 62 * 4) true with
    | (some pa, d) => msiTo d pa (BitVec.ofNat 32 (regF d WRD_EVENT_MSI 0 32)) 0xffff none
    | (none, d) => d

/-- An event is posted: it enters the FIFO, or waits. -/
def postEvent (d : Device) (e : EndedCmd) : Device :=
  let d := updWarden d fun w => { w with ended := w.ended ++ [e] }
  if d.warden.ended.length ≤ 8 then eventMsi d else d

/-- The long command at index `i` ends with a status and a result. -/
def endLong (d : Device) (i st result : Nat) : Device :=
  match d.warden.longs[i]? with
  | none => d
  | some c =>
    postEvent (updWarden d fun w => { w with longs := w.longs.take i ++ w.longs.drop (i + 1) })
      ⟨c.tag, c.op, st, result⟩

/-- A write of WRD_EVENT_CTL: POP removes the oldest event and lets one waiting event in. -/
def writeEventCtl (d : Device) (w : RegAccess) : Device :=
  gateWrite d WRD_EVENT_CTL w fun d =>
    if !strobe w 0 then d
    else
      let d' := updWarden d fun x => { x with ended := x.ended.tail }
      if 8 < d.warden.ended.length then eventMsi d' else d'

/-- EVENT_POP (R495). -/
def execEventPop (w : RegAccess) (s : State) : Host.Outcome State Fault Refusal := act (fun d => writeEventCtl d w) s

/-! ### The doorbell (R490 to R494, R509) -/

/-- Whether a firmware activation's copy phase or pause is under way. -/
def activating (d : Device) : Bool := d.warden.longs.any fun c => c.op == 0x202

/-- Whether the mailbox answers as the ROM in recovery. -/
def inRecovery (d : Device) : Bool := regF d WRD_STAT 2 2 == 2

/-- PLEN and the reserved parameter bytes are as the row implies. -/
def paramsOk (d : Device) (r : CmdRow) : Bool :=
  let p := cmdParams d
  let plen := if cmdOp d = 0xa01 then 8 + paramF p 4 4 else r.plen
  fieldN (cmdArea d) 32 32 == plen && (List.range 248).all fun k =>
    plen ≤ k || paramF p k 1 == 0 || r.fields.any fun f => decide (f.1 ≤ k) && decide (k < f.1 + f.2)

/-- The status with which a command is turned away at the doorbell; 0 where it is executed. -/
def boxStatus (d : Device) (i3c : Bool) : Nat :=
  let op := cmdOp d
  match cmdRow op with
  | none => 0x622
  | some r =>
    if inRecovery d then
      if recoveryOp op || op == 0x200 then (if !paramsOk d r then 3 else if r.long &&
          decide (8 ≤ pendingCmds d) then 0x621 else 0)
      else 0x622
    else if recoveryOp op then 0x622
    else if i3c && !r.i3c then 0x613
    else if !paramsOk d r then 3
    else if r.long && activating d then 0x613
    else if r.long && decide (8 ≤ pendingCmds d) then 0x621
    else 0

/-- A doorbell arrives: ignored while a command executes or a pause is in force, else accepted. -/
def ring (d : Device) (i3c : Bool) : Device :=
  if regF d WRD_STAT 0 1 = 1 || regF d WRD_STAT 2 2 = 1 then
    incRegSat (setReg d WRD_ERR 0 1 1) WRD_ERR 16 16
  else
    let d := setReg (setReg (setReg d WRD_STAT 0 1 1) WRD_STAT 1 1 0) WRD_STAT 5 1 (if i3c then 1 else 0)
    let st := boxStatus d i3c
    if st = 0 then d else reply d st

/-- A write of WRD_DOORBELL. -/
def writeDoorbell (d : Device) (w : RegAccess) : Device :=
  gateWrite d WRD_DOORBELL w fun d => if strobe w 0 then ring d (w.agent == .bmc) else d

/-- MAILBOX_DOORBELL (R490 to R494, R497, R509). -/
def execMailboxDoorbell (w : RegAccess) (s : State) : Host.Outcome State Fault Refusal :=
  act (fun d => writeDoorbell d w) s

/-- A write of the command area or of a bulk-data register: ignored while a command executes (R491). -/
def writeBox (d : Device) (x : Nat) (w : RegAccess) : Device :=
  gateWrite d x w fun d =>
    if regF d WRD_STAT 0 1 = 1 || regF d WRD_STAT 2 2 = 1 then setReg d WRD_ERR 1 1 1 else plainWrite d x w

/-- Whether the command in the area is being executed and has an opcode. -/
def boxLive (d : Device) (op : Nat) : Bool := ready d && regF d WRD_STAT 0 1 == 1 && cmdOp d == op

/-- A mailbox command runs. -/
def boxRun (op : Nat) (f : Device → Device) (s : State) : Host.Outcome State Fault Refusal :=
  act (fun d => if boxLive d op then f d else d) s

/-! ### Bulk data (R494) -/

/-- Whether `n` bytes of a bulk buffer can be moved: status 0x618 where the buffer is too small, 3 where it leaves
DRAM. -/
def bulkStatus (d : Device) (addr len n : Nat) : Nat :=
  if len < n then 0x618 else if n != 0 && !(inDram d addr && inDram d (addr + n - 1)) then 3 else 0

/-- The bulk buffer of the command that executes. -/
def dmaAddr (d : Device) : Nat := regF d WRD_DMA_ADDR 6 46 * 64
def dmaLen (d : Device) : Nat := regF d WRD_DMA_LEN 0 32

/-- Runs a command that reads `n` bytes of bulk data. -/
def withBulk (d : Device) (n : Nat) (f : Device → Nat → Device) : Device :=
  let st := bulkStatus d (dmaAddr d) (dmaLen d) n
  if st != 0 then reply d st else f d (cohRead d (dmaAddr d) n).1

/-- Writes bytes into a bulk buffer. -/
def bulkWrite (d : Device) (addr : Nat) (l : List Byte) : Device := cohWrite d addr l.length (ofBytes l) 0 1

/-- Ends a long command that writes bytes into its bulk buffer; the result is their number. -/
def endWithBytes (d : Device) (i : Nat) (c : LongCmd) (l : List Byte) : Device :=
  let st := bulkStatus d c.dmaAddr c.dmaLen l.length
  if st != 0 then endLong d i st 0 else endLong (bulkWrite d c.dmaAddr l) i 0 l.length

/-! ### RESULT_GET -/

/-- RESULT_GET (R495, R496): the result of the oldest ended command with the tag. -/
def execResultGet (s : State) : Host.Outcome State Fault Refusal :=
  boxRun 0xb00 (fun d =>
    match d.warden.ended.find? fun e => e.tag == param d 0 2 with
    | some e => respond d 0 244 e.result
    | none => reply d 2) s

/-! ### Namespaces (R416 to R418, R432) -/

/-- Whether a partition exists. -/
def partExists (d : Device) (p : Nat) : Bool := (sfind d.parts p).isSome

/-- Sum of the sizes of the namespaces attached to a partition. -/
def attachedGib (d : Device) (p : Nat) : Nat :=
  d.ledger.nss.foldl (fun n x => match x.2.owner with | some o => if o.val = p then n + x.2.size else n | none => n) 0

/-- LEDGER_GIB of a partition (R472). -/
def ledgerQuota (d : Device) (p : Nat) : Nat := partF d ⟨p % 64, Nat.mod_lt _ (by omega)⟩ 0x56 2

/-- Space that no area but the pager region holds. -/
def freeGib (d : Device) : Nat := 95 - nsGib d - winGib d

/-- The lowest free NSID. -/
def freeNsid (d : Device) : Option Nat := (List.range 65).find? fun k => k != 0 && (sfind d.ledger.nss k).isNone

/-- NS_CREATE (R417). -/
def execNsCreate (s : State) : Host.Outcome State Fault Refusal :=
  boxRun 0x300 (fun d =>
    let p := param d 0 1
    let n := param d 1 1
    if 63 < p || n = 0 || 95 < n then reply d 3
    else if !partExists d p then reply d 0x611
    else match freeNsid d with
      | none => reply d 0x628
      | some k =>
        if freeGib d < n || ledgerQuota d p < attachedGib d p + n then reply d 0x627
        else respond (updLedger d fun l => { l with
          nss := sput l.nss k ⟨n, some ⟨p % 64, Nat.mod_lt _ (by omega)⟩, p⟩ }) 0 1 k) s

/-- NS_DELETE (R417). -/
def execNsDelete (s : State) : Host.Outcome State Fault Refusal :=
  boxRun 0x301 (fun d =>
    let k := param d 0 1
    if k = 0 || 64 < k then reply d 3 else if (sfind d.ledger.nss k).isNone then reply d 2 else goLong d) s

/-- Every block of a namespace and the namespace itself go. -/
def dropNs (d : Device) (k : Nat) : Device :=
  updLedger d fun l => { l with
    nss := sdel l.nss k
    media := l.media.filter fun m => m.1 / 2 ^ 40 != k
    lost := l.lost.filter fun m => m / 2 ^ 40 != k
    staged := l.staged.filter fun s => s.key / 2 ^ 40 != k }

/-- Whether a command that names a namespace is accepted and not completed. -/
def nsBusy (d : Device) (k : Nat) : Bool :=
  (List.finRange 64).any fun p => (ldgEntries d p).any fun a => entOp a.2.raw != 6 && ldgNsid a.2.raw == k

/-- NS_DELETE ends once the namespace is idle; one that has gone meanwhile is not found. -/
def nsDeleteEnd (d : Device) (i : Nat) (c : LongCmd) : Device :=
  let k := paramF c.params 0 1
  if (sfind d.ledger.nss k).isNone then endLong d i 2 0
  else if nsBusy d k then d
  else endLong (dropNs d k) i 0 0

/-- NS_ATTACH (R418). -/
def execNsAttach (s : State) : Host.Outcome State Fault Refusal :=
  boxRun 0x303 (fun d =>
    let k := param d 0 1
    let p := param d 1 1
    match sfind d.ledger.nss k with
    | none => reply d 2
    | some n =>
      if !partExists d p then reply d 0x611
      else if n.owner.isSome then reply d 0x613
      else if ledgerQuota d p < attachedGib d p + n.size then reply d 0x627
      else reply (updLedger d fun l => { l with
        nss := sput l.nss k ⟨n.size, some ⟨p % 64, Nat.mod_lt _ (by omega)⟩, p⟩ }) 0) s

/-- LDG_SELFTEST (R432): OP as in LDG_ST_CTL. -/
def execLdgSelftest (s : State) : Host.Outcome State Fault Refusal :=
  boxRun 0x302 (fun d =>
    match param d 0 1 with
    | 0 => reply d 0
    | 1 => reply (startTest d 0) 0
    | 2 => reply (startTest d 1) 0
    | 3 => reply (endTest d 3 0) 0
    | _ => reply d 3) s

end Sys2Proof.Machine
end

