-- ==== Sys2Proof/Machine/Partition.lean ====
section
/-! DEFINITION. Partitions: creation, destruction, engines, freeze and resume, the granule log, save and restore, and
the report of GET_PARTITION (R471 to R489, R282, R283). -/

namespace Sys2Proof.Machine

open Sys2Proof

/-- A partition number of a command. -/
def partNo (n : Nat) : Part := ⟨n % 64, Nat.mod_lt _ (by omega)⟩

/-! ### Resource descriptors (R472, R473) -/

/-- Field of `n` bytes at byte `b` of a descriptor. -/
def rdF (v b n : Nat) : Nat := fieldN v (8 * b) (8 * n)

/-- Whether a descriptor breaks R472. -/
def rdBad (v : Nat) : Bool :=
  rdF v 0 2 != 0x5052 || rdF v 2 1 != 1 || rdF v 3 1 == 0 || decide (63 < rdF v 3 1) || rdF v 4 4 != 0 ||
  decide (0x1000 ≤ rdF v 0x48 2) || rdF v 0x4a 1 == 0 || rdF v 0x4b 1 == 0 || decide (0x8000 ≤ rdF v 0x4c 2) ||
  decide (16383 < rdF v 0x4e 2) || rdF v 0x50 4 == 0 || decide (262144 < rdF v 0x50 4) ||
  decide (95 < rdF v 0x56 2) || rdF v 0x60 32 != 0

/-- The engines, banks and slots that a descriptor names. -/
def rdEngines (v : Nat) : List Eng := (List.finRange 256).filter fun e => (rdF v 8 32).testBit e.val
def rdBanks (v : Nat) : List Bank := (List.finRange 256).filter fun b => (rdF v 0x28 32).testBit b.val
def rdSlots (v : Nat) : List SlotId := (List.finRange 15).filterMap fun s =>
  if (rdF v 0x4c 2).testBit s.val then some ⟨s.val, by omega⟩ else none

/-- Free engines, banks and slots (R471). -/
def engInPool (d : Device) (e : Eng) : Bool := d.engines[e].owner.isNone && d.engines[e].run != .retired
def bankInPool (d : Device) (b : Bank) : Bool :=
  regF d (CAM_CFG (b.val / 4) (b.val % 4)) 22 1 == 0 && !d.banks[b].retired
def slotInPool (d : Device) (s : SlotId) : Bool := regF d (DGST_SLOT s.val) 6 1 == 0

/-- Whether a descriptor's resources can be given to a new partition. -/
def rdAvailable (d : Device) (v : Nat) : Bool :=
  (rdEngines v).all (engInPool d) && (rdBanks v).all (bankInPool d) && (rdSlots v).all (slotInPool d) &&
  decide (d.parts.foldl (fun n x => n + rdF x.2.desc.toNat 0x54 2) (rdF v 0x54 2) ≤ 65536) &&
  decide (d.parts.foldl (fun n x => n + rdF x.2.desc.toNat 0x4e 2 + 1) (rdF v 0x4e 2 + 1) ≤ 16384)

/-- A new partition of a descriptor. -/
def newPart (v : Nat) : Partition :=
  { desc := BitVec.ofNat 1024 v, state := .running, freezeAt := none, freezeBeat := 0, resumeAt := none, needs := [],
    places := [], served := 0, logAddr := 0, logBase := 0, logGranules := 0, restored := false, destroying := false }

/-- A bank's owner in a value of CAM_CFGk. -/
def cfgOwned (v : Dword) (p : Part) (own : Nat) : Dword := setField (setField v 16 6 p.val) 22 1 own

/-- The ADMIN registers take their reset values at the creation of a partition (R291). -/
def freshAdmin (d : Device) (p : Part) : Device :=
  let d := setReg (setReg (setReg d (PRT_ADMIN_BASE p.val) 0 64 0) (PRT_ADMIN_CFG p.val) 0 64 0x400)
    (PRT_ADMIN_MSI_ADDR p.val) 0 64 0
  setReg d (PRT_ADMIN_MOD p.val) 0 64 (2 ^ 32 + 2 ^ 48)

/-- The settings of R474. -/
def applyRd (d : Device) (p : Part) (v : Nat) : Device :=
  let d := (rdBanks v).foldl (fun d b => assignCam d b (cfgOwned (reg d (CAM_CFG (b.val / 4) (b.val % 4))) p 1) true) d
  let d := (List.range 64).foldl (fun d t => setReg d (GAL_WAYMASK t p.val) 0 12 (rdF v 0x48 2)) d
  let d := (rdSlots v).foldl (fun d s =>
    clearSlot (setReg (setReg d (DGST_SLOT s.val) 0 6 p.val) (DGST_SLOT s.val) 6 1 1) s) d
  let d := updPager d fun g => { g with quota := sput g.quota p.val (BitVec.ofNat 64 (rdF v 0x58 8)) }
  let d := (rdEngines v).foldl (fun d e => updEng d e fun x => { x with owner := some p }) d
  let d := setReg (freshAdmin d p) (PRT_RAS p.val) 0 32 0
  let q : Queue := { newQueue 0 with type := 0, enabled := false }
  syncAdmin { d with parts := sput d.parts p.val (newPart v), queues := sput d.queues (qKey p 0) q } p

/-- The status with which a descriptor is turned away; 0 where it is not. -/
def rdStatus (d : Device) (v : Nat) : Nat :=
  if rdBad v then 3 else if partExists d (rdF v 3 1) then 0x610 else if !rdAvailable d v then 0x612 else 0

/-- PART_CREATE (R472 to R474). -/
def execPartCreate (s : State) : Host.Outcome State Fault Refusal :=
  boxRun 0x100 (fun d => withBulk d 128 fun d v =>
    let st := rdStatus d v
    if st != 0 then reply d st else reply (applyRd d (partNo (rdF v 3 1)) v) 0) s

/-! ### PART_DESTROY (R478) -/

/-- Queues of a partition. -/
def partQueues (d : Device) (p : Part) : List (QueueId × Queue) :=
  (d.queues.filter fun x => x.1 / 16384 == p.val).map fun x => (⟨x.1 % 16384, Nat.mod_lt _ (by omega)⟩, x.2)

/-- The status of a command that names a partition which must exist and not be on its way out; 0 where it does. -/
def partStatus (d : Device) (p : Nat) : Nat :=
  if 63 < p then 3
  else match sfind d.parts p with
    | some x => if x.destroying then 0x613 else 0
    | none => 0x611

/-- PART_DESTROY is accepted: every queue is aborted and every instance stopped. -/
def destroyStart (d : Device) (p : Part) : Device :=
  let d := updPart d p fun x => { x with destroying := true, freezeAt := none, resumeAt := none }
  (partQueues d p).foldl (fun d q => abortQueue d p q.1) d

/-- PART_DESTROY (R478); partition 0 is the manager's. -/
def execPartDestroy (s : State) : Host.Outcome State Fault Refusal :=
  boxRun 0x101 (served fun d =>
    let p := param d 0 1
    let st := if p = 0 then 3 else partStatus d p
    if st != 0 then reply d st else goLong (destroyStart d (partNo p))) s

/-- The handles of a partition's segments. -/
def partHandles (d : Device) (p : Part) : List Nat :=
  (d.pager.segs.filter fun s => s.2.part == p).map fun s => handleOf p.val s.2.gen (s.1 % 2 ^ 20)

/-- Everything of a partition goes: segments, ranges, attached namespaces, banks, slots, engines, queues, flows. -/
def destroyPart (d : Device) (p : Part) : Device :=
  let v := partDesc d p
  let d := (partHandles d p).foldl releaseSeg d
  let d := (d.pager.ranges.filter fun r => r.part == p).foldl (fun d r => dropRange d p r.iova) d
  let d := settleReclaim (updPager d fun g => { g with
    quota := sdel g.quota p.val, saves := sdel g.saves p.val, wants := g.wants.filter fun w => w.part != p,
    active := g.active.filter (· != p.val) })
  let d := (d.ledger.nss.filter fun n => n.2.owner == some p).foldl (fun d n => dropNs d n.1) d
  let d := ((List.finRange 256).filter fun b => bankOf d b.val p.val).foldl (fun d b =>
    setCamCfg d b (cfgOwned (reg d (CAM_CFG (b.val / 4) (b.val % 4))) 0 0) true) d
  let d := (rdSlots v).foldl (fun d s =>
    clearSlot (setReg (setReg d (DGST_SLOT s.val) 0 6 0) (DGST_SLOT s.val) 6 1 0) s) d
  let d := allEngines d fun _ x => if x.owner = some p then { x with owner := none } else x
  let d := updSched d fun s => { s with
    insts := s.insts.filter fun x => x.2.part != p
    threads := s.threads.filter fun x => x.2.part != p
    flows := s.flows.filter fun x => x.1 / 65536 != p.val }
  { d with parts := sdel d.parts p.val, queues := d.queues.filter fun x => x.1 / 16384 != p.val }

/-- PART_DESTROY ends once every entry has completed, but for completions that cannot be written (log entry 118), and
nothing uses a segment. -/
def destroyEnd (d : Device) (i : Nat) (c : LongCmd) : Device :=
  let p := partNo (paramF c.params 0 1)
  if !((partQueues d p).all fun q => q.2.entries.all fun a => q.2.kept.contains a.index) ||
      !((partHandles d p).all (movable d)) then d
  else endLong (destroyPart d p) i 0 0

/-! ### PART_ENGINES (R475) -/

/-- A descriptor in force with a new set of engines. -/
def withEngines (v m : Nat) : Nat := v - rdF v 8 32 * 2 ^ 64 + m % 2 ^ 256 * 2 ^ 64

/-- Changes the engines that a partition's descriptor names. -/
def setEngines (d : Device) (p : Part) (f : Nat → Nat) : Device :=
  updPart d p fun x => { x with desc := BitVec.ofNat 1024 (withEngines x.desc.toNat (f (rdF x.desc.toNat 8 32))) }

/-- PART_ENGINES (R475): added engines leave the pool, and removed ones receive no dispatch from now on. -/
def execPartEngines (s : State) : Host.Outcome State Fault Refusal :=
  boxRun 0x102 (fun d => withBulk d 128 fun d v =>
    let p := rdF v 3 1
    let op := param d 0 1
    let es := rdEngines v
    if 1 < op || p = 0 then reply d 3
    else
      let st := partStatus d p
      if st != 0 then reply d st
      else if op = 0 then
        if !es.all (engInPool d) then reply d 0x612
        else goLongWith (es.foldl (fun d e => updEng d e fun x => { x with owner := some (partNo p) }) d) v
      else if !es.all fun e => d.engines[e].owner == some (partNo p) then reply d 3
      else goLongWith (setEngines d (partNo p) fun m => m - Nat.land m (rdF v 8 32)) v) s

/-- Whether an engine's unit of the current beat has come to its end. -/
def unitOver (d : Device) (e : Eng) : Bool :=
  match d.engines[e].dispatch with
  | some u => u.fate != .running
  | none => true

/-- PART_ENGINES ends. -/
def enginesEnd (d : Device) (i : Nat) (c : LongCmd) : Device :=
  let p := partNo (rdF c.data 3 1)
  let es := rdEngines c.data
  if (sfind d.parts p.val).isNone then endLong d i 0x611 0
  else if paramF c.params 0 1 = 0 then endLong (setEngines d p fun m => Nat.lor m (rdF c.data 8 32)) i 0 0
  else if !es.all (unitOver d) then d
  else endLong (es.foldl (fun d e => updEng d e fun x => { x with owner := none }) d) i 0 0

/-! ### Freeze and resume (R482, R483, R489) -/

/-- The tick at which a freeze accepted now takes effect. -/
def freezeTick (d : Device) : Nat :=
  if d.beat.lastTick + d.beat.length ≤ d.cycle + 2000 then beatNow d + 2 else beatNow d + 1

/-- PART_FREEZE (R482). -/
def execPartFreeze (s : State) : Host.Outcome State Fault Refusal :=
  boxRun 0x103 (fun d =>
    let p := param d 0 1
    let st := partStatus d p
    if st != 0 then reply d st
    else if !partRuns d (partNo p) then reply d 0x613
    else goLong (updPart d (partNo p) fun x => { x with
      state := .freezing, freezeAt := some (freezeTick d), freezeBeat := freezeTick d })) s

/-- Whether the work of step 3 has ended: entries that are not FLIGHT RUN, but for completions that cannot be written
(log entry 118), page-ins, releases of completed units. -/
def freezeDone (d : Device) (p : Part) : Bool :=
  ((partQueues d p).all fun q => q.2.type == 1 || q.2.entries.all fun a => q.2.kept.contains a.index) &&
  (segsOf d p).all (fun s => s.state != .movingIn) &&
  (d.sched.flows.all fun f => f.1 / 65536 != p.val || (releaseOne d p (f.1 % 65536)).isNone) &&
  (List.finRange 256).all fun e => d.engines[e].owner != some p || unitOver d e

/-- PART_FREEZE ends: the partition is FROZEN. -/
def freezeEnd (d : Device) (i : Nat) (c : LongCmd) : Device :=
  let p := partNo (paramF c.params 0 1)
  match sfind d.parts p.val with
  | none => endLong d i 0x611 0
  | some x =>
    if x.destroying || x.state != .freezing then endLong d i 0x613 0
    else if x.freezeAt.isSome || !freezeDone d p then d
    else endLong (updPart d p fun x => { x with state := .frozen }) i 0 0

/-- The granule of a donated range that lies at an IOVA. -/
def granuleAt (d : Device) (p : Part) (va : Nat) : Nat :=
  match d.pager.ranges.find? fun r => r.part == p && decide (r.iova ≤ va) &&
      decide (va < r.iova + granBytes * r.granules.length) with
  | some r => r.granules[(va - r.iova) / granBytes]?.getD 0
  | none => 0

/-- Whether every range that a restored partition needs has been donated. -/
def rangesMet (d : Device) (p : Part) (x : Partition) : Bool :=
  x.needs.all fun n => d.pager.ranges.any fun r =>
    r.part == p && r.iova == n.iova && r.kind == n.kind && r.granules.length == n.count

/-- A segment takes its granules. -/
def placeSeg (d : Device) (p : Part) (s : Segment) (l : List Nat × List Nat) : Segment :=
  let gs := l.1.map (granuleAt d p)
  { s with
    granules := gs, quad := if gs.isEmpty then s.quad else quadOf d (gs.headD 0 * 4096)
    copy := match s.copy with | some (.cxl _) => some (.cxl (l.2.map (granuleAt d p))) | c => c }

/-- The segments of a restored partition take their granules. -/
def placeSegs (d : Device) (p : Part) (x : Partition) : Device :=
  x.places.foldl (fun d e => updPager d fun g => { g with
    segs := supd g.segs (p.val * 2 ^ 20 + e.1) fun s => placeSeg d p s e.2 }) d

/-- A partition resumes at the next tick: its queues are read once, and the pager is asked for held segments. -/
def resumePart (d : Device) (p : Part) (x : Partition) : Device :=
  let d := updPart (placeSegs d p x) p fun x => { x with
    resumeAt := some (beatNow d + 1), restored := false, needs := [], places := [] }
  let d : Device := { d with queues := d.queues.map fun q =>
    if q.1 / 16384 = p.val then (q.1, { q.2 with due := true }) else q }
  (d.sched.insts.filter fun i => i.2.part == p).foldl (fun d i => readHeaders d i.1) d

/-- PART_RESUME (R489). -/
def execPartResume (s : State) : Host.Outcome State Fault Refusal :=
  boxRun 0x104 (fun d =>
    let p := param d 0 1
    let st := partStatus d p
    if st != 0 then reply d st
    else match sfind d.parts p with
      | none => reply d 0x611
      | some x =>
        if x.state != .frozen then reply d 0x613
        else if x.restored && !rangesMet d (partNo p) x then reply d 0x617
        else reply (resumePart d (partNo p) x) 0) s

/-- PART_LOG (R484). -/
def execPartLog (s : State) : Host.Outcome State Fault Refusal :=
  boxRun 0x107 (fun d =>
    let p := param d 0 1
    let st := partStatus d p
    if st != 0 then reply d st
    else reply (updPart d (partNo p) fun x => { x with
      logAddr := param d 8 8, logBase := param d 0x10 8, logGranules := param d 0x18 4 }) 0) s

/-! ### The partition page and GET_PARTITION (R480, R481) -/

/-- Engines in service and banks of a partition, as bit masks. -/
def engMask (d : Device) (p : Part) : Nat := (partEngines d p).foldl (fun n e => n + 2 ^ e.val) 0
def bankMask (d : Device) (p : Part) : Nat :=
  (List.finRange 256).foldl (fun n b => if bankOf d b.val p.val && !d.banks[b].retired then n + 2 ^ b.val else n) 0
def bankCount (d : Device) (p : Part) : Nat := (List.finRange 256).countP fun b => bankOf d b.val p.val

/-- PRT_STAT.STATE. -/
def partStateNum (s : PartState) : Nat :=
  match s with
  | .running => 0
  | .freezing => 1
  | .frozen => 2

/-- PRT_STAT. -/
def prtStat (d : Device) (p : Part) : Nat :=
  (match sfind d.parts p.val with | some x => partStateNum x.state | none => 0) + p.val * 2 ^ 8 +
    (partEngines d p).length * 2 ^ 16 + bankCount d p * 2 ^ 32

/-- PGR_PART_USE: heap granules occupied, save areas among them (R249), and granules of PAGED segments (R313). -/
def partUse (d : Device) (p : Part) : Nat :=
  let paged := (segsOf d p).filter fun s => s.state == .paged
  (residentGran d p + saveGran d p) % 2 ^ 28 + paged.foldl (fun n s => n + sizeGran s) 0 % 2 ^ 28 * 2 ^ 28

/-- Ordered flows of a partition with an admitted instance. -/
def liveFlows (d : Device) (p : Part) : Nat := d.sched.flows.countP fun f => f.1 / 65536 == p.val && !f.2.insts.isEmpty

/-- The 4 KiB report. -/
def partReport (d : Device) (p : Part) : Nat :=
  partDesc d p + engMask d p * 2 ^ 0x400 + prtStat d p * 2 ^ 0x500 + partThreads d p * 2 ^ 0x540 +
    liveFlows d p * 2 ^ 0x580 + (partQueues d p).length * 2 ^ 0x5c0 + partUse d p * 2 ^ 0x600 +
    attachedGib d p.val * 2 ^ 0x640

/-- The bytes at BUF_ADDR are unspecified after a write that faults: free values, where the page has memory that the
partition can read (R283, log entry 108). -/
def openReport (d : Device) (p : Part) (buf : Nat) : Device :=
  match xlatPure d (devOf p) buf false with
  | some (pa, _) => let f := drawFree d; cohWrite f.2 pa 4096 (Config.freeValue f.1) p 1
  | none => d

/-- GET_PARTITION (R282, R283, R481). -/
def getPartition (d : Device) (p : Part) (i : Nat) (a : Accepted) : Device :=
  let buf := entF a.raw 0x10 8
  if !bodyClear a.raw [(0x10, 8)] || buf % 4096 != 0 then adminEnd d p i 3
  else match ioWrite d p buf 4096 (partReport d p) with
    | (true, d) => adminEnd d p i 0
    | (false, d) => adminEnd (openReport d p buf) p i 0xf

def execGetPartition (p : Part) (i : Nat) (s : State) : Host.Outcome State Fault Refusal :=
  act (whenRun (runAdmin p i 8 fun d a => getPartition d p i a)) s

/-! ### Save (R485 to R487) -/

/-- A segment of an image, with the IOVAs of its granules and of its CXL granules. -/
structure SavedSeg where
  seg : Segment
  spots : List Nat
  cxl : List Nat
  deriving DecidableEq, Repr

/-- A namespace of an image: its size and its blocks by LBA. -/
structure SavedNs where
  size : Nat
  blocks : Sparse Nat
  deriving DecidableEq, Repr

/-- What the sections of an image carry. Instances are numbered by their place in the list. -/
structure SavedPart where
  desc : BitVec 1024
  queues : Sparse Queue
  insts : List Instance
  threads : List Thread
  flows : Sparse Flow
  banks : Sparse (Dword × Sparse (List Cell))
  segs : Sparse SavedSeg
  gens : Sparse Nat
  ranges : List RangeNeed
  nss : List SavedNs
  deriving DecidableEq, Repr, Inhabited

end Sys2Proof.Machine

namespace Sys2Proof.Config

/-- The bytes of a section of an image: FORMAT fixes the record encodings between firmware images, and the spec does
not give them (R487). -/
opaque imageSection : Machine.SavedPart → Nat → List Byte

/-- What the sections of an image mean to this firmware (R487). -/
opaque readImage : List Byte → Machine.SavedPart

end Sys2Proof.Config

namespace Sys2Proof.Machine

open Sys2Proof

/-- The flows of a partition with an admitted instance. -/
def partFlows (d : Device) (p : Part) : Sparse Flow :=
  (d.sched.flows.filter fun f => f.1 / 65536 == p.val && !f.2.insts.isEmpty).map fun f => (f.1 % 65536, f.2)

/-- The place of an instance number in a list of them. -/
def placeIn (l : List Nat) (k : Nat) : Nat := l.idxOf k

/-- The IOVAs of granules. -/
def granIovas (d : Device) (gs : List Nat) : List Nat := gs.map fun g => ((donatedAt d (g * 4096)).map (·.2)).getD 0

/-- A namespace's blocks by LBA, those in the write buffer included. -/
def savedBlocks (d : Device) (k : Nat) : Sparse Nat :=
  (d.ledger.media.filter fun m => m.1 / 2 ^ 40 == k).map fun m => (m.1 % 2 ^ 40, m.2)

/-- The ranges of a partition in which some segment has granules. -/
def usedRanges (d : Device) (p : Part) : List RangeNeed :=
  let used := (segsOf d p).flatMap fun s => s.granules ++ cxlOf s
  (d.pager.ranges.filter fun r => r.part == p && r.granules.any used.contains).map fun r =>
      ⟨r.iova, r.kind, r.granules.length⟩

/-- What a partition's image carries; with or without its namespaces. -/
def savePart (d : Device) (p : Part) (withNs : Bool) : SavedPart :=
  let is := d.sched.insts.filter fun x => x.2.part == p
  let ns := d.ledger.nss.filter fun n => withNs && n.2.owner == some p
  { desc := BitVec.ofNat 1024 (partDesc d p)
    queues := (partQueues d p).map fun q => (q.1.val, q.2)
    insts := is.map (·.2)
    threads := (d.sched.threads.filter fun t => t.2.part == p).map fun t =>
    { t.2 with inst := placeIn (is.map (·.1)) t.2.inst }
    flows := (partFlows d p).map fun f => (f.1, { f.2 with insts := f.2.insts.map (placeIn (is.map (·.1))) })
    banks := ((List.finRange 256).filter fun b => bankOf d b.val p.val).map fun b =>
      (b.val, (reg d (CAM_CFG (b.val / 4) (b.val % 4)), d.banks[b].ents))
    segs := (d.pager.segs.filter fun s => s.2.part == p).map fun s =>
      (s.1 % 2 ^ 20, ⟨s.2, granIovas d s.2.granules, granIovas d (cxlOf s.2)⟩)
    gens := (d.pager.gens.filter fun g => g.1 / 2 ^ 20 == p.val).map fun g => (g.1 % 2 ^ 20, g.2)
    ranges := usedRanges d p
    nss := ns.map fun n => ⟨n.2.size, savedBlocks d n.1⟩ }

/-- The blocks of copies in the ledger pager region. -/
def pagedBytes (s : SavedPart) : Nat :=
  s.segs.foldl (fun n x => match x.2.seg.copy with
    | some (.ledger bs) => bs.foldl (fun n b => n + b.bytes.length) n
    | _ => n) 0

/-- The length of each section (R487). -/
def sectionBytes (s : SavedPart) (k : Nat) : Nat :=
  match k with
  | 0 => 256
  | 1 => 128 * s.queues.length
  | 2 => 256 * s.insts.length
  | 3 => 32 * s.threads.length
  | 4 => s.flows.foldl (fun n f => n + 64 + 16 * f.2.done.length) 0
  | 5 => 8208 * s.banks.length
  | 6 => 32 * s.segs.length
  | 7 => pagedBytes s
  | 8 => s.nss.foldl (fun n x => n + 8 + 4104 * x.blocks.length) 0
  | _ => 0

/-- A list of bytes brought to a length. -/
def fitBytes (l : List Byte) (n : Nat) : List Byte := (l ++ List.replicate n 0).take n

/-- Where section `k` begins. -/
def sectionAt (s : SavedPart) : Nat → Nat
  | 0 => 256
  | k + 1 => sectionAt s k + sectionBytes s k

/-- The header of an image. -/
def imageHeader (d : Device) (p : Part) (s : SavedPart) : List Byte :=
  let beat := match sfind d.parts p.val with | some x => x.freezeBeat | none => 0
  let entry := fun k => if sectionBytes s k = 0 then List.replicate 16 0
    else bytesOf (sectionAt s k) 8 ++ bytesOf (sectionBytes s k) 8
  bytesOf 0x4d494750 4 ++ bytesOf 1 2 ++ bytesOf p.val 1 ++ bytesOf (if s.nss.isEmpty then 0 else 1) 1 ++
    bytesOf d.warden.image.version 8 ++ bytesOf (sectionAt s 9 + 64) 8 ++ bytesOf beat 8 ++
    (List.range 14).flatMap entry

/-- The seal of an image under a migration key (R486). -/
def imageSeal (key : Nat) (l : List Byte) : List Byte :=
  digestOf 3 (kmacKeyed (asciiBytes "OLV-A64-MIG") (bytesOf key 32)) l 64

/-- An image with its seal. -/
def imageBytes (d : Device) (p : Part) (s : SavedPart) (key : Nat) : List Byte :=
  let body := imageHeader d p s ++
    (List.range 9).flatMap fun k => fitBytes (Config.imageSection s k) (sectionBytes s k)
  body ++ imageSeal key body

/-- The Warden's slot is cleared after a seal; its permutations are counted. -/
def sealDone (d : Device) (n : Nat) : Device := clearSlot (countPerms d (n / 136 + 2)) 15

/-- Buffer records at an address: none where one breaks the layout or names memory that is not there. -/
def bufferList (d : Device) (a n : Nat) : Option (List (Nat × Nat)) :=
  let rs := chainRecs (cohRead d a (16 * n)).1 n
  if rs.all fun r => r.2.2 == 0 && (r.2.1 == 0 || (inDram d r.1 && inDram d (r.1 + r.2.1 - 1))) then
    some (rs.map fun r => (r.1, r.2.1))
  else none

/-- The status with which PART_SAVE is turned away; 0 where it is not. -/
def saveStatus (d : Device) (p inc : Nat) : Nat :=
  let st := partStatus d p
  if 1 < inc then 3
  else if st != 0 then st
  else match sfind d.parts p with
    | none => 0x611
    | some x =>
      if x.state != .frozen then 0x613
      else if inc = 0 && d.ledger.nss.any fun n => n.2.owner == some (partNo p) then 0x614
      else 0

/-- PART_SAVE (R485). -/
def execPartSave (s : State) : Host.Outcome State Fault Refusal :=
  boxRun 0x105 (fun d =>
    let st := saveStatus d (param d 0 1) (param d 1 1)
    if st != 0 then reply d st
    else
      let st := bulkStatus d (dmaAddr d) (dmaLen d) (dmaLen d / 16 * 16)
      if st != 0 then reply d st else goLong d) s

/-- PART_SAVE ends: what the write buffer holds of the namespaces is written first, and the image goes to the
buffers. -/
def saveEnd (d : Device) (i : Nat) (c : LongCmd) : Device :=
  let p := paramF c.params 0 1
  let inc := paramF c.params 1 1
  let st := saveStatus d p inc
  if st != 0 then endLong d i st 0
  else if inc = 1 && d.ledger.staged.any fun x =>
      (d.ledger.nss.any fun n => n.2.owner == some (partNo p) && n.1 == x.key / 2 ^ 40) then d
  else match bufferList d c.dmaAddr (c.dmaLen / 16) with
    | none => endLong d i 3 0
    | some l =>
      let img := imageBytes d (partNo p) (savePart d (partNo p) (inc == 1)) (paramF c.params 8 32)
      if l.foldl (fun n b => n + b.2) 0 < img.length then endLong (sealDone d img.length) i 0x618 0
      else endLong (sealDone ((fillBuffers img l).1.foldl (fun d w => bulkWrite d w.1 w.2) d) img.length) i 0 img.length

/-! ### Restore (R488) -/

/-- Whether a descriptor's quotas cover what an image uses. -/
def quotasCover (v : Nat) (s : SavedPart) : Bool :=
  let q : Dword := BitVec.ofNat 64 (rdF v 0x58 8)
  let gran := s.segs.foldl (fun n x => n + sizeGran x.2.seg) 0 + ceilDiv s.threads.length 32
  let pinned := s.segs.foldl (fun n x => if x.2.seg.state = .pinned then n + sizeGran x.2.seg else n) 0
  decide (s.queues.length ≤ rdF v 0x4e 2 + 1) && decide (s.threads.length ≤ rdF v 0x50 4) &&
  (s.flows.all fun f => decide (f.1 ≤ rdF v 0x54 2)) &&
  decide (s.nss.foldl (fun n x => n + x.size) 0 ≤ rdF v 0x56 2) && decide (gran ≤ field q 0 28) &&
  (s.segs.all fun x => decide (x.1 ≤ field q 28 20)) && decide (pinned ≤ 64 * field q 48 16)

/-- Whether the ledger and the scheduler's tables have room for an image. -/
def imageFits (d : Device) (s : SavedPart) : Bool :=
  decide (s.nss.foldl (fun n x => n + x.size) 0 ≤ freeGib d) && decide (d.ledger.nss.length + s.nss.length ≤ 64) &&
  decide (regionUsed d + pagedBytes s ≤ 2 ^ 30 * pagerGib d) &&
  decide (d.sched.insts.length + s.insts.length ≤ 65536) && decide (d.sched.threads.length + s.threads.length ≤ 262144)

/-- The status of a restore with a descriptor and an image; 0 where every check holds. -/
def restoreStatus (d : Device) (v : Nat) (img : List Byte) (key : Nat) : Nat :=
  let h := fun b n => ofBytes ((img.drop b).take n)
  let s := Config.readImage img
  let sd := s.desc.toNat
  if img.length < 320 || img.drop (img.length - 64) != imageSeal key (img.take (img.length - 64)) then 0x615
  else if 1 < h 4 2 || d.warden.image.version < h 8 8 then 0x616
  else if rdBad v || rdF v 3 1 != h 6 1 || rdF v 0x28 32 != rdF sd 0x28 32 || rdF v 0x4c 2 != rdF sd 0x4c 2 then 3
  else if partExists d (rdF v 3 1) then 0x610
  else if !rdAvailable d v || !quotasCover v s || !imageFits d s then 0x612
  else 0

/-- A bank takes the configuration and the entries of an image. -/
def putBank (d : Device) (p : Part) (e : Nat × Dword × Sparse (List Cell)) : Device :=
  let b := bankNo e.1
  if !bankOf d b.val p.val then d
  else e.2.2.foldl (fun d x => putEntry d (1024 * b.val + x.1) x.2) (setCamCfg d b (cfgOwned e.2.1 p 1) true)

/-- A queue's entries are numbered anew in the order of their acceptance. -/
def renumber (n : Nat) (l : List Accepted) : List Accepted := l.map fun a => { a with num := n + a.num }

/-- A namespace of an image is created, attached to the partition. -/
def putNs (d : Device) (p : Part) (x : SavedNs) : Device :=
  match freeNsid d with
  | none => d
  | some k => updLedger d fun l => { l with
      nss := sput l.nss k ⟨x.size, some p, p.val⟩
      media := x.blocks.foldl (fun m b => sput m (2 ^ 40 * k + b.1) b.2) l.media }

/-- The numbers that instances and threads of an image receive, and their records. -/
def putSched (d : Device) (p : Part) (s : SavedPart) : Device :=
  let is := takeNums (d.sched.insts.map (·.1)) 65536 (d.sched.insts.length + s.insts.length) 0 s.insts.length
  let ts := takeNums (d.sched.threads.map (·.1)) 262144 (d.sched.threads.length + s.threads.length) 0 s.threads.length
  let num := fun k => is[k]?.getD 0
  updSched d fun x => { x with
    insts := (is.zip s.insts).foldl (fun l e => sput l e.1 { e.2 with part := p }) x.insts
    threads := (ts.zip s.threads).foldl (fun l e =>
      sput l e.1 { e.2 with part := p, inst := num e.2.inst, lastEng := none }) x.threads
    flows := s.flows.foldl (fun l f => sput l (flowKey p f.1) { f.2 with insts := f.2.insts.map num }) x.flows }

/-- The segment map of an image: granules follow at the resumption. -/
def putSegs (d : Device) (p : Part) (s : SavedPart) : Device :=
  updPager d fun g => { g with
    segs := s.segs.foldl (fun l x => sput l (p.val * 2 ^ 20 + x.1 % 2 ^ 20) { x.2.seg with
      part := p, granules := []
      copy := match x.2.seg.copy with | some (.cxl _) => some (.cxl []) | c => c }) g.segs
    gens := s.gens.foldl (fun l x => sput l (p.val * 2 ^ 20 + x.1 % 2 ^ 20) x.2) g.gens }

/-- The partition of an image comes into being FROZEN. -/
def putPart (d : Device) (v : Nat) (s : SavedPart) : Device :=
  let p := partNo (rdF v 3 1)
  let d := applyRd d p v
  let d : Device := { d with
    queues := s.queues.foldl (fun l q =>
      sput l (qKey p ⟨q.1 % 16384, Nat.mod_lt _ (by omega)⟩) { q.2 with entries := renumber d.accepted q.2.entries }) d.queues
    accepted := d.accepted + s.queues.foldl (fun n q => q.2.entries.foldl (fun n a => max n (a.num + 1)) n) 0 }
  let d := s.banks.foldl (fun d e => putBank d p e) d
  let d := s.nss.foldl (fun d x => putNs d p x) (putSegs (putSched d p s) p s)
  updPart d p fun x => { x with
    state := .frozen, restored := true, needs := s.ranges
    places := s.segs.foldl (fun l x => sput l (x.1 % 2 ^ 20) (x.2.spots, x.2.cxl)) [] }

/-- PART_RESTORE (R488). -/
def execPartRestore (s : State) : Host.Outcome State Fault Refusal :=
  boxRun 0x106 (fun d => withBulk d 128 fun d v => goLongWith d v) s

/-- PART_RESTORE ends. -/
def restoreEnd (d : Device) (i : Nat) (c : LongCmd) : Device :=
  let n := (c.dmaLen - 128) / 16
  let st := bulkStatus d c.dmaAddr c.dmaLen (128 + 16 * n)
  if st != 0 then endLong d i st 0
  else match bufferList d (c.dmaAddr + 128) n with
    | none => endLong d i 3 0
    | some l =>
      let all := l.flatMap fun b => bytesOf (cohRead d b.1 b.2).1 b.2
      let img := all.take (ofBytes ((all.drop 0x10).take 8))
      let st := restoreStatus d c.data img (paramF c.params 8 32)
      let d := sealDone d img.length
      if st != 0 then endLong d i st 0 else endLong (putPart d c.data (Config.readImage img)) i 0 0

end Sys2Proof.Machine
end

