-- ==== Sys2Proof/Machine/RegView.lean ====
section
/-! DEFINITION. What a read of the control window returns: stored fields, and fields that show the state of a unit (R9,
R89, R114, R259, R291, R313, R431, R436, R470, R480, R514, R535 to R541, R548, R574 and the other register tables). -/

namespace Sys2Proof.Machine

open Sys2Proof

/-- Puts fields, each a lowest bit, a length and a value, over a stored value. -/
def showFields (v : Dword) (l : List (Nat × Nat × Nat)) : Dword := l.foldl (fun v f => setField v f.1 f.2.1 f.2.2) v

/-- A number below a bound as an index. -/
def engNo (n : Nat) : Eng := ⟨n % 256, Nat.mod_lt _ (by omega)⟩
def tileNo (n : Nat) : Tile := ⟨n % 64, Nat.mod_lt _ (by omega)⟩
def chanNo (n : Nat) : Chan := ⟨n % 16, Nat.mod_lt _ (by omega)⟩
def codecNo (n : Nat) : CodecId := ⟨n % 8, Nat.mod_lt _ (by omega)⟩
def slotNo (n : Nat) : SlotId := ⟨n % 16, Nat.mod_lt _ (by omega)⟩
def hartNo (n : Nat) : Hart := ⟨n % 128, Nat.mod_lt _ (by omega)⟩

/-- Bits [64k + 63 : 64k] of a mask. -/
def wordOfMask (m k : Nat) : Nat := m / 2 ^ (64 * k) % 2 ^ 64

/-- A Boolean as a bit. -/
def bitOf (b : Bool) : Nat := if b then 1 else 0

/-! ### The header (R538) -/

/-- Blocks with a LOCK bit, and blocks with registers whose name ends in ERR. -/
def hasLock (b : Blk) : Bool := (lockReg b 0).isSome
def errReg (b : Blk) (i : Nat) : Option Nat :=
  match b with
  | .wrd => some WRD_ERR
  | .eng => some (ENG_ERR i)
  | .mez => some (MEZ_ERR i)
  | .gal => some (GAL_ERR i)
  | .cam => some (CAM_ERR i)
  | .drc => some (DRC_ERR i)
  | .sieve => some (SIEVE_ERR i)
  | .ldg => some LDG_ERR
  | .rle => some (RLE_ERR i)
  | .dgst => some DGST_ERR
  | .pgr => some PGR_ERR
  | _ => none

/-- Whether some RW1C bit of a block's ERR register is 1. -/
def errSet (d : Device) (b : Blk) (i : Nat) : Bool :=
  match errReg b i with
  | some x => (match blkOf x with
      | some (_, _, off) => (fieldsOf b off).any fun f => f.acc == .rw1c && regF d x f.lo f.len != 0
      | none => false)
  | none => false

/-- Whether every unit that a block describes is in service. -/
def blkInService (d : Device) (b : Blk) (i : Nat) : Bool :=
  let banks := (List.range 4).all fun k => !d.banks[bankNo (4 * i + k)].retired
  let router := regF d (MSH_STAT i) 0 1 == 1
  match b with
  | .eng => d.engines[engNo i].run != .halted && d.engines[engNo i].run != .retired
  | .tile => banks && router
  | .cam => banks
  | .msh => router
  | .drc => regF d (DRC_STAT i) 0 2 < 2
  | .rle => !codecRetired d i
  | .ldg => ldgState d == 0
  | .prt => partExists d i
  | _ => true

/-- The header registers of a block. -/
def hdrView (d : Device) (b : Blk) (i off : Nat) (v : Dword) : Dword :=
  let info := blkInfo b
  match off with
  | 0x00 => showFields v [(0, 8, info.type), (16, 16, i)]
  | 0x10 => showFields v [(0, 20, info.span / 4096), (20, 1, bitOf (hasLock b)), (21, 1, bitOf (errReg b i).isSome)]
  | 0x18 => showFields v [(0, 1, bitOf (ready d)), (1, 1, bitOf (ready d && blkInService d b i)),
      (2, 1, bitOf (ready d && blkLocked d.regs b i))]
  | 0x20 => showFields v [(0, 1, bitOf (ready d && errSet d b i))]
  | _ => v

/-! ### Fields that show state -/

/-- Harts and routers in service. -/
def hartMask (d : Device) : Nat :=
  (List.finRange 128).foldl (fun n h => if d.harts[h].held then n else n + 2 ^ h.val) 0
def routerMask (d : Device) : Nat :=
  (List.range 64).foldl (fun n t => if regF d (MSH_STAT t) 0 1 = 1 then n + 2 ^ t else n) 0

def idView (d : Device) (off : Nat) (v : Dword) : Dword :=
  match off with
  | 0x40 => showFields v [(16, 8, Config.stepping.toNat)]
  | 0x48 => Config.serial
  | 0x50 => BitVec.ofNat 64 (wordOfMask (hartMask d) 0)
  | 0x58 => BitVec.ofNat 64 (wordOfMask (hartMask d) 1)
  | 0x60 => BitVec.ofNat 64 (routerMask d)
  | _ => v

def wrdView (d : Device) (off : Nat) (v : Dword) : Dword :=
  match off with
  | 0x40 => showFields v [(0, 1, bitOf (field v 0 1 == 1 || field v 2 2 != 0)), (8, 4, pendingCmds d),
      (12, 4, min 8 d.warden.ended.length)]
  | 0x60 =>
    (match d.warden.ended with
     | e :: _ => showFields 0 [(0, 16, e.tag), (16, 16, e.op), (32, 16, e.status), (63, 1, 1)]
     | [] => 0)
  | 0x80 => BitVec.ofNat 64 d.warden.image.version
  | _ => v

def hupView (d : Device) (off : Nat) (v : Dword) : Dword :=
  if off = 0x78 then showFields v [(41, 19, dirtyPages d)] else v

def pwrView (d : Device) (off : Nat) (v : Dword) : Dword :=
  if off = 0x78 then
    showFields v [(0, 8, (d.pkg.rx.headD 0).toNat), (8, 1, bitOf (!d.pkg.rx.isEmpty)),
        (9, 1, bitOf (16 ≤ d.pkg.tx.length))]
  else v

/-- PRT_ADMIN_STAT. -/
def adminStat (d : Device) (p : Part) : Dword :=
  match qFind d p 0 with
  | none => 0
  | some x => showFields 0 [(0, 2, if x.error then 2 else if x.enabled then 1 else 0), (2, 2, causeNum x.cause),
      (16, 16, x.cons), (32, 16, x.errIndex)]

def prtView (d : Device) (i off : Nat) (v : Dword) : Dword :=
  let p := partNo i
  if off = 0x60 then adminStat d p
  else if off = 0x70 then BitVec.ofNat 64 (prtStat d p)
  else if 0x78 ≤ off ∧ off < 0x98 then BitVec.ofNat 64 (wordOfMask (engMask d p) ((off - 0x78) / 8))
  else if 0x98 ≤ off ∧ off < 0xb8 then BitVec.ofNat 64 (wordOfMask (bankMask d p) ((off - 0x98) / 8))
  else v

/-- ENG_STAT.STATE. -/
def runStateNum (r : RunState) : Nat :=
  match r with
  | .held => 0
  | .running => 1
  | .halted => 2
  | .retired => 3

def engView (d : Device) (i off : Nat) (v : Dword) : Dword :=
  let x := d.engines[engNo i]
  match off with
  | 0x48 => showFields v [(0, 2, runStateNum x.run), (2, 1, bitOf (x.mode == .thread)), (3, 1, bitOf x.sb.isEmpty),
      (4, 1, bitOf x.waiting)]
  | 0x70 => csDataValue d (engNo i)
  | _ => v

def mezView (d : Device) (i off : Nat) (v : Dword) : Dword :=
  if 0x48 ≤ off ∧ off < 0x68 then
    showFields v [(48, 2, min 3 d.engines[engNo (4 * i + (off - 0x48) / 8)].dirty24)]
  else v

def galView (d : Device) (i off : Nat) (v : Dword) : Dword :=
  let g := d.gal[tileNo i]
  if off = 0x248 then showFields v [(0, 24, g.hits / 65536), (24, 24, g.misses / 65536)] else v

/-- CAM_STATk. -/
def camStat (d : Device) (b : Bank) (v : Dword) : Dword :=
  let x := d.banks[b]
  let st := if x.retired then 2 else if respaces d b then 1 else 0
  showFields v [(0, 11, x.ents.length), (16, 11, longestRun x.ents (camUnits (bankWidth d b))),
    (30, 2, st), (32, 5, x.spares.length)]

def camView (d : Device) (i off : Nat) (v : Dword) : Dword :=
  let t := tileNo i
  if 0x60 ≤ off ∧ off < 0x80 then camStat d (bankNo (4 * i + (off - 0x60) / 8)) v
  else if off = 0x90 then
    let d' := settleCredits d t
    showFields (reg d' (CAM_PACE_STAT i)) [(0, 17, twos (Int.fdiv d'.camSq[t].credits 16) 17), (17, 5, camRate d t)]
  else v

/-- MSH_STAT: links past the edge read 0, and the attachments of R16 and R17. -/
def mshView (d : Device) (i off : Nat) (v : Dword) : Dword :=
  if off = 0x40 then
    showFields v ([1, 2, 3, 4].map (fun b => (b, 1, if (linkPeer i b).isNone then 0 else field v b 1)) ++
      [(5, 1, bitOf (foyerUp d i)), (6, 1, bitOf (i < 8 || 56 ≤ i))])
  else v

def drcView (d : Device) (i off : Nat) (v : Dword) : Dword :=
  let c := d.chans[chanNo i]
  if off = 0x58 then
    showFields v [(2, 8, min 128 c.rdq.length), (10, 7, min 64 c.wrq.length),
      (17, 15, d.mirrors.countP fun m => quadOf d (m.prim * 4096) == i / 4)]
  else v

def sieveView (d : Device) (i off : Nat) (v : Dword) : Dword :=
  let s := d.sieves[chanNo i]
  let stalls := s.active.countP fun j => !j.pieces.isEmpty && jobStalls d j
  if off = 0x60 then
    v + BitVec.ofNat 64 (if s.active.any (·.stalled) then d.cycle - s.since else 0)
  else if off = 0x40 then
    showFields 0 [(0, 7, s.active.length), (8, 16, min 65535 s.waiting.length), (24, 7, stalls)]
  else v

/-! ### SCH_ (R258, R259) -/

/-- The bins of an engine. -/
def engBins (d : Device) (e : Nat) : List Nat := (obsOf d e).bins

/-- Bins added up over several engines. -/
def groupBins (d : Device) (l : List Nat) : List Nat :=
  l.foldl (fun s e => s.zipWith (fun a b => (a + b) % 2 ^ 32) (engBins d e)) (List.replicate 16 0)

/-- The ready depth, load and bins of the selected scope. -/
def obsView (d : Device) : Nat × Nat × List Nat :=
  let k := regF d SCH_OBS_SEL 8 8
  let quad := (List.range 256).filter fun e => engQuad e == k
  let load := sget d.sched.loads (256 * regF d SCH_OBS_SEL 0 2 + k) 0
  match regF d SCH_OBS_SEL 0 2 with
  | 0 => (sget d.sched.ready k 0, load, engBins d k)
  | 1 => if k < 4 then (sget d.sched.ready (256 + k) 0, load, groupBins d quad) else (0, 0, [])
  | _ => if k < 64 then
      (sget d.sched.ready (512 + k) 0, load, sget d.sched.partBins k (List.replicate 16 0)) else (0, 0, [])

def schView (d : Device) (off : Nat) (v : Dword) : Dword :=
  let o := obsView d
  if off = 0x48 then
    showFields v [(0, 19, threadCount d), (20, 17, d.sched.insts.length),
      (40, 1, bitOf (d.queues.any fun q => q.2.heldBack && q.2.type == 1))]
  else if 0x68 ≤ off ∧ off < 0x88 then
    BitVec.ofNat 64 (wordOfMask ((List.finRange 256).foldl (fun n e =>
      if inService d.engines[e] then n + 2 ^ e.val else n) 0) ((off - 0x68) / 8))
  else if off = 0x90 then showFields v [(0, 20, o.1), (32, 32, d.sched.obsBeat)]
  else if off = 0x98 then showFields v [(0, 11, o.2.1)]
  else if 0xa0 ≤ off ∧ off < 0xe0 then
    let k := (off - 0xa0) / 8
    showFields v [(0, 32, o.2.2[2 * k]?.getD 0), (32, 32, o.2.2[2 * k + 1]?.getD 0)]
  else if 0xe8 ≤ off ∧ off < 0x108 then
    BitVec.ofNat 64 (wordOfMask (sget d.sched.shown (regF d SCH_THR_SEL 0 18) 0).toNat ((off - 0xe8) / 8))
  else v

/-! ### LDG_, RLE_, DGST_, PGR_ -/

/-- LDG_NS_INFO of the selected namespace. -/
def nsInfo (d : Device) : Dword :=
  let k := regF d LDG_NS_SEL 0 7
  match sfind d.ledger.nss k with
  | none => 0
  | some n =>
    let p := match n.owner with | some o => o.val | none => n.last
    let open_ := (List.finRange 64).foldl (fun c p =>
      c + (ldgEntries d p).countP fun a => entOp a.2.raw != 6 && ldgNsid a.2.raw == k) 0
    showFields 0 [(0, 1, 1), (1, 6, p), (7, 1, bitOf n.owner.isSome), (8, 7, n.size), (16, 16, min 65535 open_),
      (32, 32, min (2 ^ 32 - 1) (d.ledger.lost.countP fun b => b / 2 ^ 40 == k))]

def ldgView (d : Device) (off : Nat) (v : Dword) : Dword :=
  if off = 0x40 then
    showFields v [(14, 7, winGib d), (21, 7, pagerGib d), (28, 7, nsGib d),
        (35, 7, 95 - winGib d - pagerGib d - nsGib d)]
  else if off = 0x48 then showFields v [(16, 14, bufferBlocks d), (32, 7, d.ledger.nss.length)]
  else if off = 0x58 then nsInfo d
  else if 0x60 ≤ off ∧ off < 0x80 then showFields v [(0, 8, min 255 (d.ledger.writes * 100 / (3 * 8388608 * 10 ^ 8)))]
  else if off = 0xa0 && field v 0 2 != 0 then
    showFields v [(16, 16, Config.testProgress (field v 2 1) (testCycles d)), (32, 32, testCycles d / 2000000000)]
  else v

def rleView (d : Device) (i off : Nat) (v : Dword) : Dword :=
  if off = 0x40 then
    (if codecRetired d i then showFields v [(0, 2, 2)]
     else match d.codecs[codecNo i] with
       | some j => showFields v [(0, 2, 1), (4, 6, j.part.val)]
       | none => v)
  else v

/-- DGST_SLOTs.OWNER. -/
def ownerNum (o : SlotOwner) : Nat :=
  match o with
  | .none => 0
  | .page => 1
  | .queue => 2
  | .warden => 3

def dgstView (d : Device) (off : Nat) (v : Dword) : Dword :=
  if 0x40 ≤ off ∧ off < 0xc0 then
    let s := d.slots[slotNo ((off - 0x40) / 8)]
    showFields v [(7, 2, ownerNum s.owner), (9, 1, bitOf s.keyed.isSome)]
  else v

/-- A slot page; that of slot 15 reads 0 throughout. -/
def dslotView (d : Device) (i off : Nat) (v : Dword) : Dword :=
  let s := d.slots[slotNo i]
  if off = 0x48 then showFields v [(0, 1, bitOf s.busy), (3, 5, s.count)]
  else if 0x100 ≤ off ∧ off < 0x188 then
    (if s.busy then 0 else s.lanes[(off - 0x100) / 8]?.getD 0)
  else v

def pgrView (d : Device) (off : Nat) (v : Dword) : Dword :=
  let p := partNo (regF d PGR_PART_SEL 0 6)
  match off with
  | 0x68 => quotaOf d p
  | 0x70 => BitVec.ofNat 64 (partUse d p)
  | _ => v

/-! ### Root ports and configuration space (R536, R537) -/

/-- A register of a root port's bus numbers: secondary in bits 15 to 8, subordinate in bits 23 to 16. -/
def RP_BUS (i : Nat) : Nat := regAt .rp i 0x1018

/-- Whether a root port claims a bus; bus 0 is claimed by none. -/
def busClaimed (d : Device) (bus : Nat) : Bool :=
  bus != 0 && (List.range 32).any fun i =>
    portExists d i && decide (regF d (RP_BUS i) 8 8 ≤ bus) && decide (bus ≤ regF d (RP_BUS i) 16 8) &&
      regF d (RP_BUS i) 8 8 != 0

/-- Beyond its header a root port's block holds what other specifications lay out, the bus numbers excepted. -/
def rpView (d : Device) (i off : Nat) : Dword :=
  let v := BitVec.ofNat 64 (Config.configSpace (regAt .rp i off) (sget d.pkg.portErr i 0))
  if off = 0x1018 then showFields v [(8, 16, regF d (RP_BUS i) 8 16)]
  else if 0x1000 ≤ off ∧ off < 0x2000 then v
  else if 0x10000 ≤ off ∧ off < 0x20000 then v
  else 0

/-- A read of the ECAM region. -/
def ecamView (d : Device) (x : Nat) : Dword :=
  if busClaimed d ((x - 0x20000000) / 2 ^ 20) then BitVec.ofNat 64 (Config.configSpace x 0) else BitVec.allOnes 64

/-! ### A register as a read finds it -/

/-- The value of a register of a block that is ready. -/
def blockView (d : Device) (b : Blk) (i off : Nat) (v : Dword) : Dword :=
  match b with
  | .id => idView d off v
  | .wrd => wrdView d off v
  | .hup => hupView d off v
  | .pwr => pwrView d off v
  | .prt => prtView d i off v
  | .eng => engView d i off v
  | .mez => mezView d i off v
  | .gal => galView d i off v
  | .cam => camView d i off v
  | .drc => drcView d i off v
  | .sieve => sieveView d i off v
  | .sch => schView d off v
  | .ldg => ldgView d off v
  | .rle => rleView d i off v
  | .dgst => dgstView d off v
  | .dslot => dslotView d i off v
  | .pgr => pgrView d off v
  | .rp => rpView d i off
  | .beat => v
  | .snap => v
  | .life => v
  | .tile => v
  | .msh => mshView d i off v
  | .iom => v

/-- The 64-bit register at a window offset, a multiple of 8; 0 where no register stands (R9, R535). -/
def regView (d : Device) (x : Nat) : Dword :=
  match blkOf x with
  | none => if 0x20000000 ≤ x ∧ x < 0x30000000 then ecamView d x else 0
  | some (b, i, off) =>
    if b = .dslot ∧ i = 15 then 0
    else if off < 0x40 then hdrView d b i off (reg d x)
    else blockView d b i off (reg d x)

/-- What a block returns before it is ready (R539): Reset values. -/
def earlyView (d : Device) (x : Nat) : Dword :=
  match blkOf x with
  | none => 0
  | some (b, i, off) => if off < 0x20 then hdrView d b i off (resetReg x) else resetReg x

/-- A read of a 64-bit register. -/
def windowRead (d : Device) (x : Nat) (ag : Agent) : Dword × Device :=
  match blkOf x with
  | some (.eng, i, 0x70) => csDataRead d (engNo i) ag
  | some _ => gateRead d x ag (earlyView d x) fun d => (regView d x, d)
  | none => (regView d x, d)

end Sys2Proof.Machine
end

