-- ==== Sys2Proof/Machine/Ras.lean ====
section
/-! DEFINITION. Event records, fatal events, injection, mesh failures, snapshots and the lifetime log (R516 to R533). -/

namespace Sys2Proof.Config

/-- The bytes of LIFE_READ for the lifetime log: the spec names its sections and gives no layout (R528). -/
opaque lifeBytes : Machine.LifeLog → List Byte

end Sys2Proof.Config

namespace Sys2Proof.Machine

open Sys2Proof

def updRas (d : Device) (f : Ras → Ras) : Device := { d with ras := f d.ras }

/-- An effect that the Warden or the control window has once start-up has ended. -/
def whenReady (f : Device → Device) (d : Device) : Device := if ready d then f d else d

/-! ### Snapshots (R525 to R527) -/

/-- Offsets in a block that may hold registers. -/
def blkOffsets (b : Blk) : List Nat :=
  match b with
  | .iom => (List.range 128).map fun k => 0x1000 + 8 * k
  | .prt => (List.range 32).map fun k => 8 * k
  | _ => (List.range 128).map fun k => 8 * k

/-- Every block. -/
def allBlks : List Blk :=
  [.id, .beat, .wrd, .snap, .life, .hup, .pwr, .prt, .eng, .tile, .mez, .gal, .cam, .msh, .drc, .sieve, .sch, .ldg,
      .rle,
   .dgst, .dslot, .pgr, .iom, .rp]

/-- The registers of every block's map, with what they show. -/
def allRegs (d : Device) : Shadow :=
  allBlks.flatMap fun b => (List.range (blkInfo b).count).flatMap fun i => (blkOffsets b).filterMap fun off =>
    if (fieldsOf b off).isEmpty || deadBlk d b i then none else some (regAt b i off, regView d (regAt b i off))

/-- The shadow of a snapshot that an event's class took is formed from the registers of that cycle (log entry 121). -/
def formShadow (d : Device) : Device :=
  match d.ras.snapRegs with
  | some r =>
    let sh := allRegs { d with regs := r }
    updRas d fun x => { x with shadow := sh, snapRegs := none }
  | none => d

/-- A trigger that finds no snapshot HELD takes one. -/
def takeSnapshot (d : Device) (src cls beat cyc : Nat) : Device :=
  if regF d SNAP_STAT 0 2 != 0 then incRegSat d SNAP_STAT 16 16
  else
    let sh := allRegs d
    let d := updRas d fun r => { r with shadow := sh, snapRegs := none }
    let d := setReg (setReg (setReg d SNAP_STAT 0 2 1) SNAP_STAT 2 3 src) SNAP_STAT 5 8 cls
    setReg (setReg d SNAP_WHEN 0 45 beat) SNAP_WHEN 45 19 cyc

/-- A trigger for the end of the running beat: it waits for the tick. -/
def tickTrigger (d : Device) (src : Nat) : Device :=
  if regF d SNAP_STAT 0 2 != 0 then incRegSat d SNAP_STAT 16 16
  else if d.ras.snapWait.isSome then d
  else updRas d fun r => { r with snapWait := some src }

/-- A fatal event triggers a snapshot where SNAP_CLASS has its bit. -/
def fatalTrigger (d : Device) : Device :=
  if regF d SNAP_CTL 2 1 = 1 && regF d SNAP_CLASS 0x1f 1 == 1 then takeSnapshot d 4 0x1f (beatNow d) (bcycle d) else d

/-- SNAP_N_EDGE (R525). -/
def execSnapNEdge (s : State) : Host.Outcome State Fault Refusal :=
  act (whenReady fun d => if regF d SNAP_CTL 0 1 = 1 then tickTrigger d 1 else d) s

/-- SNAP_TRIGGER (R525). -/
def execSnapTrigger (s : State) : Host.Outcome State Fault Refusal :=
  boxRun 0x600 (fun d => reply (tickTrigger d 2) 0) s

/-- A write of SNAP_CTL: RELEASE returns STATE to EMPTY. -/
def writeSnapCtl (d : Device) (w : RegAccess) : Device :=
  gateWrite d SNAP_CTL w fun d =>
    let d := plainWrite d SNAP_CTL w
    if strobe w 3 then setReg (updRas d fun r => { r with snapRegs := none }) SNAP_STAT 0 2 0 else d

/-- SNAP_RELEASE (R525): a write of SNAP_CTL with RELEASE set. -/
def execSnapRelease (w : RegAccess) (s : State) : Host.Outcome State Fault Refusal :=
  act (fun d => if strobe w 3 then writeSnapCtl d w else d) s

/-- SNAP_READ (R496, R525): long; with no snapshot HELD it is turned away. -/
def execSnapRead (s : State) : Host.Outcome State Fault Refusal :=
  boxRun 0x601 (fun d => if regF d SNAP_STAT 0 2 = 0 then reply d 0x613 else goLong d) s

/-- SNAP_READ ends. -/
def snapReadEnd (d : Device) (i : Nat) (c : LongCmd) : Device :=
  let d := formShadow d
  if regF d SNAP_STAT 0 2 = 0 then endLong d i 0x613 0
  else endWithBytes d i c (Config.snapBytes (reg d SNAP_STAT) (reg d SNAP_WHEN) d.ras.shadow)

/-- The value a sampler takes: 0 where the manager reaches no register. -/
def sampleOf (d : Device) (x : Nat) : Dword :=
  match blkOf x with
  | some (b, _, off) => if x % 8 = 0 && !(fieldsOf b off).isEmpty && accepts b off .manager false then
      regView d x else 0
  | none => 0

/-- The samples of a tick that ends a beat (R527). -/
def tickSamples (d : Device) (ended : Nat) : Device :=
  let l := (List.range 16).filter fun k => regF d (SNAP_SMP_SEL k) 63 1 == 1
  let vals := l.map fun k => (k, sampleOf d (regF d (SNAP_SMP_SEL k) 0 32))
  let d := vals.foldl (fun d v => updRegs d fun r => regPut r (SNAP_SMP_VAL v.1) v.2) d
  setReg d SNAP_SMP_BEAT 0 64 ended

/-- The snapshots of a tick that starts beat `n`: a waiting trigger, then the chosen beat. -/
def tickSnapshots (d : Device) (n : Nat) : Device :=
  let last := d.beat.length - 1
  let d := match d.ras.snapWait with
    | some src => takeSnapshot (updRas d fun r => { r with snapWait := none }) src 0 (n - 1) last
    | none => d
  if regF d SNAP_CTL 1 1 = 1 && regF d SNAP_BEAT 0 48 == n % 2 ^ 48 then takeSnapshot d 3 0 (n - 1) last else d

/-! ### Event records (R519 to R522) -/

/-- Classes that are coalesced, that no requester was spared, and that a partition is told of. -/
def coalesced (c : Nat) : Bool := [0x03, 0x06, 0x07, 0x08, 0x09, 0x0d, 0x11, 0x18, 0x19, 0x1a].contains c
def unmasked (c : Nat) : Bool := [0x10, 0x12, 0x15, 0x18, 0x1a, 0x1e, 0x1f].contains c
def toldClass (c : Nat) : Bool := [0x02, 0x04, 0x05, 0x0c, 0x12, 0x15, 0x1a].contains c

/-- The 32 bytes of a record. -/
def recordBytes (e : RasEvent) (seq : Nat) : Nat :=
  let flags := bitOf e.injected + 2 * bitOf (!unmasked e.cls) + 4 * bitOf e.part.isSome
  e.cls % 2 ^ 8 + flags * 2 ^ 8 + (e.part.getD 0).val * 2 ^ 16 + e.inst % 2 ^ 16 * 2 ^ 32 + min 65535 e.count * 2 ^ 48 +
    e.addr % 2 ^ 64 * 2 ^ 64 + e.beat % 2 ^ 64 * 2 ^ 128 + e.detail % 2 ^ 32 * 2 ^ 192 + seq % 2 ^ 32 * 2 ^ 224

/-- The event ring's MSI is written. -/
def eventRingMsi (d : Device) : Device :=
  let d := updRas d fun r => { r with msiSent := true, msiWaits := false }
  match xlat d 0 (regF d LIFE_EVQ_MSI_ADDR 2 62 * 4) true with
  | (some pa, d) => msiTo d pa (BitVec.ofNat 32 (regF d LIFE_EVQ_CFG 32 32)) 0xffff none
  | (none, d) => d

/-- The next record number: from 1, modulo 2^32, skipping 0. -/
def nextSeq (n : Nat) : Nat := if n + 1 = 2 ^ 32 then 1 else n + 1

/-- The slot of the event ring after a slot, and whether the ring is full. -/
def ringNext (d : Device) (i : Nat) : Nat := (i + 1) % 2 ^ regF d LIFE_EVQ_CFG 2 5
def ringFull (d : Device) : Bool := ringNext d (regF d LIFE_EVQ_IDX 0 16) == regF d LIFE_EVQ_IDX 16 16

/-- Where the next record goes. -/
def recordAddr (d : Device) : Nat := regF d LIFE_EVQ_BASE 12 40 * 4096 + 32 * regF d LIFE_EVQ_IDX 0 16

/-- Whether a record is written when the Warden makes one. -/
def ringTakes (d : Device) : Bool := regF d LIFE_EVQ_CFG 0 1 == 1 && !ringFull d

/-- Whether the next record waits, for its own page of the window or behind an earlier write of its TID that waits
(R356, R435, R521). -/
def recordWaits (d : Device) : Bool := ringTakes d && (partHeld d 0 || !(winWaits d (recordAddr d)).isEmpty)

/-- What the Warden does where it `writes` a record, or the page that the record waits for is asked for. -/
def whenRecorded (writes : Bool) (f : Device → Device) (d : Device) : Device :=
  if writes && recordWaits d then askPages d (winWaits d (recordAddr d)) else f d

/-- A record goes to the event ring. -/
def ringRecord (d : Device) (e : RasEvent) : Device :=
  if regF d LIFE_EVQ_CFG 0 1 = 0 then d
  else
    let prod := regF d LIFE_EVQ_IDX 0 16
    if ringFull d then incReg d LIFE_EVQ_IDX 32 32 1
    else
      let d := cohWrite d (recordAddr d) 32 (recordBytes e d.ras.seq) 0 1
      let d := setReg (updRas d fun r => { r with seq := nextSeq r.seq }) LIFE_EVQ_IDX 0 16 (ringNext d prod)
      if regF d LIFE_EVQ_CFG 1 1 = 0 then d
      else if d.ras.msiSent then updRas d fun r => { r with msiWaits := true }
      else eventRingMsi d

/-- A partition is told of a record on its page, and by the ADMIN queue's MSI. -/
def tellPart (d : Device) (p : Part) (cls : Nat) : Device :=
  if !partExists d p.val then d
  else
    let d := incRegSat (setReg (setReg d (PRT_RAS p.val) 0 1 1) (PRT_RAS p.val) 8 8 cls) (PRT_RAS p.val) 16 16
    if regF d (PRT_ADMIN_CFG p.val) 2 1 = 0 then d
    else match xlat d p (regF d (PRT_ADMIN_MSI_ADDR p.val) 2 62 * 4) true with
      | (some pa, d) => msiTo d pa (BitVec.ofNat 32 (regF d (PRT_ADMIN_MOD p.val) 0 32)) 0 (some p)
      | (none, d) => d

/-- The Warden writes a record. -/
def writeRecord (d : Device) (e : RasEvent) : Device :=
  let d := ringRecord d e
  if e.cls = 0x1f then (List.finRange 64).foldl (fun d p => tellPart d p e.cls) d
  else match e.part with
    | some p => if toldClass e.cls then tellPart d p e.cls else d
    | none => d

/-- An occurrence of a coalesced class joins its open window; none where no window is open. -/
def joinWindow (l : List Coalesce) (e : RasEvent) : Option (List Coalesce) :=
  if l.any fun w => w.cls == e.cls && w.inst == e.inst then
    some (l.map fun w =>
      if w.cls = e.cls ∧ w.inst = e.inst then
        { w with since := match w.since with
          | some o => some { o with count := o.count + 1, injected := o.injected || e.injected }
          | none => some e }
      else w)
  else none

/-- The Warden handles the oldest event: counts, the shadow of a snapshot that it took, record. -/
def handleEvent (d : Device) : Device :=
  match d.ras.raised with
  | [] => d
  | e :: rest =>
    let d := updRas (formShadow d) fun r => { r with raised := rest }
    let d := lifeAdd d (if e.injected then 6 else 5) e.cls 1
    if !coalesced e.cls then writeRecord d e
    else match joinWindow d.ras.windows e with
      | some l => updRas d fun r => { r with windows := l }
      | none => writeRecord (updRas d fun r => { r with windows := r.windows ++ [⟨e.cls, e.inst, beatNow d, none⟩] }) e

/-- Whether the oldest event makes a record: not one that joins an open window. -/
def eventWrites (d : Device) : Bool :=
  match d.ras.raised with
  | [] => false
  | e :: _ => !(coalesced e.cls && (joinWindow d.ras.windows e).isSome)

/-- EVENT_RECORD_WRITE (R519 to R522). -/
def execEventRecordWrite (s : State) : Host.Outcome State Fault Refusal :=
  act (whenReady fun d => whenRecorded (eventWrites d) handleEvent d) s

/-- A coalescing window ends, with a record of what occurred in it. -/
def windowEnds (d : Device) (w : Coalesce) (rest : List Coalesce) : Device :=
  if beatNow d < w.opened + 1000 then d
  else match w.since with
    | none => updRas d fun r => { r with windows := rest }
    | some e => whenRecorded true (fun d => writeRecord (updRas d fun r => { r with
        windows := rest ++ [⟨w.cls, w.inst, beatNow d, none⟩] }) e) d

/-- COALESCE_WINDOW_EXPIRY (R520). -/
def execCoalesceWindowExpiry (cls : BitVec 8) (inst : BitVec 16) (s : State) : Host.Outcome State Fault Refusal :=
  act (whenReady fun d =>
    match takeFirst (fun w : Coalesce => w.cls == cls.toNat && w.inst == inst.toNat) d.ras.windows with
    | none => d
    | some (w, rest) => windowEnds d w rest) s

/-- EVENT_RING_MSI_TIMER (R521): 100 µs have passed since the event ring's last MSI. -/
def execEventRingMsiTimer (s : State) : Host.Outcome State Fault Refusal :=
  act (whenReady fun d =>
    let waits := d.ras.msiWaits
    let d := updRas d fun r => { r with msiSent := false, msiWaits := false }
    if waits && regF d LIFE_EVQ_CFG 1 1 == 1 then eventRingMsi d else d) s

/-- A write of LIFE_EVQ_CFG: PROD and CONS become 0 as EN goes from 0 to 1. -/
def writeEvqCfg (d : Device) (w : RegAccess) : Device :=
  gateWrite d LIFE_EVQ_CFG w fun d =>
    let was := regF d LIFE_EVQ_CFG 0 1
    let d := plainWrite d LIFE_EVQ_CFG w
    if was = 0 && regF d LIFE_EVQ_CFG 0 1 == 1 then setReg d LIFE_EVQ_IDX 0 32 0 else d

/-- A write of LIFE_EVQ_BASE: ignored while EN is 1. -/
def writeEvqBase (d : Device) (w : RegAccess) : Device :=
  gateWrite d LIFE_EVQ_BASE w fun d => if regF d LIFE_EVQ_CFG 0 1 = 1 then d else plainWrite d LIFE_EVQ_BASE w

/-! ### Fatal events (R523) -/

/-- A fatal event in a square: a snapshot, the log, the record, and every hart in service is told. -/
def fatalNow (d : Device) (t detail : Nat) : Device :=
  let d := raiseEvent (fatalTrigger d) 0x1f t 0 detail none
  let d := lifeSave (updRas d fun r => { r with fatal := true })
  (List.finRange 128).foldl (fun d h => if d.harts[h].held then d else msiWrite d (filePage h.val 0) 1) d

/-- FATAL_EVENT (R523): a fault that leaves directory or gallery state unknown. -/
def execFatalEvent (t : Tile) (cause : BitVec 32) (s : State) : Host.Outcome State Fault Refusal :=
  act (whenReady fun d => fatalNow d t.val cause.toNat) s

/-! ### The mesh (R516, R518, R549) -/

/-- The bit of MSH_STAT that describes a link. -/
def linkBit (l : LinkDir) : Nat :=
  match l with
  | .rankUp => 1
  | .rankDown => 2
  | .fileUp => 3
  | .fileDown => 4
  | .foyer => 5

/-- The bit by which the other square describes the same link. -/
def peerBit (b : Nat) : Nat := match b with | 1 => 2 | 2 => 1 | 3 => 4 | _ => 3

/-- Retries on a link are counted by both of its squares. -/
def countRetries (d : Device) (t b n : Nat) : Device :=
  (List.range n).foldl (fun d _ => incRegSat d (MSH_RETRY t) (16 * (b - 1)) 16) d

/-- A link leaves service at the next tick, after its third failed retry. -/
def linkFails (d : Device) (t b : Nat) : Device :=
  match linkPeer t b with
  | none => d
  | some u =>
    let d := countRetries (countRetries d t b 3) u (peerBit b) 3
    if regF d (MSH_STAT t) b 1 = 0 || d.mesh.pend.contains (t, b) then d
    else
      let d := { d with mesh := { d.mesh with pend := d.mesh.pend ++ [(t, b), (u, peerBit b)] } }
      lifeRetire (raiseEvent d 0x14 t 0 0 none) .router t (256 * b + 0x14)

/-- A Foyer port, which is a mesh link, leaves service at the next tick (R20, R22). -/
def portFails (d : Device) (t : Nat) : Device :=
  if !foyerUp d t || d.mesh.pend.contains (t, 5) then d
  else
    let d := { d with mesh := { d.mesh with pend := d.mesh.pend ++ [(t, 5)] } }
    lifeRetire (raiseEvent d 0x14 t 0 0 none) .router t (256 * 5 + 0x14)

/-- MESH_LINK_FAILURE (R22, R516, R518, R549). -/
def execMeshLinkFailure (t : Tile) (l : LinkDir) (s : State) : Host.Outcome State Fault Refusal :=
  act (whenRun fun d => if l = .foyer then portFails d t.val else linkFails d t.val (linkBit l)) s

/-- Whether a square has a neighbour to serve its local port once the pending changes are made. -/
def canServe (d : Device) (t : Nat) : Bool := (servingSquare (tickRoutes d) t).isSome

/-- The local port of a square has failed too. -/
def isolate (d : Device) (t : Nat) : Device :=
  if d.mesh.cut.contains t then d
  else fatalNow { d with mesh := { d.mesh with cut := d.mesh.cut ++ [t] } } t 0

/-- A router leaves service at the next tick. A second failure in its square takes the local port; a square with no
neighbour in service has none. -/
def routerFails (d : Device) (t : Nat) : Device :=
  if !routerUp d t || d.mesh.pend.contains (t, 0) then isolate d t
  else
    let d := { d with mesh := { d.mesh with pend := d.mesh.pend ++ [(t, 0)] } }
    let d := lifeRetire (raiseEvent d 0x14 t 0 0 none) .router t 0x14
    ((List.range 64).filter fun u => !routerUp (tickRoutes d) u && !canServe d u).foldl isolate d

/-- ROUTER_FAILURE (R516, R518, R523). -/
def execRouterFailure (t : Tile) (s : State) : Host.Outcome State Fault Refusal :=
  act (whenRun fun d => routerFails d t.val) s

/-! ### Injection (R524) -/

def addMark (d : Device) (m : Injection) : Device := updRas d fun r => { r with marks := r.marks ++ [m] }

/-- A unit of a CAM bank is made to read with bad parity. -/
def injectUnit (d : Device) (b : Bank) (u : Nat) : Device :=
  let n := camUnits (bankWidth d b)
  let off := u / n * n
  let c := match sfind d.banks[b].ents off with
    | some l => l[u - off]?.getD 0
    | none => 0
  addMark (updBank d b fun x => { x with bad := sput x.bad u (c ^^^ 1) }) ⟨3, b.val, b.val * 1024 + u, 1⟩

/-- A line of DRAM is marked with flipped bits. -/
def injectLine (d : Device) (cls a : Nat) : Device :=
  if inDram d a then addMark d ⟨cls, (chanOf d a).val, lineOf a, 1⟩ else d

/-- Instances of a class that can be injected; none for every other class. -/
def injectable (cls : Nat) : Option Nat :=
  match cls with
  | 0x01 => some 256
  | 0x03 => some 256
  | 0x06 => some 65536
  | 0x15 => some 65536
  | 0x0d => some 16
  | 0x11 => some 4
  | 0x16 => some 8
  | 0x19 => some 16
  | _ => none

/-- The effect of an injection. -/
def injectNow (d : Device) (cls inst addr n : Nat) : Device :=
  match cls with
  | 0x03 => (List.range n).foldl (fun d k => injectUnit d (bankNo inst) ((addr + k) % 1024)) d
  | 0x06 => (List.range n).foldl (fun d k => injectLine d cls (addr + 64 * k)) d
  | 0x15 => (List.range n).foldl (fun d k => injectLine d cls (addr + 64 * k)) d
  | _ => updRas d fun r => { r with armed := r.armed ++ [⟨cls, inst, addr, n⟩] }

/-- INJECT (R524). -/
def execInject (s : State) : Host.Outcome State Fault Refusal :=
  boxRun 0x800 (fun d =>
    let cls := param d 0 1
    let n := param d 0x10 2
    if regF d LIFE_CTL 0 1 = 0 then reply d 0x613
    else match injectable cls with
      | none => reply d 3
      | some m =>
        if m ≤ param d 2 2 || n = 0 || decide (256 < n) then reply d 3
        else reply (injectNow d cls (param d 2 2) (param d 8 8) n) 0) s

/-! ### The lifetime log (R528 to R530) -/

/-- The temperature bin and the voltage bin of a minute. -/
def tempBin (t : Nat) : Nat := min 25 (t / 5)
def voltBin (mv : Nat) : Nat := min 40 ((mv - 600) / 10)

/-- Power-on hours, and hours since the last mirror, as the LIFE_ registers show them. -/
def showHours (d : Device) : Device :=
  let n := fun i => sget d.life.work.counts (lifeKey 0 i) 0
  let d := setReg (setReg d LIFE_POH 0 32 (n 0 / 60)) LIFE_POH 32 32 (n 1)
  setReg d LIFE_STAT 16 16 (min 65535 (n 4 / 60))

/-- A minute of power-on time is counted: power, temperatures and voltages. Item 0 of the first section counts
minutes, 1 cold starts, 2 warm resets, 3 stores discarded, 4 minutes since the last mirror. -/
def lifeMinute (d : Device) : Device :=
  let d := lifeAdd (lifeAdd d 0 0 1) 0 4 1
  let d := lifeAdd (lifeAdd d 1 (tempBin (regF d PWR_HALL 0 8)) 1) 1 (256 + tempBin (regF d PWR_HALL 8 8)) 1
  lifeAdd (lifeAdd d 2 (voltBin (regF d PWR_HALL 40 10)) 1) 2 (256 + voltBin (regF d PWR_HALL 50 10)) 1

/-- LIFETIME_LOG_WRITE (R529): 60 s of power-on time have passed. -/
def execLifetimeLogWrite (s : State) : Host.Outcome State Fault Refusal :=
  act (whenReady fun d => lifeSave (showHours (lifeMinute d))) s

/-- Sequence number of a mirror half; 0 for a half that is not valid. -/
def halfSeq (h : Option (Nat × LifeLog)) : Nat := match h with | some x => x.1 | none => 0

/-- The log is copied to the half that is not the newest; a failure of the flash leaves that half invalid. -/
def mirrorLog (d : Device) (ok : Bool) : Device :=
  let l := d.life
  let n := max (halfSeq l.half0) (halfSeq l.half1) + 1
  let new := if ok then some (n, l.work) else none
  let l' := if halfSeq l.half0 ≤ halfSeq l.half1 then { l with half0 := new } else { l with half1 := new }
  let d := setReg { d with life := l' } LIFE_STAT 0 1 (bitOf ok)
  if !ok then d
  else showHours { d with life := { d.life with work := { d.life.work with
      counts := sput d.life.work.counts (lifeKey 0 4) 0 } } }

/-- Wear per stack is entered once a day. -/
def noteWear (d : Device) : Device :=
  (List.range 4).foldl (fun d k => lifeNote d .wear k (regView d (LDG_HEALTH k)).toNat) d

/-- LIFETIME_LOG_MIRROR (R530): 24 hours of power-on time have passed; `ok` says whether the flash took the copy. -/
def execLifetimeLogMirror (ok : Bool) (s : State) : Host.Outcome State Fault Refusal :=
  act (whenReady fun d => mirrorLog (noteWear d) ok) s

/-- LIFE_READ and LIFE_MIRROR (R496, R530): long commands. -/
def execLifeRead (s : State) : Host.Outcome State Fault Refusal := boxRun 0x700 goLong s

def execLifeMirror (s : State) : Host.Outcome State Fault Refusal := boxRun 0x701 goLong s

/-- LIFE_READ ends. -/
def lifeReadEnd (d : Device) (i : Nat) (c : LongCmd) : Device := endWithBytes d i c (Config.lifeBytes d.life.work)

/-- LIFE_MIRROR ends. -/
def lifeMirrorEnd (d : Device) (i : Nat) (flash : Bool) : Device :=
  endLong (mirrorLog d flash) i (if flash then 0 else 0x626) 0

end Sys2Proof.Machine
end

