-- ==== Sys2Proof/Machine/Regs.lean ====
section
/-! DEFINITION. Writes of the control window by offset, its loads and stores by harts, and the mailbox commands that
write registers (R4, R354, R358, R534 to R545, R573, R496). -/

namespace Sys2Proof.Machine

open Sys2Proof

/-! ### Writes by block -/

/-- CELLS 0b00 with TYPE 1 is a reserved encoding, so such a write leaves both fields as they were (R10; log entry
120). -/
def cellsKept (d : Device) (old : Dword) : Device :=
  if regF d HUP_CFG 1 1 = 1 && regF d HUP_CFG 2 2 == 0 then setReg d HUP_CFG 1 3 (field old 1 3) else d

/-- HUP_CFG, HUP_STORE and HUP_CHG: the charger follows them; with ENABLE at 0 the limit is 0 and write-through is held;
a new capacity starts its coulomb counter and its q_cap afresh. -/
def writeHup (d : Device) (x : Nat) (w : RegAccess) : Device :=
  gateWrite d x w fun d =>
    let cap := regF d HUP_STORE 0 24
    let d := cellsKept (plainWrite d x w) (reg d HUP_CFG)
    let d := if regF d HUP_CFG 0 1 = 0 then setWt (setReg d HUP_LIMIT 21 19 0) 1 else d
    setCharger (if regF d HUP_STORE 0 24 = cap then d
      else updHup d fun h => { h with qcap := ratedCap d, coulombs := 0 })

/-- A write of a PRT_ADMIN_ register that the ADMIN queue reads. -/
def writeAdminAddr (d : Device) (p : Part) (x : Nat) (w : RegAccess) : Device :=
  gateWrite d x w fun d =>
    if x = PRT_ADMIN_BASE p.val && regF d (PRT_ADMIN_CFG p.val) 0 1 = 1 then d else syncAdmin (plainWrite d x w) p

def writePrt (d : Device) (i off x : Nat) (w : RegAccess) : Device :=
  let p := partNo i
  if off = 0x40 ∨ off = 0x50 then writeAdminAddr d p x w
  else if off = 0x48 then writeAdminCfg d p w
  else if off = 0x58 then writeAdminMod d p w
  else if off = 0x68 then writeAdminReset d p w
  else if 0x80000 ≤ off ∧ off < 0xa0000 then writeQueueBell d p ⟨(off - 0x80000) / 8 % 16384, Nat.mod_lt _ (by omega)⟩ w
  else gatedPlain d x w

def writeWrd (d : Device) (off x : Nat) (w : RegAccess) : Device :=
  if off = 0x48 then writeDoorbell d w
  else if off = 0x68 then writeEventCtl d w
  else if off = 0x50 ∨ off = 0x58 ∨ (0x100 ≤ off ∧ off < 0x200) then writeBox d x w
  else if 0x200 ≤ off ∧ off < 0x300 then gateWrite d x w id
  else gatedPlain d x w

def writeCam (d : Device) (i off x : Nat) (w : RegAccess) : Device :=
  if 0x40 ≤ off ∧ off < 0x60 then writeCamCfg d (bankNo (4 * i + (off - 0x40) / 8)) w
  else if off = 0x88 then gateWrite d x w fun d => plainWrite (settleCredits d (tileNo i)) x w
  else gatedPlain d x w

/-- A slot page: EXP and the RW1C bits of SSTAT. -/
def writeSlotPage (d : Device) (i off x : Nat) (w : RegAccess) : Device :=
  let s := slotNo i
  if i = 15 then d
  else if off < 0x40 then gatedPlain d x w
  else if off = 0x40 then writeSctl d s w
  else if off = 0x50 then writeDgstData d s w
  else gateWrite d x w fun d => slotWrite d s fun d => plainWrite d x w

def writePgr (d : Device) (off x : Nat) (w : RegAccess) : Device :=
  if off = 0x40 then writePgrCtl d w
  else if off = 0x50 then writeDonCmd d w
  else if off = 0x68 then writeQuota d w
  else gatedPlain d x w

/-- A queue of the IOMMU is switched on or off; one that comes on starts empty with its flags clear. -/
def iomSwitch (d : Device) (r en on flags ptr lo : Nat) (was : Nat) : Device :=
  let now := regF d r en 1
  let d := setReg d r on 1 now
  if was = 0 && now == 1 then setReg (setReg d r flags 4 0) ptr lo 32 0 else d

def writeIom (d : Device) (x : Nat) (w : RegAccess) : Device :=
  gateWrite d x w fun d =>
    let cq := regF d IOM_CSR 0 1
    let fq := regF d IOM_CSR 32 1
    let pq := regF d IOM_PQCSR 0 1
    let d := plainWrite d x w
    let d := iomSwitch d IOM_CSR 0 16 8 IOM_CQ 0 cq
    iomSwitch (iomSwitch d IOM_CSR 32 48 40 IOM_FQ 32 fq) IOM_PQCSR 0 16 8 IOM_PQ 32 pq

/-! ### The UART (R573, R574) -/

/-- Software queues a byte: ignored while the Warden owns the UART or the FIFO is full. -/
def uartSend (d : Device) (b : Byte) : Device :=
  if regF d PWR_UART_CTL 0 1 = 0 || 16 ≤ d.pkg.tx.length then d
  else { d with pkg := { d.pkg with tx := d.pkg.tx ++ [b] } }

/-- A write of PWR_UART_DATA. -/
def writeUart (d : Device) (w : RegAccess) : Device :=
  gateWrite d PWR_UART_DATA w fun d =>
    let d := plainWrite d PWR_UART_DATA w
    let d := if strobe w 24 then uartSend d (BitVec.ofNat 8 ((carried w 16 8).getD 0)) else d
    if strobe w 25 then { d with pkg := { d.pkg with rx := d.pkg.rx.tail } } else d

/-- UART_TX_GO (R573): a write of PWR_UART_DATA with TX_GO set. -/
def execUartTxGo (w : RegAccess) (s : State) : Host.Outcome State Fault Refusal :=
  act (fun d => if strobe w 24 then writeUart d w else d) s

/-- UART_RX_POP (R573): a write of PWR_UART_DATA with RX_POP set. -/
def execUartRxPop (w : RegAccess) (s : State) : Host.Outcome State Fault Refusal :=
  act (fun d => if strobe w 25 then writeUart d w else d) s

/-- A byte arrives: it is discarded while the Warden owns the UART. -/
def uartByte (d : Device) (b : Byte) : Device :=
  if regF d PWR_UART_CTL 0 1 = 0 then d
  else
    let d := if 64 ≤ d.pkg.rx.length then setReg d PWR_UART_DATA 10 1 1
      else { d with pkg := { d.pkg with rx := d.pkg.rx ++ [b] } }
    if regF d PWR_UART_CTL 1 1 = 0 then d
    else match xlat d 0 (regF d PWR_UART_MSI_ADDR 2 62 * 4) true with
      | (some pa, d) => msiTo d pa (BitVec.ofNat 32 (regF d PWR_UART_CTL 32 32)) 0xffff none
      | (none, d) => d

/-- UART_RX_BYTE (R573). -/
def execUartRxByte (b : Byte) (s : State) : Host.Outcome State Fault Refusal := act (whenReady fun d => uartByte d b) s

/-- UART_TX_BYTE_SENT (R573): the oldest byte of the transmit FIFO has been sent. -/
def execUartTxByteSent (s : State) : Host.Outcome State Fault Refusal :=
  act (whenReady fun d => { d with pkg := { d.pkg with tx := d.pkg.tx.tail } }) s

/-! ### Any register -/

/-- A write of the register at a window offset. -/
def windowWrite (d : Device) (x : Nat) (w : RegAccess) : Device :=
  match blkOf x with
  | none => d
  | some (b, i, off) =>
    if off < 0x40 && b != .dslot then gatedPlain d x w
    else match b, off with
      | .beat, 0x40 => writeBeatCtl d w
      | .beat, 0x48 => writePeriod d w
      | .beat, 0x60 => writePhase d w
      | .wrd, _ => writeWrd d off x w
      | .snap, 0x40 => writeSnapCtl d w
      | .life, 0x48 => writeEvqBase d w
      | .life, 0x50 => writeEvqCfg d w
      | .hup, 0x40 => writeHup d x w
      | .hup, 0x48 => writeHup d x w
      | .hup, 0x58 => writeHup d x w
      | .pwr, 0x78 => writeUart d w
      | .prt, _ => writePrt d i off x w
      | .eng, 0x70 => csDataWrite d (engNo i) w
      | .cam, _ => writeCam d i off x w
      | .ldg, 0x98 => writeTestCtl d w
      | .dgst, _ => if 0x40 ≤ off ∧ off < 0xc0 then writeDgstSlot d (slotNo ((off - 0x40) / 8)) w else gatedPlain d x w
      | .dslot, _ => writeSlotPage d i off x w
      | .pgr, _ => writePgr d off x w
      | .iom, _ => writeIom d x w
      | .rp, _ => gateWrite d x w id
      | _, _ => gatedPlain d x w

/-- REGISTER_WRITE (R4): a write of any register, by any agent. -/
def execRegisterWrite (off : Nat) (w : RegAccess) (s : State) : Host.Outcome State Fault Refusal :=
  act (served fun d => windowWrite d (off / 8 * 8) w) s

/-! ### Loads and stores of harts (R354, R535, R540, R541) -/

/-- Whether a window offset lies in no region (R534). -/
def noRegion (x : Nat) : Bool :=
  (decide (0x5000000 ≤ x) && decide (x < 0x10000000)) || (decide (0x11400000 ≤ x) && decide (x < 0x12000000)) ||
  (decide (0x16000000 ≤ x) && decide (x < 0x20000000)) || decide (0x30000000 ≤ x)

/-- ECAM, and the configuration space of a root port. -/
def isConfig (x : Nat) : Bool :=
  (decide (0x20000000 ≤ x) && decide (x < 0x30000000)) ||
  (decide (0x14000000 ≤ x) && decide (x < 0x16000000) && decide (0x1000 ≤ x % 0x100000) &&
      decide (x % 0x100000 < 0x2000))

/-- Whether a core may make an access of a size. -/
def sizeOk (x n : Nat) : Bool :=
  x % n == 0 && (if isConfig x then n == 1 || n == 2 || n == 4 else n == 4 || n == 8)

/-- The address of a window offset. -/
def windowAddr (x : Nat) : Nat := 0xf000000000000 + x

/-- `n` bytes of a register value from a byte offset. -/
def bytesAt (v : Dword) (b n : Nat) : Nat := v.toNat / 2 ^ (8 * b) % 2 ^ (8 * n)

/-- A load from the window by a hart. -/
def windowLoad (d : Device) (h : Hart) (ag : Agent) (x n : Nat) : Device :=
  if noRegion x || !sizeOk x n then coreTrap d h 5 (windowAddr x)
  else
    let r := windowRead d (x / 8 * 8) ag
    retire (setLoaded r.2 h (bytesAt r.1 (x % 8) n)) h

/-- Whether an agent is a hart. -/
def hartAgent (ag : Agent) : Bool :=
  match ag with
  | .manager => true
  | .guest _ => true
  | .warden => false
  | .bmc => false

/-- CONTROL_WINDOW_LOAD (R354, R358, R535, R540 to R545): by a hart, or by the Warden or the BMC. -/
def execControlWindowLoad (h : Hart) (ag : Agent) (off size : Nat) (s : State) : Host.Outcome State Fault Refusal :=
  if hartAgent ag then coreRun h (fun d => windowLoad d h ag off size) s
  else act (fun d =>
    let r := windowRead d (off / 8 * 8) ag
    { r.2 with readBack := BitVec.ofNat 64 (bytesAt r.1 (off % 8) size) }) s

/-- The bus numbers of a root port take the bytes of a write. -/
def writeBus (d : Device) (i b n v : Nat) : Device :=
  (List.range n).foldl (fun d k =>
    if b + k = 1 ∨ b + k = 2 then setReg d (RP_BUS i) (8 * (b + k)) 8 (v / 2 ^ (8 * k)) else d) d

/-- The write of a register that an access of a hart makes. -/
def accessOf (ag : Agent) (x n : Nat) (v : Dword) : RegAccess :=
  ⟨ag, if n = 8 then .whole else if x % 8 = 4 then .high else .low, v⟩

/-- A store to the window: configuration space takes bytes, and only a root port's bus numbers are the spec's. -/
def windowPut (d : Device) (ag : Agent) (x n : Nat) (v : Dword) : Device :=
  if isConfig x then
    (match blkOf x with
     | some (.rp, i, off) =>
       let y := x / 8 * 8
       gateWrite d y ⟨ag, .whole, 0⟩ fun d => if off / 8 * 8 = 0x1018 then writeBus d i (off % 8) n v.toNat else d
     | _ => d)
  else windowWrite d (x / 8 * 8) (accessOf ag x n v)

/-- CONTROL_WINDOW_STORE (R354, R358, R535, R540 to R545). -/
def execControlWindowStore (h : Hart) (ag : Agent) (off size : Nat) (v : BitVec 64) (s : State) :
    Host.Outcome State Fault Refusal :=
  if hartAgent ag then
    coreRun h (fun d =>
      if noRegion off || !sizeOk off size then coreTrap d h 7 (windowAddr off)
      else retire (windowPut d ag off size v) h) s
  else act (served fun d => windowPut d ag off size v) s

/-! ### Mailbox commands that write registers (R496, R543) -/

/-- A whole register written by the Warden. -/
def wardenWrite (d : Device) (x v : Nat) : Device := windowWrite d x ⟨.warden, .whole, BitVec.ofNat 64 v⟩

/-- BEAT_SET (R27, R496). -/
def execBeatSet (s : State) : Host.Outcome State Fault Refusal :=
  boxRun 0x402 (fun d =>
    let k := param d 0 2
    let src := param d 2 1
    let en := param d 6 1
    let dv := param d 7 1
    if k < 10 || 400 < k || 1 < src || 1 < en || 15 < dv then reply d 3
    else
      let lock := regF d BEAT_CTL 63 1
      let d := wardenWrite (wardenWrite d BEAT_PHASE (param d 4 2)) BEAT_PERIOD k
      reply (wardenWrite d BEAT_CTL (src + 2 * en + 4 * dv + 2 ^ 63 * lock)) 0) s

/-- The system area takes the values of registers of the HUP_ block (R511). -/
def saveHup (d : Device) (l : List Nat) : Device :=
  updHup d fun h => { h with saved := l.foldl (fun m x => sput m x (reg d x)) h.saved }

/-- HUP_CONFIG (R496): the registers change as one, so a LOCK that the image of HUP_CFG sets comes last. -/
def execHupConfig (s : State) : Host.Outcome State Fault Refusal :=
  boxRun 0x500 (fun d =>
    let v := fun k => param d (8 * k) 8
    let d := wardenWrite (wardenWrite d HUP_STORE (v 1)) HUP_SCALE (v 2)
    let d := wardenWrite (wardenWrite d HUP_CHG (v 3)) HUP_DRAIN (v 4)
    reply (saveHup (wardenWrite d HUP_CFG (v 0)) [HUP_CFG, HUP_STORE, HUP_SCALE, HUP_CHG, HUP_DRAIN]) 0) s

/-- PWR_INFO (R496): package watts, hall temperatures, frequency limits. -/
def execPwrInfo (s : State) : Host.Outcome State Fault Refusal :=
  boxRun 0x401 (fun d =>
    let w := regF d PWR_STAT 0 10
    let t := regF d PWR_HALL 0 16
    let f := regF d PWR_HALL 16 12 + regF d PWR_HALL 28 12 * 2 ^ 16
    respond d 0 12 (w + t * 2 ^ 32 + f * 2 ^ 64)) s

end Sys2Proof.Machine
end

