-- ==== Sys2Proof/Machine/Firmware.lean ====
section
/-! DEFINITION. The boot flash, images and their verification, activation and castling, settings, recovery commands,
identity and attestation, and the Warden's hold-up commands (R434, R447, R496, R499 to R513). -/

namespace Sys2Proof.Machine

open Sys2Proof

/-! ### The boot flash (R499, R500) -/

/-- Serial-number comparison: whether `b` is newer than `a`. -/
def newer (a b : Nat) : Bool :=
  let n := (b + 2 ^ 32 - a % 2 ^ 32) % 2 ^ 32
  n != 0 && decide (n < 2 ^ 31)

/-- Whether the second copy is the record in force. -/
def recSecond (w : Warden) : Bool :=
  match w.rec0, w.rec1 with
  | some a, some b => newer a.seq b.seq
  | none, some _ => true
  | _, none => false

/-- The boot record in force; with no valid copy slot A is active and both slots are STAGED. -/
def bootRec (d : Device) : BootRecord :=
  match if recSecond d.warden then d.warden.rec1 else d.warden.rec0 with
  | some r => r
  | none => ⟨0, 0, false, 0, 1, 1, 0⟩

/-- A change of the boot record is written to the other copy. -/
def putRec (d : Device) (f : BootRecord → BootRecord) : Device :=
  let r := bootRec d
  let new := { f r with seq := (r.seq + 1) % 2 ^ 32 }
  let other := d.warden.rec0.isSome && !recSecond d.warden
  setReg (updWarden d fun w => if other then { w with rec1 := some new } else { w with rec0 := some new })
    WRD_STAT 4 1 (bitOf new.trial)

/-- The state of an image slot. -/
def slotState (r : BootRecord) (n : Nat) : Nat := if n = 0 then r.stateA else r.stateB
def setSlotState (r : BootRecord) (n st : Nat) : BootRecord :=
  if n = 0 then { r with stateA := st } else { r with stateB := st }

/-- The slot that is not active. -/
def idleSlot (d : Device) : Nat := 1 - (bootRec d).active

def slotData (d : Device) (n : Nat) : SlotData := if n = 0 then d.warden.slotA else d.warden.slotB
def setSlotData (d : Device) (n : Nat) (x : SlotData) : Device :=
  updWarden d fun w => if n = 0 then { w with slotA := x } else { w with slotB := x }

/-- Bytes of a slot. -/
def flashByte (x : SlotData) (k : Nat) : Byte :=
  match x with
  | .factory => Config.factoryImage[k]?.getD 0xff
  | .bytes inv => ~~~ mget inv k
def flashBytes (x : SlotData) (a n : Nat) : List Byte := (List.range n).map fun k => flashByte x (a + k)

/-- The complements of a slot's bytes. -/
def slotInv (x : SlotData) : List Host.Cell :=
  match x with
  | .factory => mwriteList [] 0 (Config.factoryImage.map (~~~ ·))
  | .bytes inv => inv

/-- Programs bytes of a slot, which is erased before its first ones. -/
def program (x : SlotData) (off : Nat) (l : List Byte) : SlotData :=
  .bytes (mwriteList (if off = 0 then [] else slotInv x) off (l.map (~~~ ·)))

/-- The 32 bytes of a boot record. -/
def recBytes (r : BootRecord) : List Byte :=
  let l := bytesOf 0x4252 2 ++ bytesOf 1 1 ++ bytesOf r.active 1 ++ bytesOf r.seq 4 ++ bytesOf (bitOf r.trial) 1 ++
    bytesOf r.attempts 1 ++ bytesOf r.stateA 1 ++ bytesOf r.stateB 1 ++ bytesOf r.revert 1 ++ bytesOf 0 15
  l ++ bytesOf (crc32c l) 4

/-! ### Images (R501) -/

/-- A field of an image, its header and payload, and its sections as type, offset and length. -/
def imgField (x : SlotData) (off n : Nat) : Nat := ofBytes (flashBytes x off n)
def imgPayload (x : SlotData) : Nat := min (2 ^ 23) (imgField x 0x18 8)
def imgSigned (x : SlotData) : List Byte := flashBytes x 0 (512 + imgPayload x)
def imgSections (x : SlotData) : List (Nat × Nat × Nat) :=
  (List.range (imgField x 6 2)).map fun k =>
    (imgField x (0x60 + 24 * k) 4, imgField x (0x68 + 24 * k) 8, imgField x (0x70 + 24 * k) 8)

/-- The bytes of the section of a type; none where the image has no such section. -/
def imgSection (x : SlotData) (t : Nat) : List Byte :=
  match (imgSections x).find? fun s => s.1 == t with
  | some s => flashBytes x (512 + s.2.1) s.2.2
  | none => []

/-- Check 1: header and length. -/
def headerOk (x : SlotData) : Bool :=
  imgField x 0 4 == 0x4f4c5646 && imgField x 4 2 == 1 && imgField x 0x15 3 == 0 && imgField x 0x59 7 == 0 &&
    imgField x 0x1e0 32 == 0 && decide (512 + imgPayload x + 114 ≤ 2 ^ 23)

/-- Check 2: sections. -/
def sectionsOk (x : SlotData) : Bool :=
  let n := imgField x 6 2
  let l := imgSections x
  decide (1 ≤ n) && decide (n ≤ 16) && l.all (fun s => decide (s.2.1 + s.2.2 ≤ imgPayload x)) &&
    [1, 2, 6].all (fun t => l.any fun s => s.1 == t) && l.all fun s => l.countP (fun y => y.1 == s.1) == 1

/-- Check 5: the signature. -/
def signatureOk (x : SlotData) : Bool :=
  edVerify true (asciiBytes "OLV-A64-FW") (flashBytes x 0x20 57) (imgSigned x) (flashBytes x (512 + imgPayload x) 114)

/-- The first check of R501 that an image fails; 0 where it passes. The image the part was made with fails no check but
the one on its security version (log entry 50). -/
def imageFault (d : Device) (n : Nat) : Nat :=
  let x := slotData d n
  let old := decide (imgField x 0x14 1 < d.warden.fuses)
  match x with
  | .factory => if old then 4 else 0
  | .bytes _ =>
    if !headerOk x then 1
    else if !sectionsOk x then 2
    else if sha3 (flashBytes x 0x20 57) != Config.rootKeyHash then 3
    else if old then 4
    else if !signatureOk x then 5 else 0

/-- M: the SHA3-512 digest of header and payload (R512). -/
def measureOf (d : Device) (n : Nat) : Nat := ofBytes (sha3x512 (imgSigned (slotData d n)))

/-- The measurement the ROM recorded when a slot last booted. -/
def recorded (d : Device) (n : Nat) : Option Nat := if n = 0 then d.warden.measA else d.warden.measB

/-- The words of an image's Desan kernel; an image without one leaves those that are loaded. -/
def kernelOf (d : Device) (x : SlotData) : Sparse InstrWord :=
  match x with
  | .factory => []
  | .bytes _ =>
    let l := imgSection x 2
    if l.isEmpty then d.warden.image.kernel
    else (List.range (min 0x800 (l.length / 4))).map fun k => (k, BitVec.ofNat 32 (ofBytes ((l.drop (4 * k)).take 4)))

/-- The image of a slot runs, and its measurement is recorded. -/
def runImage (d : Device) (n : Nat) : Device :=
  let x := slotData d n
  let m := measureOf d n
  updWarden d fun w => { w with
    image := ⟨imgField x 8 8, imgField x 0x14 1, imgField x 0x10 4, m, kernelOf d x⟩
    measA := if n = 0 then some m else w.measA
    measB := if n = 0 then w.measB else some m }

/-! ### Settings (R510, R511) -/

/-- A settings list as bytes. -/
def settingsBytes (x : Settings) : List Byte :=
  let l := x.pairs.flatMap fun p => bytesOf p.1 4 ++ bytesOf p.2.toNat 8
  bytesOf x.schema 4 ++ bytesOf x.pairs.length 4 ++ bytesOf (crc32c l) 4 ++ bytesOf 0 4 ++ l

/-- The list that bytes hold, if they hold one. -/
def parseSettings (l : List Byte) : Option Settings :=
  let n := ofBytes ((l.drop 4).take 4)
  let body := (l.drop 16).take (12 * n)
  if 512 < n || l.length < 16 + 12 * n || ofBytes ((l.drop 12).take 4) != 0 ||
      crc32c body != ofBytes ((l.drop 8).take 4)
  then none
  else some ⟨ofBytes (l.take 4), (List.range n).map fun k =>
    (ofBytes ((body.drop (12 * k)).take 4), BitVec.ofNat 64 (ofBytes ((body.drop (12 * k + 4)).take 8)))⟩

/-- The list in force, if a copy is valid. -/
def settingsNow (d : Device) : Option Settings :=
  let w := d.warden
  if w.set1Cur then w.set1.or w.set0 else w.set0.or w.set1

/-- A list goes to the older copy and becomes current; a failure of the flash leaves that copy invalid. -/
def putSettings (d : Device) (x : Settings) (ok : Bool) : Device :=
  let new := if ok then some x else none
  updWarden d fun w =>
    if w.set1Cur then { w with set0 := new, set1Cur := !ok } else { w with set1 := new, set1Cur := ok }

/-- A list of another schema, or none that is valid, is replaced with the image's own. -/
def checkSettings (d : Device) : Device :=
  let sch := d.warden.image.schema
  let same := match settingsNow d with
    | some x => x.schema == sch
    | none => false
  if same then d
  else
    let x := (parseSettings (imgSection (slotData d (bootRec d).active) 6)).getD ⟨sch, []⟩
    lifeNote (setReg (putSettings d x true) WRD_STAT 6 1 1) .settings 0 d.warden.image.version

/-- The Warden writes the pairs in list order. -/
def applySettings (d : Device) : Device :=
  match settingsNow d with
  | some x => x.pairs.foldl (fun d p => wardenWrite d (p.1 / 8 * 8) p.2.toNat) d
  | none => d

/-- SETTINGS_GET (R496). -/
def execSettingsGet (s : State) : Host.Outcome State Fault Refusal :=
  boxRun 0x203 (fun d =>
    let x := (settingsNow d).getD ⟨0, []⟩
    match x.pairs[param d 0 2]? with
    | some p => respond d 0 24 (x.schema + x.pairs.length * 2 ^ 32 + p.1 * 2 ^ 64 + p.2.toNat * 2 ^ 128)
    | none => reply d 3) s

/-- Bytes of the settings list that a bulk buffer holds. -/
def bulkSettings (d : Device) : Nat := 16 + 12 * (cohRead d (dmaAddr d + 4) 4).1

/-- SETTINGS_SET (R510): the list is read at its acceptance. -/
def execSettingsSet (s : State) : Host.Outcome State Fault Refusal :=
  boxRun 0x204 (fun d => withBulk d 16 fun d v =>
    let n := fieldN v 32 32
    if 512 < n then reply d 3
    else withBulk d (16 + 12 * n) fun d v =>
      if (parseSettings (bytesOf v (16 + 12 * n))).isNone then reply d 3 else goLongWith d v) s

/-- SETTINGS_SET ends. -/
def settingsEnd (d : Device) (i : Nat) (c : LongCmd) (flash : Bool) : Device :=
  match parseSettings (bytesOf c.data (16 + 12 * fieldN c.data 32 32)) with
  | some x => endLong (putSettings d x flash) i (if flash then 0 else 0x626) 0
  | none => endLong d i 3 0

/-! ### Firmware commands (R496, R502, R503) -/

/-- FW_INFO (R496, R509). -/
def execFwInfo (s : State) : Host.Outcome State Fault Refusal :=
  boxRun 0x200 (fun d =>
    let r := bootRec d
    let w := d.warden
    let staged := if slotState r (idleSlot d) = 1 then imgField (slotData d (idleSlot d)) 8 8 else 0
    respond d 0 32 (w.image.version + w.image.svn * 2 ^ 64 + w.fuses * 2 ^ 72 + r.active * 2 ^ 80 +
      bitOf r.trial * 2 ^ 88 + r.stateA * 2 ^ 96 + r.stateB * 2 ^ 104 + staged * 2 ^ 128 +
      Config.romVersion % 2 ^ 64 * 2 ^ 192)) s

/-- FW_STAGE (R502). -/
def execFwStage (s : State) : Host.Outcome State Fault Refusal :=
  boxRun 0x201 (fun d =>
    if (bootRec d).trial then reply d 0x613
    else if 1 < param d 4 1 || decide (2 ^ 23 < param d 0 4 + dmaLen d) then reply d 3
    else withBulk d (dmaLen d) fun d v => goLongWith d v) s

/-- FW_STAGE ends: a failure of the flash leaves what its chunk holds open. -/
def stageEnd (d : Device) (i : Nat) (c : LongCmd) (flash : Bool) : Device :=
  let n := idleSlot d
  let off := paramF c.params 0 4
  let f := drawFree d
  let l := bytesOf (if flash then c.data else Config.freeValue f.1) c.dmaLen
  let d := if flash then d else f.2
  let d := setSlotData d n (program (slotData d n) off l)
  let d := if off = 0 then putRec d fun r => setSlotState r n 0 else d
  if !flash then endLong d i 0x626 0
  else endLong (if paramF c.params 4 1 = 1 then putRec d fun r => setSlotState r n 1 else d) i 0 0

/-- FW_ACTIVATE (R502, R503): the copy phase begins. -/
def execFwActivate (s : State) : Host.Outcome State Fault Refusal :=
  boxRun 0x202 (fun d =>
    if (bootRec d).trial || pendingCmds d != 0 then reply d 0x613
    else if slotState (bootRec d) (idleSlot d) != 1 then reply d 0x623
    else goLong d) s

/-! ### The activation pause (R503 to R506) -/

/-- The place of the pending FW_ACTIVATE. -/
def activateAt (d : Device) : Option Nat := d.warden.longs.findIdx? fun c => c.op == 0x202

/-- The bit of HOLD of every engine that is not RETIRED. -/
def setHolds (d : Device) (v : Nat) : Device :=
  (List.finRange 256).foldl (fun d e =>
    if d.engines[e].run = .retired then d else setReg d (ENG_CTL e.val) 0 1 v) d

/-- The pause begins, with the REVERT cause that it serves, 0 for an activation. -/
def beginPause (d : Device) (cause : Nat) : Device :=
  updWarden (setHolds (setReg (lifeSave d) WRD_STAT 2 2 1) 1) fun w => { w with pause := some cause, trialOn := false }

/-- Every engine has come to rest. -/
def enginesHeld (d : Device) : Bool := (List.finRange 256).all fun e => d.engines[e].run != .running

/-- ACTIVE returns to the other slot, and the slot that was on trial is FAILED. -/
def castleBack (d : Device) (cause : Nat) : Device :=
  let n := (bootRec d).active
  let d := putRec d fun r => { setSlotState r n 3 with active := 1 - n, trial := false, revert := cause }
  lifeNote (setReg d WRD_STAT 7 1 1) .castling cause (imgField (slotData d n) 8 8)

/-- Whether a slot holds what the ROM measured when it last booted. -/
def measuredOk (d : Device) (n : Nat) : Bool := recorded d n == some (measureOf d n)

/-- The ROM enters recovery; what a REC_INFO shows as its cause is open. -/
def enterRecovery (d : Device) : Device :=
  let f := drawFree d
  updWarden (setReg (lifeSave f.2) WRD_STAT 2 2 2) fun w => { w with
    pause := none, recBytes := 0, recCause := Config.freeValue f.1 % 2 ^ 32 }

/-- Step 6: the firmware of the active slot runs, loads the kernel and the settings, and releases the engines. -/
def resumeService (d : Device) : Device :=
  let n := (bootRec d).active
  let d := runImage d n
  let k := d.warden.image.kernel
  let d := allEngines d fun _ x => if x.run == .held then loadKernel k x else x
  let d := applySettings (checkSettings d)
  let d := setReg (setHolds d 0) WRD_STAT 2 2 0
  lifeNote (updWarden d fun w => { w with pause := none, trialOn := (bootRec d).trial,
                                          flightsRun := false }) .activation n d.warden.image.version

/-- The event of the FW_ACTIVATE that is pending. -/
def activateDone (d : Device) (check : Nat) : Device :=
  match activateAt d with
  | some i => endLong d i (if check = 0 then 0 else 0x624) (d.warden.image.version + check * 2 ^ 64)
  | none => d

/-- The FW_ACTIVATE that is pending keeps the check its image failed. -/
def noteCheck (d : Device) (check : Nat) : Device :=
  updWarden d fun w => { w with longs := w.longs.map fun c => if c.op = 0x202 then { c with data := check } else c }

/-- Steps 4 to 6 of a pause. -/
def endPause (d : Device) (cause : Nat) : Device :=
  let check := if cause = 0 then imageFault d (bootRec d).active else 0
  if cause = 0 && check == 0 then activateDone (resumeService d) 0
  else
    let d := castleBack d (if cause = 0 then 1 else cause)
    if measuredOk d (bootRec d).active then activateDone (resumeService d) check
    else enterRecovery (noteCheck d check)

/-- ACTIVATION_PAUSE (R503, R504, R508): the copy phase is over and the pause begins; in a pause with every engine held,
the ROM restarts the Warden and service resumes. -/
def execActivationPause (s : State) : Host.Outcome State Fault Refusal :=
  act (whenRun fun d =>
    match d.warden.pause with
    | some cause => if enginesHeld d then endPause d cause else d
    | none =>
      if (activateAt d).isNone || paused d then d
      else
        let n := idleSlot d
        beginPause (putRec d fun r => { r with active := n, trial := true, attempts := 0 }) 0) s

/-- TRIAL_TIMER_EXPIRY (R506). -/
def execTrialTimerExpiry (s : State) : Host.Outcome State Fault Refusal :=
  act (whenRun fun d => if d.warden.trialOn && !paused d then beginPause d 2 else d) s

/-- Whether the running image has health flights that have not run in this trial. -/
def flightsDue (d : Device) : Bool :=
  !d.warden.flightsRun && !(imgSection (slotData d (bootRec d).active) 5).isEmpty

/-- HEALTH_CONFIRMATION (R505): the health flights have run, and every one has succeeded; `ok` says whether fuses can be
blown. -/
def execHealthConfirmation (ok : Bool) (s : State) : Host.Outcome State Fault Refusal :=
  act (whenRun fun d =>
    let svn := d.warden.image.svn
    if !(bootRec d).trial || paused d || flightsDue d then d
    else if decide (d.warden.fuses < svn) && !ok then
      let f := drawFree d
      postEvent f.2 ⟨Config.freeValue f.1 % 2 ^ 16, Config.freeValue f.1 / 2 ^ 16 % 2 ^ 16, 0x625, 0⟩
    else
      let d := updWarden d fun w => { w with fuses := max w.fuses svn, trialOn := false }
      putRec d fun r => { setSlotState r r.active 2 with trial := false }) s

/-! ### Recovery (R508, R509) -/

/-- REC_INFO (R509). -/
def execRecInfo (s : State) : Host.Outcome State Fault Refusal :=
  boxRun 0xa00 (fun d =>
    let r := bootRec d
    respond d 0 12 (d.warden.recCause + r.stateA * 2 ^ 32 + r.stateB * 2 ^ 40 + d.warden.recBytes * 2 ^ 64)) s

/-- REC_LOAD (R509): its first chunk, the one with OFFSET 0, erases slot A. -/
def execRecLoad (flash : Bool) (s : State) : Host.Outcome State Fault Refusal :=
  boxRun 0xa01 (fun d =>
    let off := param d 0 4
    let n := param d 4 4
    if n = 0 || 240 < n || decide (2 ^ 23 < off + n) then reply d 3
    else
      let f := drawFree d
      let d := if flash then d else f.2
      let l := bytesOf (if flash then param d 8 n else Config.freeValue f.1) n
      let d := updWarden (setSlotData d 0 (program (slotData d 0) off l)) fun w => { w with
        recBytes := if flash then (if off = 0 then n else w.recBytes + n) else w.recBytes }
      reply d (if flash then 0 else 0x626)) s

/-- REC_BOOT (R509). -/
def execRecBoot (s : State) : Host.Outcome State Fault Refusal := boxRun 0xa02 goLong s

/-! ### Identity and attestation (R512, R513) -/

/-- The seed of the alias key of the running image. -/
def aliasSeed (d : Device) : List Byte :=
  shake256 (bytesOf Config.deviceSecret.toNat 32 ++ bytesOf d.warden.image.measure 64) 57

/-- Answers a command with bytes in its bulk buffer, and their number. -/
def answerBytes (d : Device) (l : List Byte) : Device :=
  let st := bulkStatus d (dmaAddr d) (dmaLen d) l.length
  if st != 0 then reply d st else respond (bulkWrite d (dmaAddr d) l) 0 8 l.length

/-- ID_CERTS (R513). -/
def execIdCerts (s : State) : Host.Outcome State Fault Refusal :=
  boxRun 0x900 (fun d =>
    let w := d.warden.image
    let certs := Config.certChain ++ [Config.aliasCert w.measure w.svn w.version]
    if dmaLen d < 8192 then reply d 0x618
    else answerBytes d (certs.flatMap fun c => bytesOf c.length 4 ++ c)) s

/-- The report of ATTEST, without its signature. -/
def attestReport (d : Device) : List Byte :=
  let w := d.warden.image
  let p := param d 0x20 1
  let x := (settingsNow d).getD ⟨0, []⟩
  bytesOf (param d 0 0x20) 32 ++ bytesOf Config.romVersion 8 ++ bytesOf w.measure 64 ++ bytesOf w.svn 1 ++
    bytesOf w.version 8 ++ bytesOf d.warden.fuses 1 ++ recBytes (bootRec d) ++ bytesOf x.schema 4 ++
    bytesOf (sha3 (settingsBytes x)) 32 ++
    (if p < 64 && partExists d p then bytesOf (partDesc d (partNo p)) 128 else [])

/-- ATTEST (R513). -/
def execAttest (s : State) : Host.Outcome State Fault Refusal :=
  boxRun 0x901 (fun d =>
    let r := attestReport d
    answerBytes d (r ++ edSign false (asciiBytes "OLV-A64-ATT") (aliasSeed d) r)) s

/-! ### The window's setting (R434, R447) -/

/-- Whole GiB of a window image area. -/
def imageGib (pages : Nat) : Nat := ceilDiv pages 16384

/-- Whether a window lies in DRAM. -/
def windowFits (d : Device) (base pages : Nat) : Bool :=
  pages == 0 || decide (base + pages * 65536 ≤ 16 * chanCap d)

/-- The status with which a setting is refused. -/
def windowStatus (d : Device) (base pages : Nat) : Nat :=
  if base % 65536 != 0 || 262144 < pages || !windowFits d base pages then 3
  else if d.hup.kept then 0x613
  else if freeGib d + winGib d < imageGib pages then 0x629 else 0

/-- HUP_WINDOW (R434). -/
def execHupWindow (s : State) : Host.Outcome State Fault Refusal :=
  boxRun 0x501 (fun d =>
    let st := windowStatus d (param d 0 8) (param d 8 4)
    if st != 0 then reply d st else goLong d) s

/-- The window's pages are all dirty, and its image is empty. -/
def freshWindow (d : Device) : Device :=
  driveCleaner (updHup d fun h => { h with
    clean := [], order := [], records := [], mapClean := [], wants := [], image := [], imagePoison := []
    strict := if unprotected d then List.range (winPages d) else [] })

/-- HUP_WINDOW ends. -/
def windowEnd (d : Device) (i : Nat) (c : LongCmd) : Device :=
  let base := paramF c.params 0 8
  let pages := paramF c.params 8 4
  let st := windowStatus d base pages
  if st != 0 then endLong d i st 0
  else if base = winBase d && pages == winPages d then endLong d i 0 0
  else
    let d := setReg (setReg d HUP_WIN 16 36 (base / 65536)) HUP_LIMIT 0 19 pages
    let win := sput (sput d.hup.saved HUP_WIN (setField 0 16 36 (base / 65536))) HUP_LIMIT (setField 0 0 19 pages)
    let d := updHup d fun h => { h with saved := win }
    endLong (freshWindow d) i 0 0

/-- HUP_DISCARD (R447, R496): the image that was kept is dropped. -/
def execHupDiscard (s : State) : Host.Outcome State Fault Refusal :=
  boxRun 0x502 (fun d =>
    if !d.hup.kept then reply d 0x613
    else reply (freshWindow (setReg (updHup d fun h => { h with kept := false }) HUP_STAT 5 3 0)) 0) s

end Sys2Proof.Machine
end

