-- ==== Sys2Proof/Machine/Package.lean ====
section
/-! DEFINITION. Package, power and thermal control, debug and sideband, and the expiry of charged errors (R23, R24, R67,
R221, R312, R334, R383, R460, R550 to R574). -/

namespace Sys2Proof.Machine

open Sys2Proof

def updPkg (d : Device) (f : Package → Package) : Device := { d with pkg := f d.pkg }

/-! ### Frequency and voltage (R383, R564, R565) -/

/-- Whether a hall is the East hall, and the harts of a hall (R11, R12). -/
def isEast (h : Hall) : Bool := h == .east
def hallHarts (h : Hall) : List Hart := (List.finRange 128).filter fun k => decide (64 ≤ k.val) == isEast h

/-- Fields of PWR_HALL and the places in PWR_STAT of a hall. -/
def flimAt (h : Hall) : Nat := if isEast h then 28 else 16
def vddAt (h : Hall) : Nat := if isEast h then 50 else 40
def tjAt (h : Hall) : Nat := if isEast h then 8 else 0
def thermAt (h : Hall) : Nat := if isEast h then 12 else 11

def flim (d : Device) (h : Hall) : Nat := regF d PWR_HALL (flimAt h) 12
def setFlim (d : Device) (h : Hall) (v : Nat) : Device := setReg d PWR_HALL (flimAt h) 12 v
def hallTj (d : Device) (h : Hall) : Nat := regF d PWR_HALL (tjAt h) 8

/-- Whether a hall's regulator has been silent for 1 ms. -/
def vrSilent (d : Device) (h : Hall) : Bool := if isEast h then d.pkg.vrE else d.pkg.vrW

/-- The set point that a hall waits for; 0 for none. -/
def vrWaits (d : Device) (h : Hall) : Nat := if isEast h then d.pkg.setE else d.pkg.setW
def setWait (d : Device) (h : Hall) (v : Nat) : Device :=
  updPkg d fun p => if isEast h then { p with setE := v } else { p with setW := v }

/-- The frequency limit in MHz by the number of running harts in the hall. -/
def tableLimit (n : Nat) : Nat := if n ≤ 4 then 3000 else if n ≤ 16 then 2800 else if n ≤ 32 then 2600 else 2300

/-- Running harts of a hall at the last power-control interval. -/
def hallCount (d : Device) (h : Hall) : Nat := if isEast h then d.pkg.runE else d.pkg.runW

/-- The running harts of both halls are counted. -/
def countRunning (d : Device) : Device :=
  updPkg d fun p => { p with
    runW := (hallHarts .west).countP (awake d), runE := (hallHarts .east).countP (awake d) }

/-- The lowest of the three frequencies of a hart, and 800 MHz under a silent regulator. -/
def hartTarget (d : Device) (h : Hall) (k : Hart) : Nat :=
  let f := min d.harts[k].ceiling (min (tableLimit (hallCount d h)) (flim d h))
  if vrSilent d h then min 800 f else f

/-- The highest of some numbers. -/
def maxOf (l : List Nat) : Nat := l.foldl max 0

/-- The voltage of a hall in mV for a frequency in MHz, in steps of 5 mV. -/
def hallVolt (d : Device) (h : Hall) (f : Nat) : Nat :=
  let i := if isEast h then 1 else 0
  let band := hallTj d h / 25
  min 950 (max 650 (ceilDiv (max (Config.engVoltage i band) (Config.coreVoltage i (ceilDiv f 100) band)) 5 * 5))

/-- Harts of a hall run no faster than their targets, or at them. -/
def setFreqs (d : Device) (h : Hall) (rise : Bool) : Device :=
  (hallHarts h).foldl (fun d k =>
    let t := hartTarget d h k
    updHart (syncClock d k) k fun x => { x with freq := if rise then t else min x.freq t }) d

/-- A hall takes its targets: a voltage that must rise is raised first, and one that may fall is lowered after the
frequency. -/
def adjustHall (d : Device) (h : Hall) : Device :=
  if vrSilent d h then setFreqs d h false
  else
    let v := hallVolt d h (maxOf ((hallHarts h).map (hartTarget d h)))
    if regF d PWR_HALL (vddAt h) 10 < v then
      setWait (setReg (setFreqs d h false) PWR_HALL (vddAt h) 10 v) h v
    else if vrWaits d h != 0 then setFreqs d h false
    else setReg (setFreqs d h true) PWR_HALL (vddAt h) 10 v

/-- Both halls. -/
def adjust (d : Device) : Device := adjustHall (adjustHall d .west) .east

/-- A regulator answers. -/
def vrAnswers (d : Device) (h : Hall) : Device :=
  updPkg d fun p => if isEast h then { p with vrE := false } else { p with vrW := false }

/-- VOLTAGE_SET_POINT_REACHED (R564): the regulator reports the value that the hall waits for. -/
def execVoltageSetPointReached (hall : Hall) (mv : Nat) (s : State) : Host.Outcome State Fault Refusal :=
  act (whenReady fun d =>
    if vrWaits d hall = 0 || vrWaits d hall != mv then d
    else adjustHall (setWait (vrAnswers d hall) hall 0) hall) s

/-- VR_TIMEOUT (R565): no answer for 1 ms, or for 100 ms. -/
def execVrTimeout (hall : Hall) (ms100 : Bool) (s : State) : Host.Outcome State Fault Refusal :=
  act (whenReady fun d =>
    let d := adjustHall (updPkg d fun p => if isEast hall then { p with vrE := true } else { p with vrW := true }) hall
    if ms100 then fatalNow d 0 0 else d) s

/-- PWR_CEILING (R383, R496): the harts of the mask take a ceiling of 800 to 3,000 MHz in steps of 100. -/
def execPwrCeiling (s : State) : Host.Outcome State Fault Refusal :=
  boxRun 0x400 (fun d =>
    let m := param d 0 16
    let f := param d 0x10 2
    if f < 800 || 3000 < f || f % 100 != 0 then reply d 3
    else
      let d := (List.finRange 128).foldl (fun d k =>
        if m.testBit k.val then updHart d k fun x => { x with ceiling := f } else d) d
      reply (adjust d) 0) s

/-! ### The power loop (R566 to R569) -/

/-- The highest frequency that a running hart of a hall uses; f_lim where none runs. -/
def hallRun (d : Device) (h : Hall) : Nat :=
  let l := ((hallHarts h).filter (awake d)).map fun k => d.harts[k].freq
  if l.isEmpty then flim d h else maxOf l

/-- Whether a hall is throttled. -/
def hallThrottled (d : Device) (h : Hall) : Bool := throttled d (isEast h)

/-- A hall that is throttled goes on, or leaves throttle. -/
def throttleStep (d : Device) (h : Hall) : Device :=
  if regF d PWR_STAT (thermAt h) 1 = 0 then d
  else if 100 ≤ hallTj d h then setFlim d h (max 800 (flim d h - 100))
  else if hallTj d h ≤ 95 then setReg d PWR_STAT (thermAt h) 1 0
  else d

/-- PROCHOT_N is driven low while a hall is throttled for its temperature. -/
def drivePin (d : Device) : Device :=
  setReg d PWR_STAT 14 1 (bitOf (regF d PWR_STAT 11 1 == 1 || regF d PWR_STAT 12 1 == 1))

/-- The CAM rate that the registers ask for: the highest of the squares. -/
def paceRate (d : Device) : Nat := maxOf ((List.range 64).map fun t => regF d (CAM_PACE t) 0 5)

/-- A change of the loop's CAM rate, or of a throttle that limits it: credits are settled first (R220, R221). -/
def settleAll (d : Device) : Device := (List.finRange 64).foldl settleCredits d

def setCamRate (d : Device) (n : Nat) : Device := updPkg (settleAll d) fun p => { p with camRate := n }

/-- A package over its limit. -/
def loopDown (d : Device) : Device :=
  let low := fun d h => setFlim d h (max 800 (min (flim d h) (hallRun d h) - 100))
  let d' := low (low d .west) .east
  if flim d' .west = 800 && flim d' .east == 800 then setCamRate d' (max 4 (d.pkg.camRate - 2)) else d'

/-- A package well below its limit. -/
def loopUp (d : Device) : Device :=
  if d.pkg.camRate < paceRate d then setCamRate d (min (paceRate d) (d.pkg.camRate + 2))
  else [Hall.west, Hall.east].foldl (fun d h =>
    if hallThrottled d h then d else setFlim d h (min 3000 (flim d h + 100))) d

/-- Whether some limit is lower than it was. -/
def lowered (old new : Device) : Bool :=
  decide (flim new .west < flim old .west) || decide (flim new .east < flim old .east) ||
    decide (new.pkg.camRate < old.pkg.camRate)

/-- One run of the loop. -/
def powerLoop (d : Device) (watts : Nat) : Device :=
  let d0 := countRunning (settleAll d)
  let d := drivePin (throttleStep (throttleStep d0 .west) .east)
  let d := if d.pkg.prochotIn then d else setReg d PWR_STAT 13 1 0
  let lim := regF d PWR_CTL 0 8
  let d := if lim < watts then loopDown d else if watts + 10 < lim then loopUp d else d
  adjust (setReg (setReg d PWR_STAT 0 10 (min 1023 watts)) PWR_STAT 10 1 (bitOf (lowered d0 d)))

/-- POWER_LOOP (R23, R24, R566, R49): the mean package power of the interval in W, at ticks whose beat number is a
multiple of 1,000. -/
def execPowerLoop (watts : Nat) (s : State) : Host.Outcome State Fault Refusal :=
  act (whenRun fun d => if beatNow d % 1000 = 0 then powerLoop d watts else d) s

/-- HALL_POWER_CHECK (R567): the power that a hall's regulator reports. -/
def execHallPowerCheck (hall : Hall) (watts : Nat) (s : State) : Host.Outcome State Fault Refusal :=
  act (whenReady fun d =>
    let d := vrAnswers d hall
    if regF d PWR_CTL 8 8 < watts then
      adjustHall (setFlim d hall (max 800 (min (flim d hall) (hallRun d hall) - 300))) hall
    else d) s

/-- A hall at 100 degrees or more is throttled. -/
def heatStep (d : Device) (h : Hall) : Device :=
  if hallTj d h < 100 then d
  else adjustHall (setReg (setFlim d h (min 1200 (flim d h))) PWR_STAT (thermAt h) 1 1) h

/-- THERMAL_SENSOR_READ (R568, R570): the highest Tj of the halls and of the Foyer. -/
def execThermalSensorRead (tw te tf : Nat) (o : DrainEnv) (s : State) : Host.Outcome State Fault Refusal :=
  act (fun d =>
    if d.phase == .draining || d.phase == .persisted then d
    else
      let d := setReg (setReg (settleAll d) PWR_HALL 0 8 (min 255 tw)) PWR_HALL 8 8 (min 255 te)
      if 115 ≤ tw || 115 ≤ te || 115 ≤ tf then drainNow (updPkg d fun p => { p with thermtrip := true }) o
      else drivePin (heatStep (heatStep d .west) .east)) s

/-- PROCHOT_IN (R569): the platform has held PROCHOT_N low for 10 µs, or releases it. -/
def execProchotIn (low : Bool) (s : State) : Host.Outcome State Fault Refusal :=
  act (whenReady fun d =>
    if !low then updPkg d fun p => { p with prochotIn := false }
    else if regF d PWR_CTL 16 1 = 0 || regF d PWR_STAT 14 1 == 1 then d
    else
      let d := setReg (updPkg (settleAll d) fun p => { p with prochotIn := true }) PWR_STAT 13 1 1
      adjust ([Hall.west, Hall.east].foldl (fun d h => setFlim d h (min 1200 (flim d h))) d)) s

/-! ### Power and clock (R557, R558) -/

/-- PWROK_FALL (R557, R570): THERMTRIP_N is released, and a part that is not draining accepts PWRFAIL_N. -/
def execPwrokFall (o : DrainEnv) (s : State) : Host.Outcome State Fault Refusal :=
  act (fun d => drainNow (updPkg d fun p => { p with thermtrip := false }) o) s

/-- REFCLK_LOSS (R558): the backup oscillator takes over, every link goes down, and the part raises FATAL. -/
def execRefclkLoss (s : State) : Host.Outcome State Fault Refusal :=
  act (whenReady fun d =>
    if regF d PWR_STAT 15 1 = 1 then d
    else fatalNow (updPkg (setReg d PWR_STAT 15 1 1) fun p => { p with up := [], cxl := [] }) 0 0) s

/-- ROOT_PORT_LINK_CHANGE (R559): the link of a sub-port that exists comes up as PCIe or CXL, or goes down. -/
def execRootPortLinkChange (rp : RootPort) (ev : LinkEvent) (s : State) : Host.Outcome State Fault Refusal :=
  act (fun d =>
    let out := fun l => l.filter (· != rp.val)
    if !portExists d rp.val || d.pkg.perst || regF d PWR_STAT 15 1 == 1 then d
    else match ev with
      | .upPcie => updPkg d fun p => { p with up := insertNat p.up rp.val, cxl := out p.cxl }
      | .upCxl => updPkg d fun p => { p with up := insertNat p.up rp.val, cxl := insertNat p.cxl rp.val }
      | .down => updPkg d fun p => { p with up := out p.up, cxl := out p.cxl }) s

/-! ### Debug and sideband (R571, R572) -/

/-- What a TAP instruction captures: IDCODE, the zero of BYPASS, or the pins. -/
def tapCapture (d : Device) (ir : BitVec 5) : BitVec 32 × Device :=
  if ir = 1 then (0x0a06478b, d)
  else if ir = 2 ∨ ir = 0 ∨ ir = 0x10 then
    let f := drawFree d
    (BitVec.ofNat 32 (Config.freeValue f.1), f.2)
  else if ir = 0x11 then (d.pkg.dmi, d)
  else (0, d)

/-- JTAG_INSTRUCTION (R571): EXTEST is accepted only while RESET_N is low; an unlisted value acts as BYPASS. -/
def execJtagInstruction (ins : JtagIns) (s : State) : Host.Outcome State Fault Refusal :=
  act (fun d =>
    if ins.ir = 0 ∧ !ins.resetLow then d
    else
      let ir : BitVec 5 := if [0, 1, 2, 0x10, 0x11].contains ins.ir then ins.ir else 0x1f
      let r := tapCapture d ir
      updPkg r.2 fun p => { p with ir := ir, dmi := r.1 }) s

/-- DMI_ACCESS (R571): while DBG_EN is 0 a read returns 0 and a write is ignored; what the debug module answers is
otherwise open. -/
def execDmiAccess (addr data : BitVec 32) (wr : Bool) (s : State) : Host.Outcome State Fault Refusal :=
  act (fun d =>
    if regF d PWR_CTL 17 1 = 0 then (if wr then d else updPkg d fun p => { p with dmi := 0 })
    else if wr then updPkg d fun p => { p with debug := some (addr, data) }
    else
      let f := drawFree d
      updPkg f.2 fun p => { p with dmi := BitVec.ofNat 32 (Config.freeValue f.1) }) s

/-- I3C_GETSTATUS (R387, R563, R572): the vendor byte is the boot error code, and the channel number of a population or
training error goes with it (log entry 117). -/
def execI3cGetstatus (s : State) : Host.Outcome State Fault Refusal :=
  act (fun d => updPkg d fun p => { p with status := p.bootErr, statusChan := p.bootChan }) s

/-! ### Charges more than 24 hours old (R67, R312, R334, R460) -/

/-- ERROR_CHARGE_EXPIRY. -/
def execErrorChargeExpiry (k : ChargeKind) (s : State) : Host.Outcome State Fault Refusal :=
  act (whenReady fun d =>
    match k with
    | .halt e => updEng d e fun x => { x with halts24 := x.halts24 - 1 }
    | .dirty e => updEng d e fun x => { x with dirty24 := x.dirty24 - 1 }
    | .heal g => updPager d fun x => { x with healed := x.healed.filter (· != g) }
    | .mismatch c =>
      let r := RLE_ERR c.val
      setReg d r 32 2 (regF d r 32 2 - 1)) s

end Sys2Proof.Machine
end

