-- ==== Sys2Proof/Machine/Resets.lean ====
section
/-! DEFINITION. Cold and warm reset, start-up with the restore of the persistent window, and the end of long commands
(R28, R29, R205, R366, R374, R375, R387, R388, R401, R418, R447, R495, R500, R507 to R511, R546, R547, R559 to R563). -/

namespace Sys2Proof.Machine

open Sys2Proof

/-! ### What a reset leaves -/

/-- Every namespace is unattached (R418). -/
def unattach (l : Sparse Namespace) : Sparse Namespace := l.map fun n => (n.1, { n.2 with owner := none })

/-- The registers that a cold reset takes over from stored values: the ledger's state and health, the window's record
and, where RESET_N ends PERSISTED, the straps (R414, R547, R559). -/
def coldRegs (d : Device) (pwrok : Bool) : Sparse Dword :=
  let l := if pwrok then [] else [PWR_LINKCFG]
  let r := ((List.range 4).map LDG_HEALTH ++ l).foldl (fun m x => sput m x (reg d x)) []
  regSet r LDG_STAT 0 10 (regF d LDG_STAT 0 10)

/-- The part as a cold reset leaves it: registers at their Reset values, and what flash, fuses, the ledger and the
always-on domain hold. -/
def coldDevice (d : Device) (pwrok : Bool) : Device :=
  { resetDevice with
    freeCount := d.freeCount
    regs := coldRegs d pwrok
    ledger := { resetLedger with nss := unattach d.ledger.nss, media := d.ledger.media, lost := d.ledger.lost }
    hup := { resetHoldup with
      mapClean := d.hup.mapClean, image := d.hup.image, imagePoison := d.hup.imagePoison, volts := d.hup.volts
      amps := d.hup.amps, temp := d.hup.temp, coulombs := d.hup.coulombs, qcap := d.hup.qcap, saved := d.hup.saved
      progress := d.hup.progress, lost := d.hup.lost, outcome := d.hup.outcome }
    warden := { d.warden with
      longs := [], ended := [], image := resetWarden.image, trialOn := false, flightsRun := false, pause := none,
      recCause := 0, recBytes := 0 }
    life := { d.life with work := d.life.saved }
    harts := d.harts.map fun h => { resetHart with held := h.held }
    mesh := ⟨[], d.mesh.cut, d.mesh.ports⟩
    pkg := { resetPackage with thermtrip := d.pkg.thermtrip && !pwrok } }

/-- Fields of the Warm domain that keep their values across a warm reset: those that count since cold reset, and
DENIED_CNT (R546). -/
def keptFields (b : Blk) (off : Nat) : List (Nat × Nat) :=
  if off = 0x20 then [(16, 16)]
  else match b, off with
    | .eng, 0x60 => [(32, 16)]
    | .sieve, 0x48 => [(0, 64)]
    | .sieve, 0x50 => [(0, 64)]
    | .sieve, 0x58 => [(0, 64)]
    | .sieve, 0x60 => [(0, 64)]
    | .sieve, 0x68 => [(32, 16)]
    | .cam, 0xa0 => [(16, 16)]
    | .sch, 0x50 => [(0, 64)]
    | .pgr, 0x88 => [(16, 16), (32, 16)]
    | .mez, 0x40 => [(16, 16), (32, 16)]
    | .mez, 0x48 => [(16, 16), (32, 16)]
    | .mez, 0x50 => [(16, 16), (32, 16)]
    | .mez, 0x58 => [(16, 16), (32, 16)]
    | .mez, 0x60 => [(16, 16), (32, 16)]
    | .rle, 0x48 => [(0, 64)]
    | .rle, 0x50 => [(0, 64)]
    | .rle, 0x58 => [(16, 16)]
    | .dgst, 0xc8 => [(0, 64)]
    | _, _ => []

/-- A register's value after a warm reset (R546). -/
def warmReg (x : Nat) (v : Dword) : Dword :=
  match blkOf x with
  | none => v
  | some (b, _, off) =>
    if (blkInfo b).cold then v
    else (keptFields b off).foldl (fun r f => setField r f.1 f.2 (field v f.1 f.2)) (resetReg x)

def warmRegs (r : Sparse Dword) : Sparse Dword := r.map fun e => (e.1, warmReg e.1 e.2)

/-- Stores of the cores that are not performed. -/
def storesWaiting (d : Device) : Nat := (List.finRange 128).foldl (fun n h => n + d.harts[h].sb.length) 0

/-- A hart in a warm reset: its caches, its ceiling and its frequency stay. -/
def warmHart (h : HartState) : HartState :=
  { resetHart with held := h.held, lines := h.lines, freq := h.freq, ceiling := h.ceiling }

/-- An engine in a warm reset: its stores keep their bytes until the kernel is loaded again. -/
def warmEngine (x : Engine) : Engine :=
  { resetEngine with landing := x.landing, code := x.code, codeBad := x.codeBad }

/-- What is written to media in a warm reset: blocks of commands that will not complete stay in the write buffer. -/
def warmLedger (d : Device) : Ledger :=
  { d.ledger with
    nss := unattach d.ledger.nss
    staged := d.ledger.staged.map fun s => if s.done.isNone then { s with done := some d.accepted } else s }

/-- The part from the acceptance of RESET_N as low (R561). -/
def warmDevice (d : Device) : Device :=
  { d with
    phase := .warm
    regs := warmRegs d.regs
    beat := { d.beat with lastEdge := none, good := 0, toCorrect := 0, outAt := none }
    engines := d.engines.map warmEngine
    sched := resetSched
    mez := resetDevice.mez
    gal := d.gal.map fun g => { g with reqs := [], hits := 0, misses := 0 }
    banks := resetDevice.banks
    camSq := Vector.replicate 64 { resetSquare with since := d.cycle }
    sieves := resetDevice.sieves
    chans := d.chans.map fun c => { c with rdq := [], selfRefresh := true, quiet := false }
    mirrors := []
    harts := d.harts.map warmHart
    packageIdle := false
    queues := resetDevice.queues
    ledger := warmLedger d
    pager := resetPager
    hup := { d.hup with wants := [] }
    parts := resetDevice.parts
    codecs := resetDevice.codecs
    slots := resetDevice.slots
    warden := { d.warden with longs := [], ended := [], pause := none, trialOn := false }
    ras := { d.ras with msiSent := false, msiWaits := false, armed := [], snapWait := none, fatal := false }
    pkg := { d.pkg with camRate := 16, up := [], cxl := [], perst := true, portErr := [] } }

/-- WARM_RESET (R366, R529, R561, R562): stores that wait are discarded and counted, and the log is written first. -/
def warmReset (d : Device) : Device :=
  let n := storesWaiting d
  let d := formShadow d
  let d := lifeSave (lifeNote (lifeAdd (lifeAdd d 0 2 1) 0 3 n) .discarded 0 n)
  let d := setReg (setReg (setReg d PWR_RST_REC 0 2 2) PWR_RST_REC 8 32 (min (2 ^ 32 - 1) n)) BEAT_STAT 4 1 1
  warmDevice d

/-- Whether RESET_N takes effect: the part runs, is in recovery, or has failed to start. -/
def resettable (d : Device) : Bool :=
  match d.phase with
  | .run => true
  | .recovery => true
  | .startup => d.pkg.bootErr != 0
  | _ => false

def execWarmReset (s : State) : Host.Outcome State Fault Refusal :=
  act (fun d => if resettable d then warmReset d else d) s

/-! ### The ROM (R500, R501, R507, R508) -/

/-- The digits of a number below 256 in hexadecimal. -/
def hexDigit (n : Nat) : Byte := BitVec.ofNat 8 (if n < 10 then 48 + n else 55 + n)
def hexByte (n : Nat) : List Byte := [hexDigit (n / 16 % 16), hexDigit (n % 16)]

/-- A boot error is reported: the UART's text, with a channel or stack number where the code has one. -/
def bootError (d : Device) (code : Nat) (unit : Option Nat) : Device :=
  let tail := match unit with
    | some n => asciiBytes (" " ++ toString n)
    | none => []
  updPkg d fun p => { p with
    bootErr := code, bootChan := unit.getD 0, tx := p.tx ++ asciiBytes "A64 BOOT ERR " ++ hexByte code ++ tail }

/-- A cold start of a slot on trial counts an attempt; the third castles back. -/
def countAttempt (d : Device) : Device :=
  let r := bootRec d
  if !r.trial then d
  else if 3 ≤ r.attempts + 1 then castleBack d 3
  else putRec d fun r => { r with attempts := r.attempts + 1 }

/-- The slot that the ROM boots: the active one, or the other where that one fails a check; none where both do. -/
def bootSlot (d : Device) : Option Device :=
  let n := (bootRec d).active
  if imageFault d n = 0 then some d
  else if imageFault d (1 - n) = 0 then
    some (putRec d fun r => { setSlotState r n 3 with active := 1 - n, trial := false, revert := 1 })
  else none

/-- Both slots fail: the ROM enters recovery with the cores in reset. -/
def bootRecovery (d : Device) : Device :=
  enterRecovery { bootError d 0x10 none with phase := .recovery }

/-! ### Stored values (R445, R511, R530, R547) -/

/-- A stored register is loaded as it stands; HUP_LIMIT gives its page count alone. -/
def loadSaved (d : Device) : Device :=
  d.hup.saved.foldl (fun d e =>
    if e.1 = HUP_LIMIT then setReg d HUP_LIMIT 0 19 (field e.2 0 19) else updRegs d fun r => regPut r e.1 e.2) d

/-- The newest valid half of the mirror; an empty log where neither is valid. -/
def mirrorLast (l : Life) : LifeLog :=
  match if halfSeq l.half0 ≤ halfSeq l.half1 then l.half1.or l.half0 else l.half0 with
  | some h => h.2
  | none => ⟨[], []⟩

/-- The lifetime log is taken up, from the mirror where the system area cannot be read. -/
def loadLog (d : Device) (bad : Bool) : Device :=
  let d := if bad || ldgState d == 3 then
      setReg { d with life := { d.life with work := mirrorLast d.life } } LIFE_STAT 1 1 1
    else d
  showHours (lifeAdd d 0 1 1)

/-- Routers, links and Foyer ports that the log has retired are out of service. -/
def loadMesh (d : Device) : Device :=
  let gone := d.life.work.notes.filter fun n => n.kind == .router && n.val / 256 == 5
  let d : Device := { d with mesh := { d.mesh with ports := gone.foldl (fun l n => insertNat l n.item) [] } }
  let d := (d.life.work.notes.filter fun n => n.kind == .router).foldl (fun d n =>
    let b := n.val / 256
    let d := setReg d (MSH_STAT n.item) b 1 0
    match linkPeer n.item b with
    | some u => if b = 0 then d else setReg d (MSH_STAT u) (peerBit b) 1 0
    | none => d) d
  showServing d

/-- The ledger comes online: R547's values are loaded, and a drain that preceded is recorded. -/
def loadStored (d : Device) (bad : Bool) : Device :=
  let d := loadMesh (loadLog (loadSaved d) bad)
  let d := updRegs d fun r => regPut r HUP_DRAIN_REC d.hup.outcome
  let d := if d.pkg.drained then raiseEvent d 0x1e 0 0 0 none else d
  showCap (if ldgState d = 3 then bootError d 0x30 ((List.range 4).find? (stackFailed d)) else d)

/-! ### Self-tests, population and training (R375, R387, R401, R408) -/

/-- A hart whose self-test fails is out of service. -/
def retireHart (d : Device) (h : Hart) : Device :=
  if d.harts[h].held then d
  else lifeRetire (raiseEvent (updHart d h fun x => { x with held := true }) 0x17 h.val 0 0 none) .hart h.val 0x17

/-- A router whose self-test fails is out of service. -/
def retireRouter (d : Device) (t : Tile) : Device :=
  if !routerUp d t.val then d
  else lifeRetire (raiseEvent (setReg d (MSH_STAT t.val) 0 1 0) 0x14 t.val 0 0 none) .router t.val 0x14

/-- A channel that trains at DDR5-6400 only is DEGRADED. -/
def slowChan (d : Device) (c : Chan) : Device :=
  let d := setReg (setReg d (DRC_ERR c.val) 3 1 1) (DRC_STAT c.val) 0 2 2
  raiseEvent (updChan d c fun x => { x with slow := true }) 0x0f c.val 0 0 none

/-- Rows that post-package repair has replaced leave the repair list. -/
def repairRows (d : Device) (l : List (Chan × Nat)) : Device :=
  let keep := d.life.work.notes.filter fun n => !(n.kind == .row && l.any fun r => r.1.val == n.item && r.2 == n.val)
  { d with life := { d.life with work := { d.life.work with notes := keep } } }

/-- The channels are trained. -/
def trainChans (d : Device) (o : BootEnv) : Device := o.slow.foldl slowChan (repairRows d o.repaired)

/-! ### The persistent window (R447) -/

/-- Dirty pages that the drain did not copy: those above its last progress record, and those of a failed channel. -/
def lostPages (d : Device) : List Nat :=
  (List.range (winPages d)).filter fun pg =>
    !d.hup.mapClean.contains pg && (d.hup.lost.contains pg ||
      match d.hup.progress with
      | some k => decide (k < pg)
      | none => true)

/-- The image of a window in DRAM, and its poisoned lines. -/
def restoreWindow (d : Device) : Device :=
  let lost := lostPages d
  let base := winBase d
  let good := fun off => !lost.contains (off / 65536)
  let bad := lost.flatMap pageLines ++ d.hup.imagePoison.filter good
  let clean := (List.range (winPages d)).filter fun pg => !lost.contains pg
  let d : Device := { d with
    mem := (d.hup.image.filter fun c => good c.1).map fun c => (base + c.1, c.2)
    poison := bad.foldl (fun l off => insertNat l (base + off)) d.poison }
  let d := updHup d fun h => { h with clean := clean, mapClean := clean, progress := none, lost := [] }
  let d := setReg d HUP_DRAIN_REC 21 19 lost.length
  if lost.isEmpty then d else lifeNote d .drain 16 lost.length

/-- The restore of a cold start; it is skipped, and the image kept, where it cannot be made. -/
def restoreStep (d : Device) : Device :=
  let keep := fun n => setReg (updHup d fun h => { h with kept := true }) HUP_STAT 5 3 n
  if winPages d = 0 then d
  else if ldgState d = 3 then keep 2
  else if !windowFits d (winBase d) (winPages d) then keep 1
  else restoreWindow d

/-! ### The cores run (R29, R374, R510, R563) -/

/-- The firmware has the kernel and the settings loaded, the generator started, and the cores released. -/
def release (d : Device) : Device :=
  let boot := Config.bootSection (imgSection (slotData d (bootRec d).active) 3)
  let k := d.warden.image.kernel
  let d := allEngines (setHolds d 0) fun _ x => loadKernel k x
  let d := updBeat d fun b => { b with lastTick := d.cycle, length := activeP d }
  let d := applySettings (checkSettings { d with phase := .run })
  let d := allHarts d fun h => { h with
    pc := boot.1, mode := .machine, idle := .running, since := d.cycle, clockAt := d.cycle }
  adjust (updPkg (countRunning d) fun p => { p with bootDone := true, bootErr := if p.bootErr = 0x30 then 0x30 else 0 })

/-- The core boot code is at its load address. -/
def loadBootCode (d : Device) : Device :=
  let boot := Config.bootSection (imgSection (slotData d (bootRec d).active) 3)
  { d with mem := mwriteList d.mem boot.2.1 boot.2.2 }

/-! ### The DIMMs (R386, R387) -/

/-- GiB of a rank of 16 data devices by density code. -/
def rankGib (density : Nat) : Nat :=
  match density with
  | 0 => 32
  | 1 => 48
  | 2 => 64
  | _ => 128

/-- Whether a channel's DIMMs, as DRC_CFG shows them, are an organisation that R386 supports. -/
def dimmsOk (v : BitVec 18) : Bool :=
  let n := fieldN v.toNat 0 2
  let r := fieldN v.toNat 2 2
  let g := fieldN v.toNat 4 3
  (n == 1 || n == 2) && (r == 1 || r == 2) && decide (g ≤ 3) && decide (r * rankGib g ≤ 256) &&
    fieldN v.toNat 8 10 == n * r * rankGib g

/-- The first channel that is empty, unsupported or unlike channel 0. -/
def popFault (o : BootEnv) : Option Chan :=
  (List.finRange 16).find? fun c =>
    o.badPop == some c || !dimmsOk o.spd[c] || fieldN o.spd[c].toNat 0 7 != fieldN o.spd[0].toNat 0 7

/-- DRC_CFG of a channel shows what start-up found; its reserved bit stays 0 (R9). -/
def showDimms (d : Device) (o : BootEnv) (c : Chan) : Device :=
  setReg (setReg d (DRC_CFG c.val) 0 7 (fieldN o.spd[c].toNat 0 7)) (DRC_CFG c.val) 8 10 (fieldN o.spd[c].toNat 8 10)

/-- Start-up from the firmware's start: a step that fails stops it. -/
def startRest (d : Device) (o : BootEnv) : Device :=
  let d := loadStored (updPkg d fun p => { p with perst := false }) o.logBad
  match popFault o with
  | some c => bootError d 0x21 (some c.val)
  | none =>
    let d := (List.finRange 16).foldl (fun d c => showDimms d o c) d
    let d := o.badRouters.foldl retireRouter (o.badHarts.foldl retireHart d)
    match o.badTrain with
    | some c => bootError d 0x22 (some c.val)
    | none => release (loadBootCode (restoreStep (trainChans (showServing d) o)))

/-- The image of the slot that boots runs, and TRIAL shows. -/
def startImage (d : Device) : Device :=
  setReg (runImage d (bootRec d).active) WRD_STAT 4 1 (bitOf (bootRec d).trial)

/-- A cold start. -/
def coldStart (d : Device) (o : BootEnv) : Device :=
  let drained := regF d HUP_STAT 0 2 != 0
  let d := updPkg (coldDevice d o.pwrok) fun p => { p with drained := drained }
  let d := setReg d PWR_RST_REC 0 2 (if o.pwrok then 0 else 1)
  let d := if o.pwrok then setReg d PWR_LINKCFG 0 24 o.straps.toNat else d
  match bootSlot (countAttempt d) with
  | none => bootRecovery (countAttempt d)
  | some d =>
    let d := startRest (startImage d) o
    updWarden d fun w => { w with trialOn := (bootRec d).trial && d.phase == .run }

/-- Whether a cold reset can take place: PWROK can rise before the first start-up, after one that stopped and after a
drain; RESET_N counts once PERSIST_DONE is 1. -/
def coldAllowed (d : Device) (pwrok : Bool) : Bool :=
  match d.phase with
  | .startup => pwrok
  | .persisted => pwrok || d.hup.persistDone
  | _ => false

/-- COLD_RESET (R560, R563). -/
def execColdReset (o : BootEnv) (s : State) : Host.Outcome State Fault Refusal :=
  act (fun d => if coldAllowed d o.pwrok then coldStart d o else d) s

/-- What is left of a start-up once the ROM has an image: all of it, or after a warm reset the channels' exit from
self-refresh and the release. -/
def startOrResume (d : Device) (o : BootEnv) : Device :=
  let d := startImage d
  if !d.pkg.bootDone then startRest d o
  else release { updPkg d (fun p => { p with perst := false }) with
    chans := d.chans.map fun c => { c with selfRefresh := false } }

/-- WARM_RESET_RELEASE (R561 to R563): RESET_N rises. -/
def execWarmResetRelease (o : BootEnv) (s : State) : Host.Outcome State Fault Refusal :=
  act (fun d =>
    if d.phase != .warm then d
    else match bootSlot d with
      | none => bootRecovery d
      | some d => startOrResume { d with phase := .startup } o) s

/-! ### The end of long commands (R495) -/

/-- REC_BOOT ends (R509): slot A is verified and boots on trial. -/
def recBootEnd (d : Device) (i : Nat) (o : BootEnv) : Device :=
  let check := imageFault d 0
  if !inRecovery d then endLong d i 0x613 0
  else if check != 0 then endLong d i 0x624 (check * 2 ^ 64)
  else
    let d := putRec d fun r => { r with active := 0, trial := true, attempts := 0 }
    if d.phase == .run then
      let last := (d.warden.longs.find? fun c => c.op == 0x202).elim 0 (·.data)
      let d := resumeService (endLong d i 0 d.warden.image.version)
      activateDone d last
    else
      let d := endLong { setReg d WRD_STAT 2 2 0 with phase := .startup } i 0 (imgField (slotData d 0) 8 8)
      let d := startOrResume (updPkg d fun p => { p with bootErr := 0 }) o
      updWarden d fun w => { w with trialOn := d.phase == .run }

/-- What a long command does at its end. -/
def longEnd (d : Device) (i : Nat) (c : LongCmd) (o : EndEnv) : Device :=
  match c.op with
  | 0x101 => destroyEnd d i c
  | 0x102 => enginesEnd d i c
  | 0x103 => freezeEnd d i c
  | 0x105 => saveEnd d i c
  | 0x106 => restoreEnd d i c
  | 0x201 => stageEnd d i c o.flash
  | 0x202 => if o.flash || paused d then d else endLong d i 0x626 0
  | 0x204 => settingsEnd d i c o.flash
  | 0x301 => nsDeleteEnd d i c
  | 0x501 => windowEnd d i c
  | 0x601 => snapReadEnd d i c
  | 0x700 => lifeReadEnd d i c
  | 0x701 => lifeMirrorEnd d i o.flash
  | 0xa02 => recBootEnd d i o.boot
  | _ => d

/-- LONG_COMMAND_END (R495): the long command at index `i` ends, if what it waits for has come about. During a pause
or recovery the firmware ends none. -/
def execLongCommandEnd (i : Nat) (o : EndEnv) (s : State) : Host.Outcome State Fault Refusal :=
  act (whenReady fun d =>
    match d.warden.longs[i]? with
    | none => d
    | some c => if paused d && c.op != 0xa02 then d else longEnd d i c o) s

end Sys2Proof.Machine
end

