-- ==== Sys2Proof/Machine/Scalar.lean ====
section
/-! DEFINITION. Scalar arithmetic, immediates and extracts (R98 to R100). -/

namespace Sys2Proof.Machine

open Sys2Proof

/-- rd := a function of rs1 and rs2. -/
def aluS (e : Eng) (i : Instr) (f : SForm) (g : Dword → Dword → Dword) (s : State) :
    Host.Outcome State Fault Refusal :=
  runEng e i (fun x => adv (setS x f.rd (g (getS x f.rs1) (getS x f.rs2)))) s

/-- rd := a function of rs1 and imm16. -/
def aluI (e : Eng) (i : Instr) (f : IForm) (g : Dword → BitVec 16 → Dword) (s : State) :
    Host.Outcome State Fault Refusal :=
  runEng e i (fun x => adv (setS x f.rd (g (getS x f.rs1) f.imm))) s

/-- Signed division of R98 and R99: all ones for a zero divisor. -/
def divS (a b : Dword) : Dword := if b = 0 then BitVec.allOnes 64 else a.sdiv b
def divU (a b : Dword) : Dword := if b = 0 then BitVec.allOnes 64 else a / b
/-- Remainders of R98 and R99: the dividend for a zero divisor. -/
def remS (a b : Dword) : Dword := if b = 0 then a else a.srem b
def remU (a b : Dword) : Dword := if b = 0 then a else a % b

/-- The shift amount rs2[5:0]. -/
def sh6 (b : Dword) : Nat := (b.setWidth 6).toNat

/-- ADD (R98). -/
def execAdd (e : Eng) (f : SForm) (s : State) : Host.Outcome State Fault Refusal :=
  aluS e (.add e f) f (fun a b => a + b) s

/-- SUB (R98). -/
def execSub (e : Eng) (f : SForm) (s : State) : Host.Outcome State Fault Refusal :=
  aluS e (.sub e f) f (fun a b => a - b) s

/-- AND (R98). -/
def execAndOp (e : Eng) (f : SForm) (s : State) : Host.Outcome State Fault Refusal :=
  aluS e (.andOp e f) f (fun a b => a &&& b) s

/-- OR (R98). -/
def execOrOp (e : Eng) (f : SForm) (s : State) : Host.Outcome State Fault Refusal :=
  aluS e (.orOp e f) f (fun a b => a ||| b) s

/-- XOR (R98). -/
def execXor (e : Eng) (f : SForm) (s : State) : Host.Outcome State Fault Refusal :=
  aluS e (.xor e f) f (fun a b => a ^^^ b) s

/-- ANDN (R98). -/
def execAndn (e : Eng) (f : SForm) (s : State) : Host.Outcome State Fault Refusal :=
  aluS e (.andn e f) f (fun a b => a &&& ~~~b) s

/-- SLL (R98). -/
def execSll (e : Eng) (f : SForm) (s : State) : Host.Outcome State Fault Refusal :=
  aluS e (.sll e f) f (fun a b => a <<< sh6 b) s

/-- SRL (R98). -/
def execSrl (e : Eng) (f : SForm) (s : State) : Host.Outcome State Fault Refusal :=
  aluS e (.srl e f) f (fun a b => a >>> sh6 b) s

/-- SRA (R98). -/
def execSra (e : Eng) (f : SForm) (s : State) : Host.Outcome State Fault Refusal :=
  aluS e (.sra e f) f (fun a b => a.sshiftRight (sh6 b)) s

/-- SLT (R98). -/
def execSlt (e : Eng) (f : SForm) (s : State) : Host.Outcome State Fault Refusal :=
  aluS e (.slt e f) f (fun a b => flag64 (a.slt b)) s

/-- SLTU (R98). -/
def execSltu (e : Eng) (f : SForm) (s : State) : Host.Outcome State Fault Refusal :=
  aluS e (.sltu e f) f (fun a b => flag64 (decide (a < b))) s

/-- MIN (R98). -/
def execMin (e : Eng) (f : SForm) (s : State) : Host.Outcome State Fault Refusal :=
  aluS e (.min e f) f (fun a b => smin a b) s

/-- MAX (R98). -/
def execMax (e : Eng) (f : SForm) (s : State) : Host.Outcome State Fault Refusal :=
  aluS e (.max e f) f (fun a b => smax a b) s

/-- MINU (R98). -/
def execMinu (e : Eng) (f : SForm) (s : State) : Host.Outcome State Fault Refusal :=
  aluS e (.minu e f) f (fun a b => umin a b) s

/-- MAXU (R98). -/
def execMaxu (e : Eng) (f : SForm) (s : State) : Host.Outcome State Fault Refusal :=
  aluS e (.maxu e f) f (fun a b => umax a b) s

/-- CLZ (R98). -/
def execClz (e : Eng) (f : SForm) (s : State) : Host.Outcome State Fault Refusal :=
  aluS e (.clz e f) f (fun a _ => BitVec.ofNat 64 (leadingZeros a)) s

/-- CTZ (R98). -/
def execCtz (e : Eng) (f : SForm) (s : State) : Host.Outcome State Fault Refusal :=
  aluS e (.ctz e f) f (fun a _ => BitVec.ofNat 64 (trailingZeros a)) s

/-- POPC (R98). -/
def execPopc (e : Eng) (f : SForm) (s : State) : Host.Outcome State Fault Refusal :=
  aluS e (.popc e f) f (fun a _ => BitVec.ofNat 64 (popCount a)) s

/-- MUL (R98). -/
def execMul (e : Eng) (f : SForm) (s : State) : Host.Outcome State Fault Refusal :=
  aluS e (.mul e f) f (fun a b => a * b) s

/-- MULH (R98). -/
def execMulh (e : Eng) (f : SForm) (s : State) : Host.Outcome State Fault Refusal :=
  aluS e (.mulh e f) f (fun a b => mulHigh a b) s

/-- MULHU (R98). -/
def execMulhu (e : Eng) (f : SForm) (s : State) : Host.Outcome State Fault Refusal :=
  aluS e (.mulhu e f) f (fun a b => mulHighU a b) s

/-- DIV (R99). -/
def execDiv (e : Eng) (f : SForm) (s : State) : Host.Outcome State Fault Refusal :=
  aluS e (.div e f) f (fun a b => divS a b) s

/-- DIVU (R99). -/
def execDivu (e : Eng) (f : SForm) (s : State) : Host.Outcome State Fault Refusal :=
  aluS e (.divu e f) f (fun a b => divU a b) s

/-- REM (R99). -/
def execRem (e : Eng) (f : SForm) (s : State) : Host.Outcome State Fault Refusal :=
  aluS e (.rem e f) f (fun a b => remS a b) s

/-- REMU (R99). -/
def execRemu (e : Eng) (f : SForm) (s : State) : Host.Outcome State Fault Refusal :=
  aluS e (.remu e f) f (fun a b => remU a b) s

/-- ADDI (R100). -/
def execAddi (e : Eng) (f : IForm) (s : State) : Host.Outcome State Fault Refusal :=
  aluI e (.addi e f) f (fun a i => a + sext16 i) s

/-- ANDI (R100). -/
def execAndi (e : Eng) (f : IForm) (s : State) : Host.Outcome State Fault Refusal :=
  aluI e (.andi e f) f (fun a i => a &&& i.setWidth 64) s

/-- ORI (R100). -/
def execOri (e : Eng) (f : IForm) (s : State) : Host.Outcome State Fault Refusal :=
  aluI e (.ori e f) f (fun a i => a ||| i.setWidth 64) s

/-- XORI (R100). -/
def execXori (e : Eng) (f : IForm) (s : State) : Host.Outcome State Fault Refusal :=
  aluI e (.xori e f) f (fun a i => a ^^^ i.setWidth 64) s

/-- SLTI (R100). -/
def execSlti (e : Eng) (f : IForm) (s : State) : Host.Outcome State Fault Refusal :=
  aluI e (.slti e f) f (fun a i => flag64 (a.slt (sext16 i))) s

/-- SLTIU (R100). -/
def execSltiu (e : Eng) (f : IForm) (s : State) : Host.Outcome State Fault Refusal :=
  aluI e (.sltiu e f) f (fun a i => flag64 (decide (a < sext16 i))) s

/-- LUI (R100). -/
def execLui (e : Eng) (f : IForm) (s : State) : Host.Outcome State Fault Refusal :=
  aluI e (.lui e f) f (fun _ i => sext16 i <<< 16) s

/-- SLLI (R100). -/
def execSlli (e : Eng) (f : ShForm) (s : State) : Host.Outcome State Fault Refusal :=
  runEng e (.slli e f) (fun x => adv (setS x f.rd (getS x f.rs1 <<< f.sh.toNat))) s

/-- SRLI (R100). -/
def execSrli (e : Eng) (f : ShForm) (s : State) : Host.Outcome State Fault Refusal :=
  runEng e (.srli e f) (fun x => adv (setS x f.rd (getS x f.rs1 >>> f.sh.toNat))) s

/-- SRAI (R100). -/
def execSrai (e : Eng) (f : ShForm) (s : State) : Host.Outcome State Fault Refusal :=
  runEng e (.srai e f) (fun x => adv (setS x f.rd ((getS x f.rs1).sshiftRight f.sh.toNat))) s

/-- The field of EXT: `len + 1` bits of rs1 from bit `pos`, zero-extended (R100). -/
def extField (a : Dword) (pos len : BitVec 6) : Dword :=
  (a >>> pos.toNat) &&& BitVec.ofNat 64 (2 ^ (len.toNat + 1) - 1)

/-- The same field sign-extended from its top bit. -/
def extsField (a : Dword) (pos len : BitVec 6) : Dword :=
  ((a >>> pos.toNat) <<< (63 - len.toNat)).sshiftRight (63 - len.toNat)

/-- EXT (R100). -/
def execExt (e : Eng) (f : ExtForm) (s : State) : Host.Outcome State Fault Refusal :=
  runEng e (.ext e f) (fun x => adv (setS x f.rd (extField (getS x f.rs1) f.pos f.len))) s

/-- EXTS (R100). -/
def execExts (e : Eng) (f : ExtForm) (s : State) : Host.Outcome State Fault Refusal :=
  runEng e (.exts e f) (fun x => adv (setS x f.rd (extsField (getS x f.rs1) f.pos f.len))) s

end Sys2Proof.Machine
end

