-- ==== Sys2Proof/Machine/Tick.lean ====
section
/-! DEFINITION. The tick (R28, R48, R525, R527). -/

namespace Sys2Proof.Machine

open Sys2Proof

/-- Lines in which bits have flipped. -/
def addFlips (l : Sparse Nat) (fs : List LineFlip) (held : Nat → Bool) : Sparse Nat :=
  fs.foldl (fun l f =>
    let a := lineOf f.line
    if f.bits != 0 && held a then sput l a (sget l a 0 + f.bits) else l) l

/-- Bits that have flipped in DRAM and in the gallery since the last tick (R341, R396; log entry 114). -/
def flipLines (d : Device) (sel : TickChoice) : Device :=
  { d with
    flips := addFlips d.flips sel.dram (inDram d)
    galFlips := addFlips d.galFlips sel.gal fun a => (galFind d.gal[homeOf d a] a).isSome }

/-- The MSIs that came due while a partition was frozen follow its resumption (R279, R483). -/
def sendAllDue (d : Device) : Device :=
  (List.finRange 64).foldl (fun d p => if partRuns d p then sendDue d p else d) d

/-- The save areas follow the threads that the tick has left (R249). -/
def settleAreas (d : Device) : Device :=
  (List.finRange 64).foldl (fun d p => if partRuns d p then settleSaves d p else d) d

/-- One tick: its count, what is sampled of the beat that ends, and the actions that follow. -/
def beatTick (d : Device) (sel : TickChoice) : Device :=
  let d := flipLines d sel
  let b := activeP d
  let ended := beatNow d
  let d := tickCount (tickSnapshots (tickSamples d ended) (ended + 1))
  sendAllDue (settleAreas (tickActions d b (beatNow d) sel))

/-- BEAT_TICK (R48). -/
def execBeatTick (sel : TickChoice) (s : State) : Host.Outcome State Fault Refusal :=
  act (whenRun fun d => beatTick d sel) s

end Sys2Proof.Machine
end

