-- ==== Sys2Proof/Machine/VecArith.lean ====
section
/-! DEFINITION. Lane and pair arithmetic, hash and bit counts (R138 to R140). -/

namespace Sys2Proof.Machine

open Sys2Proof

/-- A two-operand lane operation: AND validity (R124). -/
def laneOp2 (e : Eng) (i : Instr) (f : VForm) (g : Cell → Cell → Cell) (s : State) :
    Host.Outcome State Fault Refusal :=
  runEng e i (fun x =>
    adv (putLanes x f.vd (active x f) (fun k => g (src1 x f k) (src2 x f k))
      (fun k => ok1 x f k && ok2 x f k))) s

/-- A one-operand lane operation. -/
def laneOp1 (e : Eng) (i : Instr) (f : VForm) (g : Cell → Cell) (s : State) :
    Host.Outcome State Fault Refusal :=
  runEng e i (fun x =>
    adv (putLanes x f.vd (active x f) (fun k => g (src1 x f k)) (ok1 x f))) s

/-- A two-operand pair operation (R122, R140). -/
def pairOp2 (e : Eng) (i : Instr) (f : VForm) (g : Wide → Wide → Wide) (s : State) :
    Host.Outcome State Fault Refusal :=
  runEng e i (fun x =>
    adv (putPairs x f.vd (pairActive x f) (fun k => g (psrc1 x f k) (psrc2 x f k))
      (fun k => pok1 x f k && pok2 x f k))) s

/-- The shift amount src2[5:0] of a lane. -/
def laneSh (b : Cell) : Nat := (b.setWidth 6).toNat

/-- |a| modulo 2^40; −2^39 stays (R138). -/
def laneAbs (a : Cell) : Cell := if a.slt 0 then 0 - a else a

/-- The mix of R139. -/
def vhash (a s : Cell) : Cell :=
  let x0 := a ^^^ s
  let x1 := x0 ^^^ (x0 >>> 21)
  let x2 := x1 * 0xD6E8FEB867
  let x3 := x2 ^^^ (x2 >>> 19)
  let x4 := x3 * 0x8CA5B31F2D
  x4 ^^^ (x4 >>> 23)

/-- VADD (R138). -/
def execVadd (e : Eng) (f : VForm) (s : State) : Host.Outcome State Fault Refusal :=
  laneOp2 e (.vadd e f) f (fun a b => a + b) s

/-- VSUB (R138). -/
def execVsub (e : Eng) (f : VForm) (s : State) : Host.Outcome State Fault Refusal :=
  laneOp2 e (.vsub e f) f (fun a b => a - b) s

/-- VMUL (R138). -/
def execVmul (e : Eng) (f : VForm) (s : State) : Host.Outcome State Fault Refusal :=
  laneOp2 e (.vmul e f) f (fun a b => a * b) s

/-- VMULH (R138). -/
def execVmulh (e : Eng) (f : VForm) (s : State) : Host.Outcome State Fault Refusal :=
  laneOp2 e (.vmulh e f) f (fun a b => mulHigh a b) s

/-- VMULHU (R138). -/
def execVmulhu (e : Eng) (f : VForm) (s : State) : Host.Outcome State Fault Refusal :=
  laneOp2 e (.vmulhu e f) f (fun a b => mulHighU a b) s

/-- VMIN (R138). -/
def execVmin (e : Eng) (f : VForm) (s : State) : Host.Outcome State Fault Refusal :=
  laneOp2 e (.vmin e f) f (fun a b => smin a b) s

/-- VMAX (R138). -/
def execVmax (e : Eng) (f : VForm) (s : State) : Host.Outcome State Fault Refusal :=
  laneOp2 e (.vmax e f) f (fun a b => smax a b) s

/-- VMINU (R138). -/
def execVminu (e : Eng) (f : VForm) (s : State) : Host.Outcome State Fault Refusal :=
  laneOp2 e (.vminu e f) f (fun a b => umin a b) s

/-- VMAXU (R138). -/
def execVmaxu (e : Eng) (f : VForm) (s : State) : Host.Outcome State Fault Refusal :=
  laneOp2 e (.vmaxu e f) f (fun a b => umax a b) s

/-- VAND (R138). -/
def execVand (e : Eng) (f : VForm) (s : State) : Host.Outcome State Fault Refusal :=
  laneOp2 e (.vand e f) f (fun a b => a &&& b) s

/-- VOR (R138). -/
def execVor (e : Eng) (f : VForm) (s : State) : Host.Outcome State Fault Refusal :=
  laneOp2 e (.vor e f) f (fun a b => a ||| b) s

/-- VXOR (R138). -/
def execVxor (e : Eng) (f : VForm) (s : State) : Host.Outcome State Fault Refusal :=
  laneOp2 e (.vxor e f) f (fun a b => a ^^^ b) s

/-- VANDN (R138). -/
def execVandn (e : Eng) (f : VForm) (s : State) : Host.Outcome State Fault Refusal :=
  laneOp2 e (.vandn e f) f (fun a b => a &&& ~~~b) s

/-- VSLL (R138). -/
def execVsll (e : Eng) (f : VForm) (s : State) : Host.Outcome State Fault Refusal :=
  laneOp2 e (.vsll e f) f (fun a b => a <<< laneSh b) s

/-- VSRL (R138). -/
def execVsrl (e : Eng) (f : VForm) (s : State) : Host.Outcome State Fault Refusal :=
  laneOp2 e (.vsrl e f) f (fun a b => a >>> laneSh b) s

/-- VSRA (R138). -/
def execVsra (e : Eng) (f : VForm) (s : State) : Host.Outcome State Fault Refusal :=
  laneOp2 e (.vsra e f) f (fun a b => a.sshiftRight (laneSh b)) s

/-- VHASH (R139). -/
def execVhash (e : Eng) (f : VForm) (s : State) : Host.Outcome State Fault Refusal :=
  laneOp2 e (.vhash e f) f (fun a b => vhash a b) s

/-- VABS (R138). -/
def execVabs (e : Eng) (f : VForm) (s : State) : Host.Outcome State Fault Refusal :=
  laneOp1 e (.vabs e f) f (fun a => laneAbs a) s

/-- VPOPC (R138). -/
def execVpopc (e : Eng) (f : VForm) (s : State) : Host.Outcome State Fault Refusal :=
  laneOp1 e (.vpopc e f) f (fun a => BitVec.ofNat 40 (popCount a)) s

/-- VCLZ (R138). -/
def execVclz (e : Eng) (f : VForm) (s : State) : Host.Outcome State Fault Refusal :=
  laneOp1 e (.vclz e f) f (fun a => BitVec.ofNat 40 (leadingZeros a)) s

/-- VCTZ (R138). -/
def execVctz (e : Eng) (f : VForm) (s : State) : Host.Outcome State Fault Refusal :=
  laneOp1 e (.vctz e f) f (fun a => BitVec.ofNat 40 (trailingZeros a)) s

/-- VADDP (R140). -/
def execVaddp (e : Eng) (f : VForm) (s : State) : Host.Outcome State Fault Refusal :=
  pairOp2 e (.vaddp e f) f (fun a b => a + b) s

/-- VSUBP (R140). -/
def execVsubp (e : Eng) (f : VForm) (s : State) : Host.Outcome State Fault Refusal :=
  pairOp2 e (.vsubp e f) f (fun a b => a - b) s

/-- VMULP (R140). -/
def execVmulp (e : Eng) (f : VForm) (s : State) : Host.Outcome State Fault Refusal :=
  pairOp2 e (.vmulp e f) f (fun a b => a * b) s

/-- VMINP (R140). -/
def execVminp (e : Eng) (f : VForm) (s : State) : Host.Outcome State Fault Refusal :=
  pairOp2 e (.vminp e f) f (fun a b => smin a b) s

/-- VMAXP (R140). -/
def execVmaxp (e : Eng) (f : VForm) (s : State) : Host.Outcome State Fault Refusal :=
  pairOp2 e (.vmaxp e f) f (fun a b => smax a b) s

/-- VMINUP (R140). -/
def execVminup (e : Eng) (f : VForm) (s : State) : Host.Outcome State Fault Refusal :=
  pairOp2 e (.vminup e f) f (fun a b => umin a b) s

/-- VMAXUP (R140). -/
def execVmaxup (e : Eng) (f : VForm) (s : State) : Host.Outcome State Fault Refusal :=
  pairOp2 e (.vmaxup e f) f (fun a b => umax a b) s

end Sys2Proof.Machine
end

