-- ==== Sys2Proof/Machine/Float.lean ====
section
/-! DEFINITION. Binary floating point on bit patterns (R150 to R153): IEEE 754-2019 binary32 and binary64 with exact
integer arithmetic and one rounding at the end. -/

namespace Sys2Proof.Machine

open Sys2Proof

/-- A binary format: exponent bits and fraction bits. -/
structure FpFmt where
  e : Nat
  m : Nat
  deriving DecidableEq, Repr

/-- binary32 -/
def fp32 : FpFmt := ⟨8, 23⟩
/-- binary64 -/
def fp64 : FpFmt := ⟨11, 52⟩

/-- The rounding modes of VFCSR.RM. -/
inductive FpRound where
  | nearest
  | zero
  | down
  | up
  deriving DecidableEq, Repr

def fpRoundOf (n : Nat) : FpRound :=
  match n with
  | 0 => .nearest
  | 1 => .zero
  | 2 => .down
  | _ => .up

/-- The conditions of R152. -/
structure FpFlags where
  nv : Bool
  dz : Bool
  ovf : Bool
  uf : Bool
  nx : Bool
  deriving DecidableEq, Repr

def noFlags : FpFlags := ⟨false, false, false, false, false⟩
def invalidFlag : FpFlags := ⟨true, false, false, false, false⟩
def orFlags (a b : FpFlags) : FpFlags :=
  ⟨a.nv || b.nv, a.dz || b.dz, a.ovf || b.ovf, a.uf || b.uf, a.nx || b.nx⟩

/-- A decoded value: a finite one is (−1)^neg × mant × 2^exp. -/
inductive FpVal where
  | nan (signalling : Bool)
  | inf (neg : Bool)
  | fin (neg : Bool) (mant : Nat) (exp : Int)
  deriving DecidableEq, Repr

/-- Exponent bias. -/
def fpBias (f : FpFmt) : Nat := 2 ^ (f.e - 1) - 1

/-- The value a bit pattern stands for. -/
def fpDecode (f : FpFmt) (bits : Nat) : FpVal :=
  let frac := bits % 2 ^ f.m
  let ex := bits / 2 ^ f.m % 2 ^ f.e
  let neg := bits / 2 ^ (f.m + f.e) % 2 == 1
  if ex = 2 ^ f.e - 1 then
    (if frac = 0 then .inf neg else .nan (frac / 2 ^ (f.m - 1) == 0))
  else if ex = 0 then .fin neg frac (1 - (fpBias f : Int) - f.m)
  else .fin neg (frac + 2 ^ f.m) ((ex : Int) - fpBias f - f.m)

/-- The canonical quiet NaN (R151). -/
def fpNan (f : FpFmt) : Nat := (2 ^ f.e - 1) * 2 ^ f.m + 2 ^ (f.m - 1)

def fpSign (f : FpFmt) (neg : Bool) : Nat := if neg then 2 ^ (f.m + f.e) else 0
def fpInf (f : FpFmt) (neg : Bool) : Nat := fpSign f neg + (2 ^ f.e - 1) * 2 ^ f.m
def fpZero (f : FpFmt) (neg : Bool) : Nat := fpSign f neg
/-- The largest finite magnitude. -/
def fpMax (f : FpFmt) (neg : Bool) : Nat := fpInf f neg - 1

/-- Whether a magnitude `q + rest` rounds up, where `half` and `below` say whether the first dropped bit is 1 and
whether any later dropped bit is. -/
def roundUp (r : FpRound) (neg : Bool) (q : Nat) (half below : Bool) : Bool :=
  match r with
  | .nearest => half && (below || q % 2 == 1)
  | .zero => false
  | .down => neg && (half || below)
  | .up => !neg && (half || below)

/-- A magnitude with its low `s` bits rounded away, and whether it was inexact. -/
def roundShift (r : FpRound) (neg : Bool) (m s : Nat) (sticky : Bool) : Nat × Bool :=
  if s = 0 then
    (if roundUp r neg m false sticky then m + 1 else m, sticky)
  else
    let q := m / 2 ^ s
    let half := m / 2 ^ (s - 1) % 2 == 1
    let below := m % 2 ^ (s - 1) != 0 || sticky
    (if roundUp r neg q half below then q + 1 else q, half || below)

/-- Number of bits of a positive number. -/
def bitLen (m : Nat) : Nat := if m = 0 then 0 else Nat.log2 m + 1

/-- Rounds (−1)^neg × (mant + fraction) × 2^exp to the format, where `sticky` says the fraction is not 0 (in which
case mant has at least m + 3 bits). Tininess is detected after rounding (R150). -/
def fpRoundTo (f : FpFmt) (r : FpRound) (neg : Bool) (mant : Nat) (exp : Int) (sticky : Bool) : Nat × FpFlags :=
  if mant = 0 then (fpZero f neg, noFlags)
  else
    let emin : Int := 1 - (fpBias f : Int)
    let top : Int := exp + bitLen mant - 1
    let q : Int := max (top - f.m) (emin - f.m)
    let sh : Int := q - exp
    let res := if sh ≤ 0 then (mant * 2 ^ (-sh).toNat, sticky) else roundShift r neg mant sh.toNat sticky
    -- unbounded exponent: does the value stay below the least normal after rounding to m + 1 bits?
    let shU : Int := top - f.m - exp
    let unb := if shU ≤ 0 then (mant * 2 ^ (-shU).toNat, sticky) else roundShift r neg mant shU.toNat sticky
    let tiny := decide (top < emin) && !(decide (top = emin - 1) && unb.1 == 2 ^ (f.m + 1))
    -- res.1 counts units of 2^q; a carry out of m + 1 bits raises the exponent
    let biased : Int := q + f.m + fpBias f
    let bits : Nat := if res.1 < 2 ^ f.m then res.1 else ((biased - 1).toNat) * 2 ^ f.m + res.1
    if bits ≥ (2 ^ f.e - 1) * 2 ^ f.m then
      let big := match r with
        | .nearest => true
        | .zero => false
        | .down => neg
        | .up => !neg
      (if big then fpInf f neg else fpMax f neg, ⟨false, false, true, false, true⟩)
    else (fpSign f neg + bits, ⟨false, false, false, tiny && res.2, res.2⟩)

/-- The signed integer of a finite value scaled to a common exponent. -/
def fpScaled (neg : Bool) (mant : Nat) (exp e0 : Int) : Int :=
  let v : Int := mant * 2 ^ (exp - e0).toNat
  if neg then -v else v

/-- NV for a signalling NaN among the operands. -/
def nanFlags (a b : FpVal) : FpFlags :=
  match a, b with
  | .nan true, _ => invalidFlag
  | _, .nan true => invalidFlag
  | _, _ => noFlags

def isNan (a : FpVal) : Bool :=
  match a with
  | .nan _ => true
  | _ => false

/-- Addition; `sub` negates the second operand. -/
def fpAdd (f : FpFmt) (r : FpRound) (sub : Bool) (x y : Nat) : Nat × FpFlags :=
  let a := fpDecode f x
  let b := fpDecode f y
  if isNan a || isNan b then (fpNan f, nanFlags a b)
  else
    match a, b with
    | .inf s, .inf t => if s = (t != sub) then (fpInf f s, noFlags) else (fpNan f, invalidFlag)
    | .inf s, _ => (fpInf f s, noFlags)
    | _, .inf t => (fpInf f (t != sub), noFlags)
    | .fin s m e, .fin t n g =>
      let t' := t != sub
      let e0 := min e g
      let v := fpScaled s m e e0 + fpScaled t' n g e0
      if v = 0 then
        (if m = 0 ∧ n = 0 ∧ s = t' then (fpZero f s, noFlags)
         else (fpZero f (r == .down), noFlags))
      else fpRoundTo f r (decide (v < 0)) v.natAbs e0 false
    | _, _ => (fpNan f, noFlags)

/-- Multiplication. -/
def fpMul (f : FpFmt) (r : FpRound) (x y : Nat) : Nat × FpFlags :=
  let a := fpDecode f x
  let b := fpDecode f y
  if isNan a || isNan b then (fpNan f, nanFlags a b)
  else
    match a, b with
    | .inf s, .inf t => (fpInf f (s != t), noFlags)
    | .inf s, .fin t n _ => if n = 0 then (fpNan f, invalidFlag) else (fpInf f (s != t), noFlags)
    | .fin s m _, .inf t => if m = 0 then (fpNan f, invalidFlag) else (fpInf f (s != t), noFlags)
    | .fin s m e, .fin t n g => fpRoundTo f r (s != t) (m * n) (e + g) false
    | _, _ => (fpNan f, noFlags)

/-- Division. -/
def fpDiv (f : FpFmt) (r : FpRound) (x y : Nat) : Nat × FpFlags :=
  let a := fpDecode f x
  let b := fpDecode f y
  if isNan a || isNan b then (fpNan f, nanFlags a b)
  else
    match a, b with
    | .inf _, .inf _ => (fpNan f, invalidFlag)
    | .inf s, .fin t _ _ => (fpInf f (s != t), noFlags)
    | .fin s _ _, .inf t => (fpZero f (s != t), noFlags)
    | .fin s m e, .fin t n g =>
      if n = 0 then
        (if m = 0 then (fpNan f, invalidFlag) else (fpInf f (s != t), ⟨false, true, false, false, false⟩))
      else
        -- enough quotient bits that every rounding position lies inside them
        let k := 2 * f.m + 8
        fpRoundTo f r (s != t) (m * 2 ^ k / n) (e - g - k) (m * 2 ^ k % n != 0)
    | _, _ => (fpNan f, noFlags)

/-- Square root. -/
def fpSqrt (f : FpFmt) (r : FpRound) (x : Nat) : Nat × FpFlags :=
  let a := fpDecode f x
  match a with
  | .nan _ => (fpNan f, nanFlags a a)
  | .inf s => if s then (fpNan f, invalidFlag) else (x, noFlags)
  | .fin s m e =>
    if m = 0 then (x, noFlags)
    else if s then (fpNan f, invalidFlag)
    else
      let k : Nat := 2 * f.m + 8 + ((e - (2 * f.m + 8 : Nat)) % 2).toNat
      let v := m * 2 ^ k
      let q := natSqrt v
      fpRoundTo f r false q ((e - k) / 2) (q * q != v)
where
  /-- Integer square root, one result bit at a time from the top. -/
  natSqrt (v : Nat) : Nat := sqrtFrom v (bitLen v / 2 + 1) 0
  sqrtFrom (v : Nat) : Nat → Nat → Nat
    | 0, q => q
    | b + 1, q => if (q + 2 ^ b) * (q + 2 ^ b) ≤ v then sqrtFrom v b (q + 2 ^ b) else sqrtFrom v b q

/-- Order of two values that are no NaN. -/
def fpLess (a b : FpVal) : Bool :=
  match a, b with
  | .inf s, .inf t => s && !t
  | .inf s, _ => s
  | _, .inf t => !t
  | .fin s m e, .fin t n g =>
    let e0 := min e g
    decide (fpScaled s m e e0 < fpScaled t n g e0)
  | _, _ => false

def fpSame (a b : FpVal) : Bool := !isNan a && !isNan b && !fpLess a b && !fpLess b a

/-- The sign bit of a pattern. -/
def fpNeg (f : FpFmt) (x : Nat) : Bool := x / 2 ^ (f.m + f.e) % 2 == 1

/-- VFMIN and VFMAX (R150, R151): −0 lies below +0, and the other operand wins over one NaN. -/
def fpMinMax (f : FpFmt) (mx : Bool) (x y : Nat) : Nat × FpFlags :=
  let a := fpDecode f x
  let b := fpDecode f y
  let fl := nanFlags a b
  if isNan a && isNan b then (fpNan f, fl)
  else if isNan a then (y, fl)
  else if isNan b then (x, fl)
  else
    let less := fpLess a b || (fpSame a b && fpNeg f x && !fpNeg f y)
    (if less != mx then x else y, fl)

/-- VFEQ: NV only for a signalling NaN (R151). -/
def fpEq (f : FpFmt) (x y : Nat) : Bool × FpFlags :=
  (fpSame (fpDecode f x) (fpDecode f y), nanFlags (fpDecode f x) (fpDecode f y))

/-- VFLT and VFLE: NV for any NaN (R151). -/
def fpLt (f : FpFmt) (orEq : Bool) (x y : Nat) : Bool × FpFlags :=
  let a := fpDecode f x
  let b := fpDecode f y
  if isNan a || isNan b then (false, invalidFlag)
  else (fpLess a b || (orEq && fpSame a b), noFlags)

/-- A pattern of an integer, rounded. -/
def fpOfInt (f : FpFmt) (r : FpRound) (v : Int) : Nat × FpFlags :=
  fpRoundTo f r (decide (v < 0)) v.natAbs 0 false

/-- The integer of a pattern, rounded and saturated to [lo, hi]; a NaN gives 0 (R153). -/
def fpToInt (f : FpFmt) (r : FpRound) (lo hi : Int) (x : Nat) : Int × FpFlags :=
  match fpDecode f x with
  | .nan _ => (0, invalidFlag)
  | .inf s => (if s then lo else hi, invalidFlag)
  | .fin s m e =>
    let res := if e ≥ 0 then (m * 2 ^ e.toNat, false) else roundShift r s m (-e).toNat false
    let v : Int := if s then -(res.1 : Int) else res.1
    if v < lo then (lo, invalidFlag)
    else if hi < v then (hi, invalidFlag)
    else (v, ⟨false, false, false, false, res.2⟩)

/-- A pattern of one format in another, rounded; a NaN becomes the canonical one. -/
def fpConvert (a b : FpFmt) (r : FpRound) (x : Nat) : Nat × FpFlags :=
  match fpDecode a x with
  | .nan s => (fpNan b, ⟨s, false, false, false, false⟩)
  | .inf s => (fpInf b s, noFlags)
  | .fin s m e => fpRoundTo b r s m e false

end Sys2Proof.Machine
end

