-- ==== Sys2Proof/Machine/Flags.lean ====
section
/-! DEFINITION. The sticky floating-point flags and the rounding mode of VFCSR (R93, R152). -/

namespace Sys2Proof.Machine

open Sys2Proof

/-- The rounding mode in force. -/
def roundMode (x : Engine) : FpRound := fpRoundOf (x.vfcsr.setWidth 2).toNat

/-- The flags as bits of VFCSR. -/
def flagBits (f : FpFlags) : BitVec 9 :=
  (if f.nx then 0x010 else 0) ||| (if f.uf then 0x020 else 0) ||| (if f.ovf then 0x040 else 0) |||
  (if f.dz then 0x080 else 0) ||| (if f.nv then 0x100 else 0)

/-- Sets sticky flags; none is ever cleared by an instruction other than a CRW. -/
def addFlags (x : Engine) (f : FpFlags) : Engine := { x with vfcsr := x.vfcsr ||| flagBits f }

/-- The OR of the conditions of the contributing lanes or pairs (R152). -/
def gatherFlags (con : Nat → Bool) (fl : Nat → FpFlags) : Nat → FpFlags
  | 0 => noFlags
  | n + 1 => orFlags (gatherFlags con fl n) (if con n then fl n else noFlags)

end Sys2Proof.Machine
end

