-- ==== Sys2Proof/Machine/VecFloat.lean ====
section
/-! DEFINITION. Floating-point lanes and pairs, compares and conversions (R150 to R153). -/

namespace Sys2Proof.Machine

open Sys2Proof

/-- The format of an FP instruction: FP32 cells or FP64 pairs (R150). -/
def fmtOf (dbl : Bool) : FpFmt := if dbl then fp64 else fp32

/-- An FP operand of lane or pair `k`: bits [31:0] of a cell, bits [63:0] of a pair; a scalar supplies rs2 (R120,
R150). -/
def fpA (x : Engine) (f : VForm) (dbl : Bool) (k : Nat) : Nat :=
  if dbl then ((psrc1 x f k).setWidth 64).toNat else ((src1 x f k).setWidth 32).toNat
def fpB (x : Engine) (f : VForm) (dbl : Bool) (k : Nat) : Nat :=
  if f.f then (if dbl then (getS x f.src2).toNat else ((getS x f.src2).setWidth 32).toNat)
  else if dbl then ((psrc2 x f k).setWidth 64).toNat else ((src2 x f k).setWidth 32).toNat

def fpAct (x : Engine) (f : VForm) (dbl : Bool) (k : Nat) : Bool :=
  if dbl then pairActive x f k else active x f k
def fpOk1 (x : Engine) (f : VForm) (dbl : Bool) (k : Nat) : Bool := if dbl then pok1 x f k else ok1 x f k
def fpOk2 (x : Engine) (f : VForm) (dbl : Bool) (k : Nat) : Bool := if dbl then pok2 x f k else ok2 x f k

/-- Lanes or pairs of the format. -/
def fpCount (dbl : Bool) : Nat := if dbl then 8 else 16

/-- An FP operation written into vd, with the flags of its contributing lanes (R152). -/
def fpOp (e : Eng) (i : Instr) (f : VForm) (dbl two : Bool) (g : FpRound → Nat → Nat → Nat × FpFlags) (s : State) :
    Host.Outcome State Fault Refusal :=
  runEng e i (fun x =>
    let r := fun k => g (roundMode x) (fpA x f dbl k) (fpB x f dbl k)
    let ok := fun k => fpOk1 x f dbl k && (!two || fpOk2 x f dbl k)
    let y := if dbl then
        putPairs x f.vd (pairActive x f) (fun k => BitVec.ofNat 80 (r k).1) ok
      else putLanes x f.vd (active x f) (fun k => BitVec.ofNat 40 (r k).1) ok
    adv (addFlags y (gatherFlags (fun k => fpAct x f dbl k && ok k) (fun k => (r k).2) (fpCount dbl)))) s

/-- An FP compare into pd (R141, R150). -/
def fpCmp (e : Eng) (i : Instr) (f : VForm) (dbl : Bool) (g : Nat → Nat → Bool × FpFlags) (s : State) :
    Host.Outcome State Fault Refusal :=
  runEng e i (fun x =>
    let r := fun k => g (fpA x f dbl k) (fpB x f dbl k)
    let con := fun k => fpAct x f dbl k && fpOk1 x f dbl k && fpOk2 x f dbl k
    let j := fun n => if dbl then n / 2 else n
    adv (addFlags (setP x (f.vd.setWidth 3) (maskOf fun n => con (j n) && (r (j n)).1))
      (gatherFlags con (fun k => (r k).2) (fpCount dbl)))) s

/-- VFADD (R150, R151). -/
def execVfadd (e : Eng) (f : VForm) (dbl : Bool) (s : State) : Host.Outcome State Fault Refusal :=
  fpOp e (.vfadd e f dbl) f dbl true (fun r a b => fpAdd (fmtOf dbl) r false a b) s

/-- VFSUB (R150, R151). -/
def execVfsub (e : Eng) (f : VForm) (dbl : Bool) (s : State) : Host.Outcome State Fault Refusal :=
  fpOp e (.vfsub e f dbl) f dbl true (fun r a b => fpAdd (fmtOf dbl) r true a b) s

/-- VFMUL (R150, R151). -/
def execVfmul (e : Eng) (f : VForm) (dbl : Bool) (s : State) : Host.Outcome State Fault Refusal :=
  fpOp e (.vfmul e f dbl) f dbl true (fun r a b => fpMul (fmtOf dbl) r a b) s

/-- VFDIV (R150, R151). -/
def execVfdiv (e : Eng) (f : VForm) (dbl : Bool) (s : State) : Host.Outcome State Fault Refusal :=
  fpOp e (.vfdiv e f dbl) f dbl true (fun r a b => fpDiv (fmtOf dbl) r a b) s

/-- VFSQRT (R150, R151). -/
def execVfsqrt (e : Eng) (f : VForm) (dbl : Bool) (s : State) : Host.Outcome State Fault Refusal :=
  fpOp e (.vfsqrt e f dbl) f dbl false (fun r a _ => fpSqrt (fmtOf dbl) r a) s

/-- VFMIN (R150, R151). -/
def execVfmin (e : Eng) (f : VForm) (dbl : Bool) (s : State) : Host.Outcome State Fault Refusal :=
  fpOp e (.vfmin e f dbl) f dbl true (fun _ a b => fpMinMax (fmtOf dbl) false a b) s

/-- VFMAX (R150, R151). -/
def execVfmax (e : Eng) (f : VForm) (dbl : Bool) (s : State) : Host.Outcome State Fault Refusal :=
  fpOp e (.vfmax e f dbl) f dbl true (fun _ a b => fpMinMax (fmtOf dbl) true a b) s

/-- VFEQ (R150, R151). -/
def execVfeq (e : Eng) (f : VForm) (dbl : Bool) (s : State) : Host.Outcome State Fault Refusal :=
  fpCmp e (.vfeq e f dbl) f dbl (fpEq (fmtOf dbl)) s

/-- VFLT (R150, R151). -/
def execVflt (e : Eng) (f : VForm) (dbl : Bool) (s : State) : Host.Outcome State Fault Refusal :=
  fpCmp e (.vflt e f dbl) f dbl (fpLt (fmtOf dbl) false) s

/-- VFLE (R150, R151). -/
def execVfle (e : Eng) (f : VForm) (dbl : Bool) (s : State) : Host.Outcome State Fault Refusal :=
  fpCmp e (.vfle e f dbl) f dbl (fpLt (fmtOf dbl) true) s

/-- A lane conversion with its flags (R153). -/
def cvtLane (e : Eng) (i : Instr) (f : VForm) (g : FpRound → Cell → Cell × FpFlags) (s : State) :
    Host.Outcome State Fault Refusal :=
  runEng e i (fun x =>
    let r := fun k => g (roundMode x) (src1 x f k)
    adv (addFlags (putLanes x f.vd (active x f) (fun k => (r k).1) (ok1 x f))
      (gatherFlags (fun k => active x f k && ok1 x f k) (fun k => (r k).2) 16))) s

/-- A pair conversion with its flags. -/
def cvtPair (e : Eng) (i : Instr) (f : VForm) (g : FpRound → Wide → Wide × FpFlags) (s : State) :
    Host.Outcome State Fault Refusal :=
  runEng e i (fun x =>
    let r := fun k => g (roundMode x) (psrc1 x f k)
    adv (addFlags (putPairs x f.vd (pairActive x f) (fun k => (r k).1) (pok1 x f))
      (gatherFlags (fun k => pairActive x f k && pok1 x f k) (fun k => (r k).2) 8))) s

/-- The first lane of the half that H selects. -/
def halfBase (h : Bool) : Nat := if h then 8 else 0

/-- Widening: pair k of vd from lane 8H + k of vs1 (R153). -/
def widen (e : Eng) (i : Instr) (f : VForm) (h : Bool) (g : Cell → Wide × FpFlags) (s : State) :
    Host.Outcome State Fault Refusal :=
  runEng e i (fun x =>
    let j := fun k => halfBase h + k
    adv (addFlags (putPairs x f.vd (pairActive x f) (fun k => (g (src1 x f (j k))).1) (fun k => ok1 x f (j k)))
      (gatherFlags (fun k => pairActive x f k && ok1 x f (j k)) (fun k => (g (src1 x f (j k))).2) 8))) s

/-- Narrowing: lane 8H + k of vd from pair k of vs1, each governed by its own bit (R153). -/
def narrow (e : Eng) (i : Instr) (f : VForm) (h : Bool) (g : FpRound → Wide → Cell × FpFlags) (s : State) :
    Host.Outcome State Fault Refusal :=
  runEng e i (fun x =>
    let r := fun k => g (roundMode x) (psrc1 x f k)
    let here := fun n => decide (halfBase h ≤ n) && decide (n < halfBase h + 8) && active x f n
    adv (addFlags (putLanes x f.vd here (fun n => (r (n - halfBase h)).1) (fun n => pok1 x f (n - halfBase h)))
      (gatherFlags (fun k => active x f (halfBase h + k) && pok1 x f k) (fun k => (r k).2) 8))) s

/-- A rounded FP result placed in a cell or a pair. -/
def cellOf (r : Nat × FpFlags) : Cell × FpFlags := (BitVec.ofNat 40 r.1, r.2)
def wideOf (r : Nat × FpFlags) : Wide × FpFlags := (BitVec.ofNat 80 r.1, r.2)
def cellOfInt (r : Int × FpFlags) : Cell × FpFlags := (BitVec.ofInt 40 r.1, r.2)
def wideOfInt (r : Int × FpFlags) : Wide × FpFlags := (BitVec.ofInt 80 r.1, r.2)

/-- INT80 saturated to INT40, with no flag (R153). -/
def satCell (v : Wide) : Cell × FpFlags :=
  let n := v.toInt
  (if n < -(2 ^ 39) then BitVec.ofInt 40 (-(2 ^ 39))
   else if 2 ^ 39 - 1 < n then BitVec.ofInt 40 (2 ^ 39 - 1)
   else v.setWidth 40, noFlags)

/-- VCVTFI (R153). -/
def execVcvtfi (e : Eng) (f : VForm) (s : State) : Host.Outcome State Fault Refusal :=
  cvtLane e (.vcvtfi e f) f (fun r a => cellOf (fpOfInt fp32 r a.toInt)) s

/-- VCVTFU (R153). -/
def execVcvtfu (e : Eng) (f : VForm) (s : State) : Host.Outcome State Fault Refusal :=
  cvtLane e (.vcvtfu e f) f (fun r a => cellOf (fpOfInt fp32 r a.toNat)) s

/-- VCVTIF (R153). -/
def execVcvtif (e : Eng) (f : VForm) (s : State) : Host.Outcome State Fault Refusal :=
  cvtLane e (.vcvtif e f) f (fun r a => cellOfInt (fpToInt fp32 r (-(2 ^ 39)) (2 ^ 39 - 1) (a.setWidth 32).toNat)) s

/-- VCVTUF (R153). -/
def execVcvtuf (e : Eng) (f : VForm) (s : State) : Host.Outcome State Fault Refusal :=
  cvtLane e (.vcvtuf e f) f (fun r a => cellOfInt (fpToInt fp32 r 0 (2 ^ 40 - 1) (a.setWidth 32).toNat)) s

/-- VCVTDI (R153). -/
def execVcvtdi (e : Eng) (f : VForm) (s : State) : Host.Outcome State Fault Refusal :=
  cvtPair e (.vcvtdi e f) f (fun r a => wideOf (fpOfInt fp64 r a.toInt)) s

/-- VCVTID (R153). -/
def execVcvtid (e : Eng) (f : VForm) (s : State) : Host.Outcome State Fault Refusal :=
  cvtPair e (.vcvtid e f) f (fun r a => wideOfInt (fpToInt fp64 r (-(2 ^ 79)) (2 ^ 79 - 1) (a.setWidth 64).toNat)) s

/-- VWIDENI (R153). -/
def execVwideni (e : Eng) (f : VForm) (h : Bool) (s : State) : Host.Outcome State Fault Refusal :=
  widen e (.vwideni e f h) f h (fun a => (a.signExtend 80, noFlags)) s

/-- VWIDENU (R153). -/
def execVwidenu (e : Eng) (f : VForm) (h : Bool) (s : State) : Host.Outcome State Fault Refusal :=
  widen e (.vwidenu e f h) f h (fun a => (a.setWidth 80, noFlags)) s

/-- VWIDENF (R153). -/
def execVwidenf (e : Eng) (f : VForm) (h : Bool) (s : State) : Host.Outcome State Fault Refusal :=
  widen e (.vwidenf e f h) f h (fun a => wideOf (fpConvert fp32 fp64 .nearest (a.setWidth 32).toNat)) s

/-- VNARROWI (R153). -/
def execVnarrowi (e : Eng) (f : VForm) (h : Bool) (s : State) : Host.Outcome State Fault Refusal :=
  narrow e (.vnarrowi e f h) f h (fun _ a => satCell a) s

/-- VNARROWF (R153). -/
def execVnarrowf (e : Eng) (f : VForm) (h : Bool) (s : State) : Host.Outcome State Fault Refusal :=
  narrow e (.vnarrowf e f h) f h (fun r a => cellOf (fpConvert fp64 fp32 r (a.setWidth 64).toNat)) s

end Sys2Proof.Machine
end

