-- ==== Sys2Proof/Machine/VecLanding.lean ====
section
/-! DEFINITION. Vector instructions that reach landing: packed loads and stores, bitmaps, gather and table accumulate
(R132 to R137, R154, R155). -/

namespace Sys2Proof.Machine

open Sys2Proof

/-- End of the landing bytes that the mode may touch (R53, R55). -/
def landLimit (x : Engine) : Nat := if x.mode == .thread then 0x3e000 else 0x40000

/-- The lowest byte of `n` bytes from `a` that the mode may not touch (R135). -/
def badByte (x : Engine) (a n : Nat) : Option Nat :=
  if n = 0 || decide (a + n ≤ landLimit x) then none else some (max a (landLimit x))

/-- The cause of a failing byte (R135). Where failing bytes lie both in the kernel area and outside landing the lowest
one gives the cause (DESIGN CHOICE, log entry 126). -/
def byteCause (a : Nat) : Cause := if a < 0x40000 then .accKernel else .accSpace

/-- The lower of two failing bytes. -/
def lowerBad (a b : Option Nat) : Option Nat :=
  match a, b with
  | some x, some y => some (min x y)
  | some x, none => some x
  | none, y => y

/-- Carries out a landing access when no byte of it fails. -/
def guarded (x : Engine) (bad : Option Nat) (y : Engine) : Engine :=
  match bad with
  | some a => note x (byteCause a) (BitVec.ofNat 64 a)
  | none => adv y

/-- Bytes that hold `n` bits from bit address `b`. -/
def bitBytes (b n : Nat) : Nat := if n = 0 then 0 else (b % 8 + n + 7) / 8

/-- `n` bits of landing from bit address `b`. -/
def landBits (x : Engine) (b n : Nat) : Nat :=
  mread x.landing (b / 8) (bitBytes b n) / 2 ^ (b % 8) % 2 ^ n

/-- Stores `n` bits at bit address `b`, the other bits of their bytes kept. -/
def putBits (x : Engine) (b n v : Nat) : Engine :=
  let k := bitBytes b n
  let old := mread x.landing (b / 8) k
  let lo := old % 2 ^ (b % 8)
  let hi := old / 2 ^ (b % 8 + n)
  { x with landing := mwrite x.landing (b / 8) k (lo + 2 ^ (b % 8) * (v % 2 ^ n) + 2 ^ (b % 8 + n) * hi) }

/-- Whether element `j` of a VW instruction is active: lane `j`, or the even lane of pair `j` (R122). -/
def vwActive (x : Engine) (f : VWForm) (pair : Bool) (j : Nat) : Bool :=
  (getP x f.pm).getLsbD (if pair then 2 * j else j)

/-- One past the highest active element below `n`, 0 where none is active (R134). -/
def topActive (act : Nat → Bool) : Nat → Nat
  | 0 => 0
  | n + 1 => if act n then n + 1 else topActive act n

def vwCount (pair : Bool) : Nat := if pair then 8 else 16

/-- The order of a string's bytes reversed between field and cell (R133). -/
def strToCell (v w : Nat) : Nat :=
  (List.range (w / 8)).foldl (fun c n => c + v / 2 ^ (8 * n) % 256 * 2 ^ (32 - 8 * n)) 0

def cellToStr (c w : Nat) : Nat :=
  (List.range (w / 8)).foldl (fun v n => v + c / 2 ^ (32 - 8 * n) % 256 * 2 ^ (8 * n)) 0

/-- A field of `w` bits as a value of `n` bits, with the conversion of a load (R133). -/
def loadConv (f : VWForm) (w v n : Nat) : Nat :=
  match f.conv.toNat with
  | 0 => if f.sx && decide (2 ^ (w - 1) ≤ v) then v + 2 ^ n - 2 ^ w else v
  | 2 => strToCell v w
  | _ => v

/-- A value of `n` bits as a field of `w` bits, with the conversion of a store (R133). -/
def storeConv (f : VWForm) (w v n : Nat) : Nat :=
  match f.conv.toNat with
  | 0 =>
    if f.sx then
      let i : Int := if 2 ^ (n - 1) ≤ v then (v : Int) - 2 ^ n else v
      let hi : Int := 2 ^ (w - 1) - 1
      let lo : Int := -2 ^ (w - 1)
      let r := if i < lo then lo else if hi < i then hi else i
      (r % 2 ^ w).toNat
    else v % 2 ^ w
  | 2 => cellToStr v w
  | _ => v % 2 ^ w

/-- VLD after its checks. -/
def vld (x : Engine) (f : VWForm) (pair : Bool) (b w h : Nat) : Engine :=
  let bits := landBits x b (h * w)
  let fld := fun j => fieldN bits (j * w) w
  let act := vwActive x f pair
  if pair then
    putPairs x f.vd act (fun k => BitVec.ofNat 80 (loadConv f w (fld k) 80)) (fun _ => true)
  else putLanes x f.vd act (fun k => BitVec.ofNat 40 (loadConv f w (fld k) 40)) (fun _ => true)

/-- The packed bits of VST: inactive elements below the highest active one keep their bits. -/
def packed (x : Engine) (f : VWForm) (pair : Bool) (old w : Nat) : Nat → Nat
  | 0 => 0
  | j + 1 =>
    let v := if pair then (pairOf (getV x f.vd) j).toNat else (lane (getV x f.vd) j).toNat
    let e := if vwActive x f pair j then storeConv f w v (if pair then 80 else 40) else fieldN old (j * w) w
    packed x f pair old w j + e * 2 ^ (j * w)

/-- VLD or VST with the checks of R135. -/
def vwInstr (e : Eng) (i : Instr) (f : VWForm) (pair : Bool) (g : Engine → Nat → Nat → Nat → Engine) (s : State) :
    Host.Outcome State Fault Refusal :=
  runEng e i (fun x =>
    let b := (getS x f.rs1).toNat
    let w := f.width.toNat + 1
    let h := topActive (vwActive x f pair) (vwCount pair)
    guarded x (badByte x (b / 8) (bitBytes b (h * w))) (g x b w h)) s

/-- VLD (R132 to R137). -/
def execVld (e : Eng) (f : VWForm) (pair : Bool) (s : State) : Host.Outcome State Fault Refusal :=
  vwInstr e (.vld e f pair) f pair (fun x b w h => vld x f pair b w h) s

/-- VST (R132 to R137). -/
def execVst (e : Eng) (f : VWForm) (pair : Bool) (s : State) : Host.Outcome State Fault Refusal :=
  vwInstr e (.vst e f pair) f pair (fun x b w h =>
    putBits x b (h * w) (packed x f pair (landBits x b (h * w)) w h)) s

/-- A 16-bit landing bitmap at a bit address. -/
def bitmapInstr (e : Eng) (i : Instr) (f : VWForm) (g : Engine → Nat → Engine) (s : State) :
    Host.Outcome State Fault Refusal :=
  runEng e i (fun x =>
    let b := (getS x f.rs1).toNat
    guarded x (badByte x (b / 8) (bitBytes b 16)) (g x b)) s

/-- PLD (R137). -/
def execPld (e : Eng) (f : VWForm) (s : State) : Host.Outcome State Fault Refusal :=
  bitmapInstr e (.pld e f) f (fun x b => setP x (f.vd.setWidth 3) (BitVec.ofNat 16 (landBits x b 16))) s

/-- PST (R137). -/
def execPst (e : Eng) (f : VWForm) (s : State) : Host.Outcome State Fault Refusal :=
  bitmapInstr e (.pst e f) f (fun x b => putBits x b 16 (getP x (f.vd.setWidth 3)).toNat) s

/-- VMLD (R137). -/
def execVmld (e : Eng) (f : VWForm) (s : State) : Host.Outcome State Fault Refusal :=
  bitmapInstr e (.vmld e f) f (fun x b => setVm x f.vd (BitVec.ofNat 16 (landBits x b 16))) s

/-- VMST (R137). -/
def execVmst (e : Eng) (f : VWForm) (s : State) : Host.Outcome State Fault Refusal :=
  bitmapInstr e (.vmst e f) f (fun x b => putBits x b 16 (getVm x f.vd).toNat) s

/-- Size of a gathered element (R154). -/
def gatherSize (g : GatherMode) : Nat :=
  match g.size.toNat with
  | 0 => 1
  | 1 => 2
  | 2 => 4
  | _ => 5

/-- The address of lane `i` of a gather; indices are unsigned, as the spec's notation reads a bare value. -/
def gatherAddr (x : Engine) (f : VForm) (g : GatherMode) (i : Nat) : Nat :=
  ((getS x f.src2).toNat + (src1 x f i).toNat * (if g.sc then gatherSize g else 1)) % 2 ^ 64

/-- The lowest failing byte of the lanes below `n` that `c` selects. -/
def badLanes (x : Engine) (c : Nat → Bool) (addr : Nat → Nat) (size : Nat) : Nat → Option Nat
  | 0 => none
  | n + 1 => lowerBad (badLanes x c addr size n) (if c n then badByte x (addr n) size else none)

/-- VGATHER (R135, R154). -/
def execVgather (e : Eng) (f : VForm) (g : GatherMode) (s : State) : Host.Outcome State Fault Refusal :=
  runEng e (.vgather e f g) (fun x =>
    let n := gatherSize g
    let c := fun i => active x f i && ok1 x f i
    let get := fun i =>
      let v := mread x.landing (gatherAddr x f g i) n
      BitVec.ofNat 40 (if g.sx && decide (2 ^ (8 * n - 1) ≤ v) then v + 2 ^ 40 - 2 ^ (8 * n) else v)
    guarded x (badLanes x c (gatherAddr x f g) n 16)
      (putLanes x f.vd (active x f) (fun i => if ok1 x f i then get i else 0) (ok1 x f))) s

/-- The slot address of lane `i` of VACCT: vd holds the indices. -/
def laneSlot (x : Engine) (f : VForm) (i : Nat) : Nat :=
  ((getS x f.src2).toNat + 8 * (lane (getV x f.vd) i).toNat) % 2 ^ 64

/-- Lanes that VACCT adds. -/
def slotActive (x : Engine) (f : VForm) (i : Nat) : Bool :=
  active x f i && (getVm x f.vd).getLsbD i && ok1 x f i

/-- The lanes below `n` add their values in order. -/
def slotAdd (x : Engine) (f : VForm) : Nat → List Host.Cell
  | 0 => x.landing
  | n + 1 =>
    let m := slotAdd x f n
    if slotActive x f n then
      mwrite m (laneSlot x f n) 8 (mread m (laneSlot x f n) 8 + ((src1 x f n).signExtend 64).toNat)
    else m

/-- VACCT (R135, R136, R155). -/
def execVacct (e : Eng) (f : VForm) (s : State) : Host.Outcome State Fault Refusal :=
  runEng e (.vacct e f) (fun x =>
    guarded x (badLanes x (slotActive x f) (laneSlot x f) 8 16) { x with landing := slotAdd x f 16 }) s

end Sys2Proof.Machine
end

