-- ==== Sys2Proof/Machine/VecMove.lean ====
section
/-! DEFINITION. Compares, predicate operations, lane moves, sort and merge (R141 to R146). -/

namespace Sys2Proof.Machine

open Sys2Proof

/-- The predicate register that a four-bit field names in its low three bits. -/
def pReg (n : BitVec 4) : BitVec 3 := n.setWidth 3

/-- A compare of cells or pairs into pd (R141). -/
def compare (e : Eng) (i : Instr) (f : VForm) (pair : Bool) (c : Cell → Cell → Bool) (cp : Wide → Wide → Bool)
    (s : State) : Host.Outcome State Fault Refusal :=
  runEng e i (fun x =>
    let m := if pair then
        maskOf fun k => pairActive x f (k / 2) && pok1 x f (k / 2) && pok2 x f (k / 2) &&
          cp (psrc1 x f (k / 2)) (psrc2 x f (k / 2))
      else
        maskOf fun k => active x f k && ok1 x f k && ok2 x f k && c (src1 x f k) (src2 x f k)
    adv (setP x (pReg f.vd) m)) s

/-- VCMPEQ (R141). -/
def execVcmpeq (e : Eng) (f : VForm) (pair : Bool) (s : State) : Host.Outcome State Fault Refusal :=
  compare e (.vcmpeq e f pair) f pair (fun a b => a == b) (fun a b => a == b) s

/-- VCMPNE (R141). -/
def execVcmpne (e : Eng) (f : VForm) (pair : Bool) (s : State) : Host.Outcome State Fault Refusal :=
  compare e (.vcmpne e f pair) f pair (fun a b => a != b) (fun a b => a != b) s

/-- VCMPLT (R141). -/
def execVcmplt (e : Eng) (f : VForm) (pair : Bool) (s : State) : Host.Outcome State Fault Refusal :=
  compare e (.vcmplt e f pair) f pair (fun a b => a.slt b) (fun a b => a.slt b) s

/-- VCMPGE (R141). -/
def execVcmpge (e : Eng) (f : VForm) (pair : Bool) (s : State) : Host.Outcome State Fault Refusal :=
  compare e (.vcmpge e f pair) f pair (fun a b => !a.slt b) (fun a b => !a.slt b) s

/-- VCMPLTU (R141). -/
def execVcmpltu (e : Eng) (f : VForm) (pair : Bool) (s : State) : Host.Outcome State Fault Refusal :=
  compare e (.vcmpltu e f pair) f pair (fun a b => decide (a < b)) (fun a b => decide (a < b)) s

/-- VCMPGEU (R141). -/
def execVcmpgeu (e : Eng) (f : VForm) (pair : Bool) (s : State) : Host.Outcome State Fault Refusal :=
  compare e (.vcmpgeu e f pair) f pair (fun a b => !decide (a < b)) (fun a b => !decide (a < b)) s

/-- VCMPLE (R141). -/
def execVcmple (e : Eng) (f : VForm) (pair : Bool) (s : State) : Host.Outcome State Fault Refusal :=
  compare e (.vcmple e f pair) f pair (fun a b => !b.slt a) (fun a b => !b.slt a) s

/-- VCMPGT (R141). -/
def execVcmpgt (e : Eng) (f : VForm) (pair : Bool) (s : State) : Host.Outcome State Fault Refusal :=
  compare e (.vcmpgt e f pair) f pair (fun a b => b.slt a) (fun a b => b.slt a) s

/-- VCMPLEU (R141). -/
def execVcmpleu (e : Eng) (f : VForm) (pair : Bool) (s : State) : Host.Outcome State Fault Refusal :=
  compare e (.vcmpleu e f pair) f pair (fun a b => !decide (b < a)) (fun a b => !decide (b < a)) s

/-- VCMPGTU (R141). -/
def execVcmpgtu (e : Eng) (f : VForm) (pair : Bool) (s : State) : Host.Outcome State Fault Refusal :=
  compare e (.vcmpgtu e f pair) f pair (fun a b => decide (b < a)) (fun a b => decide (b < a)) s

/-- pd := a function of ps1 and ps2 (R142). -/
def predOp (e : Eng) (i : Instr) (f : VForm) (g : Mask → Mask → Mask) (s : State) :
    Host.Outcome State Fault Refusal :=
  runEng e i (fun x =>
    adv (setP x (pReg f.vd) (g (getP x (pReg f.vs1)) (getP x (f.src2.setWidth 3))))) s

/-- The scalar rs2 := a function of ps1 (R142). -/
def predToS (e : Eng) (i : Instr) (f : VForm) (g : Mask → Dword) (s : State) :
    Host.Outcome State Fault Refusal :=
  runEng e i (fun x => adv (setS x f.src2 (g (getP x (pReg f.vs1))))) s

/-- PAND (R142). -/
def execPand (e : Eng) (f : VForm) (s : State) : Host.Outcome State Fault Refusal :=
  predOp e (.pand e f) f (fun a b => a &&& b) s

/-- POR (R142). -/
def execPor (e : Eng) (f : VForm) (s : State) : Host.Outcome State Fault Refusal :=
  predOp e (.por e f) f (fun a b => a ||| b) s

/-- PXOR (R142). -/
def execPxor (e : Eng) (f : VForm) (s : State) : Host.Outcome State Fault Refusal :=
  predOp e (.pxor e f) f (fun a b => a ^^^ b) s

/-- PANDN (R142). -/
def execPandn (e : Eng) (f : VForm) (s : State) : Host.Outcome State Fault Refusal :=
  predOp e (.pandn e f) f (fun a b => a &&& ~~~b) s

/-- PNOT (R142). -/
def execPnot (e : Eng) (f : VForm) (s : State) : Host.Outcome State Fault Refusal :=
  predOp e (.pnot e f) f (fun a _ => ~~~a) s

/-- PMOVS (R142). -/
def execPmovs (e : Eng) (f : VForm) (s : State) : Host.Outcome State Fault Refusal :=
  predToS e (.pmovs e f) f (fun a => a.setWidth 64) s

/-- PPOPC (R142). -/
def execPpopc (e : Eng) (f : VForm) (s : State) : Host.Outcome State Fault Refusal :=
  predToS e (.ppopc e f) f (fun a => BitVec.ofNat 64 (popCount a)) s

/-- PFIRST (R142). -/
def execPfirst (e : Eng) (f : VForm) (s : State) : Host.Outcome State Fault Refusal :=
  predToS e (.pfirst e f) f (fun a => BitVec.ofNat 64 (trailingZeros a)) s

/-- PSET (R142). -/
def execPset (e : Eng) (f : VForm) (s : State) : Host.Outcome State Fault Refusal :=
  runEng e (.pset e f) (fun x => adv (setP x (pReg f.vd) ((getS x f.src2).setWidth 16))) s

/-- VMTOP (R142). -/
def execVmtop (e : Eng) (f : VForm) (s : State) : Host.Outcome State Fault Refusal :=
  runEng e (.vmtop e f) (fun x => adv (setP x (pReg f.vd) (getVm x f.vs1))) s

/-- PTOVM (R142). -/
def execPtovm (e : Eng) (f : VForm) (s : State) : Host.Outcome State Fault Refusal :=
  runEng e (.ptovm e f) (fun x => adv (setVm x f.vd (getP x (pReg f.vs1)))) s

/-- VMAND (R142). -/
def execVmand (e : Eng) (f : VForm) (s : State) : Host.Outcome State Fault Refusal :=
  runEng e (.vmand e f) (fun x => adv (setVm x f.vd (getVm x f.vd &&& getP x (pReg f.vs1)))) s

/-- VMOV (R143). -/
def execVmov (e : Eng) (f : VForm) (s : State) : Host.Outcome State Fault Refusal :=
  runEng e (.vmov e f) (fun x => adv (putLanes x f.vd (active x f) (src1 x f) (ok1 x f))) s

/-- VSPLAT (R143). -/
def execVsplat (e : Eng) (f : VForm) (s : State) : Host.Outcome State Fault Refusal :=
  runEng e (.vsplat e f) (fun x =>
    adv (putLanes x f.vd (active x f) (fun _ => (getS x f.src2).setWidth 40) (fun _ => true))) s

/-- VIOTA (R143). -/
def execViota (e : Eng) (f : VForm) (s : State) : Host.Outcome State Fault Refusal :=
  runEng e (.viota e f) (fun x =>
    adv (putLanes x f.vd (active x f) (fun k => (getS x f.src2 + BitVec.ofNat 64 k).setWidth 40) (fun _ => true))) s

/-- VSEL (R143). -/
def execVsel (e : Eng) (f : VForm) (s : State) : Host.Outcome State Fault Refusal :=
  runEng e (.vsel e f) (fun x =>
    adv (putLanes x f.vd (fun _ => true) (fun k => if active x f k then src1 x f k else src2 x f k)
      (fun k => if active x f k then ok1 x f k else ok2 x f k))) s

/-- The active lanes in order. -/
def activeLanes (x : Engine) (f : VForm) : List Nat := (List.range 16).filter (active x f)

/-- VCOMPRESS (R143). -/
def execVcompress (e : Eng) (f : VForm) (s : State) : Host.Outcome State Fault Refusal :=
  runEng e (.vcompress e f) (fun x =>
    let l := activeLanes x f
    adv (putLanes x f.vd (fun _ => true)
      (fun k => match l[k]? with | some j => src1 x f j | none => 0)
      (fun k => match l[k]? with | some j => ok1 x f j | none => false))) s

/-- VEXPAND (R143). -/
def execVexpand (e : Eng) (f : VForm) (s : State) : Host.Outcome State Fault Refusal :=
  runEng e (.vexpand e f) (fun x =>
    adv (putLanes x f.vd (active x f)
      (fun k => src1 x f (countBits (active x f) k)) (fun k => ok1 x f (countBits (active x f) k)))) s

/-- Lane `n` of a register and its successor, 32 lanes in all. -/
def lane2 (x : Engine) (v : BitVec 4) (n : Nat) : Cell :=
  if n < 16 then lane (getV x v) n else lane (getV x (v + 1)) (n - 16)
def lane2Ok (x : Engine) (v : BitVec 4) (n : Nat) : Bool :=
  if n < 16 then (getVm x v).getLsbD n else (getVm x (v + 1)).getLsbD (n - 16)

/-- VPERM (R143). -/
def execVperm (e : Eng) (f : VForm) (s : State) : Host.Outcome State Fault Refusal :=
  runEng e (.vperm e f) (fun x =>
    let g := fun k => ((src1 x f k).setWidth 5).toNat
    adv (putLanes x f.vd (active x f) (fun k => lane2 x (vs2 f) (g k))
      (fun k => lane2Ok x (vs2 f) (g k) && ok1 x f k))) s

/-- VMOVS (R143). -/
def execVmovs (e : Eng) (f : VForm) (ln : BitVec 4) (s : State) : Host.Outcome State Fault Refusal :=
  runEng e (.vmovs e f ln) (fun x => adv (setS x f.src2 ((lane (getV x f.vs1) ln.toNat).signExtend 64))) s

/-- VMOVV (R143). -/
def execVmovv (e : Eng) (f : VForm) (ln : BitVec 4) (s : State) : Host.Outcome State Fault Refusal :=
  runEng e (.vmovv e f ln) (fun x =>
    adv (putLanes x f.vd (fun k => k == ln.toNat) (fun _ => (getS x f.src2).setWidth 40) (fun _ => true))) s

/-- A lane with its validity and its number. -/
structure Key where
  v : Cell
  ok : Bool
  idx : Nat
  deriving DecidableEq, Repr

/-- The strict relation of the sort order: invalid keys last, S the signedness and D the direction (R144). -/
def before (m : SortMode) (a b : Key) : Bool :=
  let less := fun (p q : Cell) => if m.s then p.slt q else decide (p < q)
  if a.ok && !b.ok then true
  else if !a.ok then false
  else if m.d then less b.v a.v
  else less a.v b.v

/-- Inserts a key after every key it does not stand before. -/
def insertKey (m : SortMode) (k : Key) (l : List Key) : List Key :=
  match l with
  | [] => [k]
  | a :: t => if before m k a then k :: a :: t else a :: insertKey m k t

/-- A stable sort: keys are inserted in lane order, each behind its equals. -/
def sortKeys (m : SortMode) (l : List Key) : List Key :=
  l.foldl (fun acc k => insertKey m k acc) []

/-- The lanes of a register as keys numbered from `n`. -/
def keysOf (x : Engine) (v : BitVec 4) (n : Nat) : List Key :=
  (List.range 16).map fun i => ⟨lane (getV x v) i, (getVm x v).getLsbD i, n + i⟩

/-- Writes a register from a list of lanes with validity. -/
def putList (x : Engine) (vd : BitVec 4) (l : List (Cell × Bool)) : Engine :=
  putLanes x vd (fun _ => true) (fun k => (l[k]?.getD (0, false)).1) (fun k => (l[k]?.getD (0, false)).2)

/-- VSORT (R145): keys of vs1 to vd, the lanes of vs2 moved alike to vd + 1. -/
def execVsort (e : Eng) (f : VForm) (m : SortMode) (s : State) : Host.Outcome State Fault Refusal :=
  runEng e (.vsort e f m) (fun x =>
    let l := sortKeys m (keysOf x f.vs1 0)
    let c := getV x (vs2 f)
    let cm := getVm x (vs2 f)
    adv (putList (putList x f.vd (l.map fun k => (k.v, k.ok))) (f.vd + 1)
      (l.map fun k => (lane c k.idx, cm.getLsbD k.idx)))) s

/-- The merge procedure of R146: `n` outputs of two lists, ties to the first. -/
def mergeKeys (m : SortMode) (n : Nat) (a b : List Key) : List Key :=
  match n with
  | 0 => []
  | n + 1 =>
    match a, b with
    | [], [] => []
    | k :: t, [] => k :: mergeKeys m n t []
    | [], q :: r => q :: mergeKeys m n [] r
    | k :: t, q :: r =>
      if before m q k then q :: mergeKeys m n (k :: t) r else k :: mergeKeys m n t (q :: r)

/-- VMERGE (R146): 32 outputs to vd and vd + 1, values or indices. -/
def execVmerge (e : Eng) (f : VForm) (m : SortMode) (s : State) : Host.Outcome State Fault Refusal :=
  runEng e (.vmerge e f m) (fun x =>
    let l := mergeKeys m 32 (keysOf x f.vs1 0) (keysOf x (vs2 f) 16)
    let o := l.map fun k => if m.i then (BitVec.ofNat 40 k.idx, true) else (k.v, k.ok)
    adv (putList (putList x f.vd (o.take 16)) (f.vd + 1) (o.drop 16))) s

end Sys2Proof.Machine
end

