-- ==== Sys2Proof/Machine/VecReduce.lean ====
section
/-! DEFINITION. Scan, reduce and accumulate (R147 to R149). -/

namespace Sys2Proof.Machine

open Sys2Proof

/-- A lane contributes when it is active and its source lane is valid (R147). -/
def contrib1 (x : Engine) (f : VForm) (i : Nat) : Bool := active x f i && ok1 x f i
def contrib2 (x : Engine) (f : VForm) (i : Nat) : Bool := contrib1 x f i && ok2 x f i

/-- The sum of `g` over the indices below `n` that `c` selects. -/
def sumOver {w : Nat} (c : Nat → Bool) (g : Nat → BitVec w) : Nat → BitVec w
  | 0 => 0
  | n + 1 => sumOver c g n + (if c n then g n else 0)

/-- The choice among the selected indices below `n`. -/
def foldOver {w : Nat} (c : Nat → Bool) (g : Nat → BitVec w) (pick : BitVec w → BitVec w → BitVec w) :
    Nat → Option (BitVec w)
  | 0 => none
  | n + 1 =>
    match foldOver c g pick n with
    | none => if c n then some (g n) else none
    | some b => if c n then some (pick b (g n)) else some b

/-- The carry-in of a scan. -/
def carryIn (x : Engine) (f : VForm) : Cell := if f.f then (getS x f.src2).setWidth 40 else 0

/-- Inclusive or exclusive prefix sums into every lane, all valid (R147). -/
def scan (e : Eng) (i : Instr) (f : VForm) (incl : Nat) (s : State) : Host.Outcome State Fault Refusal :=
  runEng e i (fun x =>
    adv (putLanes x f.vd (fun _ => true)
      (fun k => carryIn x f + sumOver (contrib1 x f) (src1 x f) (k + incl)) (fun _ => true))) s

/-- A reduction: pair 0 receives the result and its validity, the other lanes 0 and invalid (R147). -/
def putReduce (x : Engine) (vd : BitVec 4) (r : Wide) (ok : Bool) : Engine :=
  putLanes x vd (fun _ => true) (fun k => if k < 2 then half r k else 0) (fun k => decide (k < 2) && ok)

def reduce (e : Eng) (i : Instr) (f : VForm) (g : Engine → Wide × Bool) (s : State) :
    Host.Outcome State Fault Refusal :=
  runEng e i (fun x => adv (putReduce x f.vd (g x).1 (g x).2)) s

/-- The smallest or largest contributing lane, extended with the instruction's signedness. -/
def pickLane (x : Engine) (f : VForm) (pick : Cell → Cell → Cell) (ext : Cell → Wide) : Wide × Bool :=
  match foldOver (contrib1 x f) (src1 x f) pick 16 with
  | some c => (ext c, true)
  | none => (0, false)

/-- Lane `i` of an accumulator. -/
def accLane (a : Vector Wide 16) (i : Nat) : Wide := a[i]?.getD 0

/-- Rewrites the selected lanes of the accumulator that vd names (R147). -/
def accum (e : Eng) (i : Instr) (f : VForm) (sel : Engine → Nat → Bool) (g : Engine → Nat → Wide → Wide)
    (s : State) : Host.Outcome State Fault Refusal :=
  runEng e i (fun x =>
    let k : BitVec 3 := f.vd.setWidth 3
    let a := getA x k
    adv (setA x k (Vector.ofFn fun j => if sel x j.val then g x j.val a[j] else a[j]))) s

/-- VSCAN (R147). -/
def execVscan (e : Eng) (f : VForm) (s : State) : Host.Outcome State Fault Refusal := scan e (.vscan e f) f 1 s

/-- VSCANX (R147). -/
def execVscanx (e : Eng) (f : VForm) (s : State) : Host.Outcome State Fault Refusal := scan e (.vscanx e f) f 0 s

/-- VRSUM (R147). -/
def execVrsum (e : Eng) (f : VForm) (s : State) : Host.Outcome State Fault Refusal :=
  reduce e (.vrsum e f) f (fun x => (sumOver (contrib1 x f) (fun k => (src1 x f k).signExtend 80) 16, true)) s

/-- VRSUMU (R147). -/
def execVrsumu (e : Eng) (f : VForm) (s : State) : Host.Outcome State Fault Refusal :=
  reduce e (.vrsumu e f) f (fun x => (sumOver (contrib1 x f) (fun k => (src1 x f k).setWidth 80) 16, true)) s

/-- VRMIN (R147). -/
def execVrmin (e : Eng) (f : VForm) (s : State) : Host.Outcome State Fault Refusal :=
  reduce e (.vrmin e f) f (fun x => pickLane x f smin (·.signExtend 80)) s

/-- VRMAX (R147). -/
def execVrmax (e : Eng) (f : VForm) (s : State) : Host.Outcome State Fault Refusal :=
  reduce e (.vrmax e f) f (fun x => pickLane x f smax (·.signExtend 80)) s

/-- VRMINU (R147). -/
def execVrminu (e : Eng) (f : VForm) (s : State) : Host.Outcome State Fault Refusal :=
  reduce e (.vrminu e f) f (fun x => pickLane x f umin (·.setWidth 80)) s

/-- VRMAXU (R147). -/
def execVrmaxu (e : Eng) (f : VForm) (s : State) : Host.Outcome State Fault Refusal :=
  reduce e (.vrmaxu e f) f (fun x => pickLane x f umax (·.setWidth 80)) s

/-- VRCNT (R147). -/
def execVrcnt (e : Eng) (f : VForm) (s : State) : Host.Outcome State Fault Refusal :=
  reduce e (.vrcnt e f) f (fun x => (BitVec.ofNat 80 (countBits (contrib1 x f) 16), true)) s

/-- VRASUM (R147). -/
def execVrasum (e : Eng) (f : VForm) (s : State) : Host.Outcome State Fault Refusal :=
  reduce e (.vrasum e f) f (fun x => (sumOver (active x f) (accLane (getA x (f.vs1.setWidth 3))) 16, true)) s

/-- VACC (R147). -/
def execVacc (e : Eng) (f : VForm) (s : State) : Host.Outcome State Fault Refusal :=
  accum e (.vacc e f) f (fun x => contrib1 x f) (fun x k a => a + (src1 x f k).signExtend 80) s

/-- VACCU (R147). -/
def execVaccu (e : Eng) (f : VForm) (s : State) : Host.Outcome State Fault Refusal :=
  accum e (.vaccu e f) f (fun x => contrib1 x f) (fun x k a => a + (src1 x f k).setWidth 80) s

/-- VACCM (R147). -/
def execVaccm (e : Eng) (f : VForm) (s : State) : Host.Outcome State Fault Refusal :=
  accum e (.vaccm e f) f (fun x => contrib2 x f) (fun x k a =>
      a + (src1 x f k).signExtend 80 * (src2 x f k).signExtend 80) s

/-- VACCMU (R147). -/
def execVaccmu (e : Eng) (f : VForm) (s : State) : Host.Outcome State Fault Refusal :=
  accum e (.vaccmu e f) f (fun x => contrib2 x f) (fun x k a =>
      a + (src1 x f k).setWidth 80 * (src2 x f k).setWidth 80) s

/-- VACLR (R147). -/
def execVaclr (e : Eng) (f : VForm) (s : State) : Host.Outcome State Fault Refusal :=
  accum e (.vaclr e f) f (fun x => active x f) (fun _ _ _ => 0) s

/-- VAMOV (R147): accumulator lanes 0 to 7 to the pairs of vd, 8 to 15 to those of vd + 1. -/
def execVamov (e : Eng) (f : VForm) (s : State) : Host.Outcome State Fault Refusal :=
  runEng e (.vamov e f) (fun x =>
    let a := getA x (f.vs1.setWidth 3)
    adv (putPairs (putPairs x f.vd (fun _ => true) (accLane a) (fun _ => true)) (f.vd + 1)
      (fun _ => true) (fun k => accLane a (8 + k)) (fun _ => true))) s

end Sys2Proof.Machine
end

