-- ==== Sys2Proof/Machine/Dispatch.lean ====
section
/-! DEFINITION. One arm per constructor of Instr: the meaning it calls. -/

namespace Sys2Proof.Machine

open Sys2Proof

def exec (i : Instr) (s : State) : Host.Outcome State Fault Refusal :=
  match i with
  | .beatTick sel => Sys2Proof.Machine.execBeatTick sel s
  | .threadPromotion th => Sys2Proof.Machine.execThreadPromotion th s
  | .beatPeriodWrite w => Sys2Proof.Machine.execBeatPeriodWrite w s
  | .beatPhaseWrite w => Sys2Proof.Machine.execBeatPhaseWrite w s
  | .beatCtlWrite w => Sys2Proof.Machine.execBeatCtlWrite w s
  | .beatInEdge tm => Sys2Proof.Machine.execBeatInEdge tm s
  | .beatInFreerun tm => Sys2Proof.Machine.execBeatInFreerun tm s
  | .quietWindowStep c drift => Sys2Proof.Machine.execQuietWindowStep c drift s
  | .handlerEntry e => Sys2Proof.Machine.execHandlerEntry e s
  | .errorInterruptRaise e k x => Sys2Proof.Machine.execErrorInterruptRaise e k x s
  | .syncExceptionRaise e => Sys2Proof.Machine.execSyncExceptionRaise e s
  | .engineKernelReload e => Sys2Proof.Machine.execEngineKernelReload e s
  | .engCtlWrite e w => Sys2Proof.Machine.execEngCtlWrite e w s
  | .engCsDataWrite e w => Sys2Proof.Machine.execEngCsDataWrite e w s
  | .engCsDataRead e ag => Sys2Proof.Machine.execEngCsDataRead e ag s
  | .storeBufferDrain e => Sys2Proof.Machine.execStoreBufferDrain e s
  | .discardEnd e => Sys2Proof.Machine.execDiscardEnd e s
  | .add e f => Sys2Proof.Machine.execAdd e f s
  | .sub e f => Sys2Proof.Machine.execSub e f s
  | .andOp e f => Sys2Proof.Machine.execAndOp e f s
  | .orOp e f => Sys2Proof.Machine.execOrOp e f s
  | .xor e f => Sys2Proof.Machine.execXor e f s
  | .andn e f => Sys2Proof.Machine.execAndn e f s
  | .sll e f => Sys2Proof.Machine.execSll e f s
  | .srl e f => Sys2Proof.Machine.execSrl e f s
  | .sra e f => Sys2Proof.Machine.execSra e f s
  | .slt e f => Sys2Proof.Machine.execSlt e f s
  | .sltu e f => Sys2Proof.Machine.execSltu e f s
  | .min e f => Sys2Proof.Machine.execMin e f s
  | .max e f => Sys2Proof.Machine.execMax e f s
  | .minu e f => Sys2Proof.Machine.execMinu e f s
  | .maxu e f => Sys2Proof.Machine.execMaxu e f s
  | .clz e f => Sys2Proof.Machine.execClz e f s
  | .ctz e f => Sys2Proof.Machine.execCtz e f s
  | .popc e f => Sys2Proof.Machine.execPopc e f s
  | .mul e f => Sys2Proof.Machine.execMul e f s
  | .mulh e f => Sys2Proof.Machine.execMulh e f s
  | .mulhu e f => Sys2Proof.Machine.execMulhu e f s
  | .div e f => Sys2Proof.Machine.execDiv e f s
  | .divu e f => Sys2Proof.Machine.execDivu e f s
  | .rem e f => Sys2Proof.Machine.execRem e f s
  | .remu e f => Sys2Proof.Machine.execRemu e f s
  | .addi e f => Sys2Proof.Machine.execAddi e f s
  | .andi e f => Sys2Proof.Machine.execAndi e f s
  | .ori e f => Sys2Proof.Machine.execOri e f s
  | .xori e f => Sys2Proof.Machine.execXori e f s
  | .slti e f => Sys2Proof.Machine.execSlti e f s
  | .sltiu e f => Sys2Proof.Machine.execSltiu e f s
  | .lui e f => Sys2Proof.Machine.execLui e f s
  | .slli e f => Sys2Proof.Machine.execSlli e f s
  | .srli e f => Sys2Proof.Machine.execSrli e f s
  | .srai e f => Sys2Proof.Machine.execSrai e f s
  | .ext e f => Sys2Proof.Machine.execExt e f s
  | .exts e f => Sys2Proof.Machine.execExts e f s
  | .lb e f => Sys2Proof.Machine.execLb e f s
  | .lh e f => Sys2Proof.Machine.execLh e f s
  | .lw e f => Sys2Proof.Machine.execLw e f s
  | .ld e f => Sys2Proof.Machine.execLd e f s
  | .lbu e f => Sys2Proof.Machine.execLbu e f s
  | .lhu e f => Sys2Proof.Machine.execLhu e f s
  | .lwu e f => Sys2Proof.Machine.execLwu e f s
  | .lc e f => Sys2Proof.Machine.execLc e f s
  | .lcu e f => Sys2Proof.Machine.execLcu e f s
  | .sb e f => Sys2Proof.Machine.execSb e f s
  | .sh e f => Sys2Proof.Machine.execSh e f s
  | .sw e f => Sys2Proof.Machine.execSw e f s
  | .sd e f => Sys2Proof.Machine.execSd e f s
  | .sc e f => Sys2Proof.Machine.execSc e f s
  | .beq e f => Sys2Proof.Machine.execBeq e f s
  | .bne e f => Sys2Proof.Machine.execBne e f s
  | .blt e f => Sys2Proof.Machine.execBlt e f s
  | .bge e f => Sys2Proof.Machine.execBge e f s
  | .bltu e f => Sys2Proof.Machine.execBltu e f s
  | .bgeu e f => Sys2Proof.Machine.execBgeu e f s
  | .jal e f => Sys2Proof.Machine.execJal e f s
  | .jalr e f => Sys2Proof.Machine.execJalr e f s
  | .bpany e f => Sys2Proof.Machine.execBpany e f s
  | .bpnone e f => Sys2Proof.Machine.execBpnone e f s
  | .bpall e f => Sys2Proof.Machine.execBpall e f s
  | .fence e f => Sys2Proof.Machine.execFence e f s
  | .iflush e f => Sys2Proof.Machine.execIflush e f s
  | .yield e f => Sys2Proof.Machine.execYield e f s
  | .beatwait e f => Sys2Proof.Machine.execBeatwait e f s
  | .eret e f => Sys2Proof.Machine.execEret e f s
  | .crr e f => Sys2Proof.Machine.execCrr e f s
  | .crw e f => Sys2Proof.Machine.execCrw e f s
  | .clean e f => Sys2Proof.Machine.execClean e f s
  | .inv e f => Sys2Proof.Machine.execInv e f s
  | .clinv e f => Sys2Proof.Machine.execClinv e f s
  | .sopen e f => Sys2Proof.Machine.execSopen e f s
  | .swait e f => Sys2Proof.Machine.execSwait e f s
  | .sclose e f => Sys2Proof.Machine.execSclose e f s
  | .csrch e f => Sys2Proof.Machine.execCsrch e f s
  | .cins e f => Sys2Proof.Machine.execCins e f s
  | .csrchins e f => Sys2Proof.Machine.execCsrchins e f s
  | .cdel e f => Sys2Proof.Machine.execCdel e f s
  | .crd e f => Sys2Proof.Machine.execCrd e f s
  | .cwr e f => Sys2Proof.Machine.execCwr e f s
  | .camReply e => Sys2Proof.Machine.execCamReply e s
  | .vadd e f => Sys2Proof.Machine.execVadd e f s
  | .vsub e f => Sys2Proof.Machine.execVsub e f s
  | .vmul e f => Sys2Proof.Machine.execVmul e f s
  | .vmulh e f => Sys2Proof.Machine.execVmulh e f s
  | .vmulhu e f => Sys2Proof.Machine.execVmulhu e f s
  | .vmin e f => Sys2Proof.Machine.execVmin e f s
  | .vmax e f => Sys2Proof.Machine.execVmax e f s
  | .vminu e f => Sys2Proof.Machine.execVminu e f s
  | .vmaxu e f => Sys2Proof.Machine.execVmaxu e f s
  | .vand e f => Sys2Proof.Machine.execVand e f s
  | .vor e f => Sys2Proof.Machine.execVor e f s
  | .vxor e f => Sys2Proof.Machine.execVxor e f s
  | .vandn e f => Sys2Proof.Machine.execVandn e f s
  | .vsll e f => Sys2Proof.Machine.execVsll e f s
  | .vsrl e f => Sys2Proof.Machine.execVsrl e f s
  | .vsra e f => Sys2Proof.Machine.execVsra e f s
  | .vabs e f => Sys2Proof.Machine.execVabs e f s
  | .vhash e f => Sys2Proof.Machine.execVhash e f s
  | .vpopc e f => Sys2Proof.Machine.execVpopc e f s
  | .vclz e f => Sys2Proof.Machine.execVclz e f s
  | .vctz e f => Sys2Proof.Machine.execVctz e f s
  | .vaddp e f => Sys2Proof.Machine.execVaddp e f s
  | .vsubp e f => Sys2Proof.Machine.execVsubp e f s
  | .vmulp e f => Sys2Proof.Machine.execVmulp e f s
  | .vminp e f => Sys2Proof.Machine.execVminp e f s
  | .vmaxp e f => Sys2Proof.Machine.execVmaxp e f s
  | .vminup e f => Sys2Proof.Machine.execVminup e f s
  | .vmaxup e f => Sys2Proof.Machine.execVmaxup e f s
  | .vcmpeq e f pair => Sys2Proof.Machine.execVcmpeq e f pair s
  | .vcmpne e f pair => Sys2Proof.Machine.execVcmpne e f pair s
  | .vcmplt e f pair => Sys2Proof.Machine.execVcmplt e f pair s
  | .vcmpge e f pair => Sys2Proof.Machine.execVcmpge e f pair s
  | .vcmpltu e f pair => Sys2Proof.Machine.execVcmpltu e f pair s
  | .vcmpgeu e f pair => Sys2Proof.Machine.execVcmpgeu e f pair s
  | .vcmple e f pair => Sys2Proof.Machine.execVcmple e f pair s
  | .vcmpgt e f pair => Sys2Proof.Machine.execVcmpgt e f pair s
  | .vcmpleu e f pair => Sys2Proof.Machine.execVcmpleu e f pair s
  | .vcmpgtu e f pair => Sys2Proof.Machine.execVcmpgtu e f pair s
  | .pand e f => Sys2Proof.Machine.execPand e f s
  | .por e f => Sys2Proof.Machine.execPor e f s
  | .pxor e f => Sys2Proof.Machine.execPxor e f s
  | .pandn e f => Sys2Proof.Machine.execPandn e f s
  | .pnot e f => Sys2Proof.Machine.execPnot e f s
  | .pmovs e f => Sys2Proof.Machine.execPmovs e f s
  | .pset e f => Sys2Proof.Machine.execPset e f s
  | .ppopc e f => Sys2Proof.Machine.execPpopc e f s
  | .pfirst e f => Sys2Proof.Machine.execPfirst e f s
  | .vmtop e f => Sys2Proof.Machine.execVmtop e f s
  | .ptovm e f => Sys2Proof.Machine.execPtovm e f s
  | .vmand e f => Sys2Proof.Machine.execVmand e f s
  | .vmov e f => Sys2Proof.Machine.execVmov e f s
  | .vsplat e f => Sys2Proof.Machine.execVsplat e f s
  | .viota e f => Sys2Proof.Machine.execViota e f s
  | .vsel e f => Sys2Proof.Machine.execVsel e f s
  | .vcompress e f => Sys2Proof.Machine.execVcompress e f s
  | .vexpand e f => Sys2Proof.Machine.execVexpand e f s
  | .vperm e f => Sys2Proof.Machine.execVperm e f s
  | .vmovs e f lane => Sys2Proof.Machine.execVmovs e f lane s
  | .vmovv e f lane => Sys2Proof.Machine.execVmovv e f lane s
  | .vsort e f m => Sys2Proof.Machine.execVsort e f m s
  | .vmerge e f m => Sys2Proof.Machine.execVmerge e f m s
  | .vscan e f => Sys2Proof.Machine.execVscan e f s
  | .vscanx e f => Sys2Proof.Machine.execVscanx e f s
  | .vrsum e f => Sys2Proof.Machine.execVrsum e f s
  | .vrsumu e f => Sys2Proof.Machine.execVrsumu e f s
  | .vrmin e f => Sys2Proof.Machine.execVrmin e f s
  | .vrmax e f => Sys2Proof.Machine.execVrmax e f s
  | .vrminu e f => Sys2Proof.Machine.execVrminu e f s
  | .vrmaxu e f => Sys2Proof.Machine.execVrmaxu e f s
  | .vrcnt e f => Sys2Proof.Machine.execVrcnt e f s
  | .vrasum e f => Sys2Proof.Machine.execVrasum e f s
  | .vacc e f => Sys2Proof.Machine.execVacc e f s
  | .vaccu e f => Sys2Proof.Machine.execVaccu e f s
  | .vaccm e f => Sys2Proof.Machine.execVaccm e f s
  | .vaccmu e f => Sys2Proof.Machine.execVaccmu e f s
  | .vaclr e f => Sys2Proof.Machine.execVaclr e f s
  | .vamov e f => Sys2Proof.Machine.execVamov e f s
  | .vfadd e f dbl => Sys2Proof.Machine.execVfadd e f dbl s
  | .vfsub e f dbl => Sys2Proof.Machine.execVfsub e f dbl s
  | .vfmul e f dbl => Sys2Proof.Machine.execVfmul e f dbl s
  | .vfdiv e f dbl => Sys2Proof.Machine.execVfdiv e f dbl s
  | .vfsqrt e f dbl => Sys2Proof.Machine.execVfsqrt e f dbl s
  | .vfmin e f dbl => Sys2Proof.Machine.execVfmin e f dbl s
  | .vfmax e f dbl => Sys2Proof.Machine.execVfmax e f dbl s
  | .vfeq e f dbl => Sys2Proof.Machine.execVfeq e f dbl s
  | .vflt e f dbl => Sys2Proof.Machine.execVflt e f dbl s
  | .vfle e f dbl => Sys2Proof.Machine.execVfle e f dbl s
  | .vcvtfi e f => Sys2Proof.Machine.execVcvtfi e f s
  | .vcvtfu e f => Sys2Proof.Machine.execVcvtfu e f s
  | .vcvtif e f => Sys2Proof.Machine.execVcvtif e f s
  | .vcvtuf e f => Sys2Proof.Machine.execVcvtuf e f s
  | .vwideni e f h => Sys2Proof.Machine.execVwideni e f h s
  | .vwidenu e f h => Sys2Proof.Machine.execVwidenu e f h s
  | .vwidenf e f h => Sys2Proof.Machine.execVwidenf e f h s
  | .vnarrowi e f h => Sys2Proof.Machine.execVnarrowi e f h s
  | .vnarrowf e f h => Sys2Proof.Machine.execVnarrowf e f h s
  | .vcvtdi e f => Sys2Proof.Machine.execVcvtdi e f s
  | .vcvtid e f => Sys2Proof.Machine.execVcvtid e f s
  | .vgather e f g => Sys2Proof.Machine.execVgather e f g s
  | .vacct e f => Sys2Proof.Machine.execVacct e f s
  | .vld e f pair => Sys2Proof.Machine.execVld e f pair s
  | .vst e f pair => Sys2Proof.Machine.execVst e f pair s
  | .pld e f => Sys2Proof.Machine.execPld e f s
  | .pst e f => Sys2Proof.Machine.execPst e f s
  | .vmld e f => Sys2Proof.Machine.execVmld e f s
  | .vmst e f => Sys2Proof.Machine.execVmst e f s
  | .streamHeaderArrival e k => Sys2Proof.Machine.execStreamHeaderArrival e k s
  | .streamLineArrival e k line => Sys2Proof.Machine.execStreamLineArrival e k line s
  | .streamUnitWrite e k => Sys2Proof.Machine.execStreamUnitWrite e k s
  | .streamConsumedPoll e k => Sys2Proof.Machine.execStreamConsumedPoll e k s
  | .sieveJobCopy e k => Sys2Proof.Machine.execSieveJobCopy e k s
  | .sieveJobArrival c e k => Sys2Proof.Machine.execSieveJobArrival c e k s
  | .sieveTurn c o => Sys2Proof.Machine.execSieveTurn c o s
  | .sieveResultArrival e k c => Sys2Proof.Machine.execSieveResultArrival e k c s
  | .sieveJobAged c e k => Sys2Proof.Machine.execSieveJobAged c e k s
  | .camPortSend t => Sys2Proof.Machine.execCamPortSend t s
  | .camSearchServe e fl => Sys2Proof.Machine.execCamSearchServe e fl s
  | .camSearchInsertServe e fl => Sys2Proof.Machine.execCamSearchInsertServe e fl s
  | .camInsertServe e fl => Sys2Proof.Machine.execCamInsertServe e fl s
  | .camDeleteServe e fl => Sys2Proof.Machine.execCamDeleteServe e fl s
  | .camWriteServe e fl => Sys2Proof.Machine.execCamWriteServe e fl s
  | .camReadServe e fl => Sys2Proof.Machine.execCamReadServe e fl s
  | .respacerMove b off up => Sys2Proof.Machine.execRespacerMove b off up s
  | .camParityScanRead b fl => Sys2Proof.Machine.execCamParityScanRead b fl s
  | .shadowQueueWrite t => Sys2Proof.Machine.execShadowQueueWrite t s
  | .camCfgWrite b w => Sys2Proof.Machine.execCamCfgWrite b w s
  | .camClear b w => Sys2Proof.Machine.execCamClear b w s
  | .flightRun p q ix pick => Sys2Proof.Machine.execFlightRun p q ix pick s
  | .flowRelease p flow => Sys2Proof.Machine.execFlowRelease p flow s
  | .systemThreadDispatch u => Sys2Proof.Machine.execSystemThreadDispatch u s
  | .doorbell p q w => Sys2Proof.Machine.execDoorbell p q w s
  | .queueEntryRead p q => Sys2Proof.Machine.execQueueEntryRead p q s
  | .entryCompletion p q ix => Sys2Proof.Machine.execEntryCompletion p q ix s
  | .msiTimerExpiry p q => Sys2Proof.Machine.execMsiTimerExpiry p q s
  | .createQueue p ix => Sys2Proof.Machine.execCreateQueue p ix s
  | .deleteQueue p ix => Sys2Proof.Machine.execDeleteQueue p ix s
  | .resetQueue p ix => Sys2Proof.Machine.execResetQueue p ix s
  | .abortEntry p ix => Sys2Proof.Machine.execAbortEntry p ix s
  | .getQueue p ix => Sys2Proof.Machine.execGetQueue p ix s
  | .setModeration p ix => Sys2Proof.Machine.execSetModeration p ix s
  | .camConfig p ix => Sys2Proof.Machine.execCamConfig p ix s
  | .getPartition p ix => Sys2Proof.Machine.execGetPartition p ix s
  | .adminResetAbort p w => Sys2Proof.Machine.execAdminResetAbort p w s
  | .adminResetResume p w => Sys2Proof.Machine.execAdminResetResume p w s
  | .prtAdminCfgWrite p w => Sys2Proof.Machine.execPrtAdminCfgWrite p w s
  | .prtAdminModWrite p w => Sys2Proof.Machine.execPrtAdminModWrite p w s
  | .alloc p q ix pick blk => Sys2Proof.Machine.execAlloc p q ix pick blk s
  | .free p q ix => Sys2Proof.Machine.execFree p q ix s
  | .pin p q ix => Sys2Proof.Machine.execPin p q ix s
  | .unpin p q ix => Sys2Proof.Machine.execUnpin p q ix s
  | .query p q ix => Sys2Proof.Machine.execQuery p q ix s
  | .pageIn p q ix => Sys2Proof.Machine.execPageIn p q ix s
  | .segmentFreeRelease h => Sys2Proof.Machine.execSegmentFreeRelease h s
  | .compress p q ix mis => Sys2Proof.Machine.execCompress p q ix mis s
  | .decompress p q ix => Sys2Proof.Machine.execDecompress p q ix s
  | .codecDispatch k => Sys2Proof.Machine.execCodecDispatch k s
  | .loadKey p q ix => Sys2Proof.Machine.execLoadKey p q ix s
  | .hash p q ix => Sys2Proof.Machine.execHash p q ix s
  | .release p q ix => Sys2Proof.Machine.execRelease p q ix s
  | .donate w => Sys2Proof.Machine.execDonate w s
  | .reclaim w => Sys2Proof.Machine.execReclaim w s
  | .pgrCtlWrite w => Sys2Proof.Machine.execPgrCtlWrite w s
  | .pageOut h k k2 mis => Sys2Proof.Machine.execPageOut h k k2 mis s
  | .pagerPageIn h k pick fl => Sys2Proof.Machine.execPagerPageIn h k pick fl s
  | .cxlTierMove h k k2 mis => Sys2Proof.Machine.execCxlTierMove h k k2 mis s
  | .l1FillComplete e => Sys2Proof.Machine.execL1FillComplete e s
  | .mezzanineSectorArrival t pa => Sys2Proof.Machine.execMezzanineSectorArrival t pa s
  | .victimWriteStart t => Sys2Proof.Machine.execVictimWriteStart t s
  | .victimWriteAccept t => Sys2Proof.Machine.execVictimWriteAccept t s
  | .galleryRequest t o => Sys2Proof.Machine.execGalleryRequest t o s
  | .galleryVictimWriteback t => Sys2Proof.Machine.execGalleryVictimWriteback t s
  | .coreFence h pred succ => Sys2Proof.Machine.execCoreFence h pred succ s
  | .cboClean h acc => Sys2Proof.Machine.execCboClean h acc s
  | .cboFlush h acc => Sys2Proof.Machine.execCboFlush h acc s
  | .cboInval h acc => Sys2Proof.Machine.execCboInval h acc s
  | .cboZero h acc => Sys2Proof.Machine.execCboZero h acc s
  | .coreMisalignedAccess h acc => Sys2Proof.Machine.execCoreMisalignedAccess h acc s
  | .coreLr h acc => Sys2Proof.Machine.execCoreLr h acc s
  | .coreSc h acc v spurious => Sys2Proof.Machine.execCoreSc h acc v spurious s
  | .coreAmo h acc op v => Sys2Proof.Machine.execCoreAmo h acc op v s
  | .controlWindowLoad h ag off size => Sys2Proof.Machine.execControlWindowLoad h ag off size s
  | .controlWindowStore h ag off size v => Sys2Proof.Machine.execControlWindowStore h ag off size v s
  | .wfi h => Sys2Proof.Machine.execWfi h s
  | .deepIdleEntry h => Sys2Proof.Machine.execDeepIdleEntry h s
  | .packageDeepIdleEntry => Sys2Proof.Machine.execPackageDeepIdleEntry s
  | .hartWake h => Sys2Proof.Machine.execHartWake h s
  | .imsicWrite addr data => Sys2Proof.Machine.execImsicWrite addr data s
  | .dramReadIssue c o => Sys2Proof.Machine.execDramReadIssue c o s
  | .writeQueueDrain c => Sys2Proof.Machine.execWriteQueueDrain c s
  | .dramRequestPromotion c ix => Sys2Proof.Machine.execDramRequestPromotion c ix s
  | .refreshWindowStart c => Sys2Proof.Machine.execRefreshWindowStart c s
  | .dqsOscillatorRead c drift => Sys2Proof.Machine.execDqsOscillatorRead c drift s
  | .linkRetraining c o => Sys2Proof.Machine.execLinkRetraining c o s
  | .dramAlert c sub k => Sys2Proof.Machine.execDramAlert c sub k s
  | .patrolScrubRead c o => Sys2Proof.Machine.execPatrolScrubRead c o s
  | .ceWindowExpiry c => Sys2Proof.Machine.execCeWindowExpiry c s
  | .ledgerRead p q ix fl => Sys2Proof.Machine.execLedgerRead p q ix fl s
  | .ledgerWrite p q ix => Sys2Proof.Machine.execLedgerWrite p q ix s
  | .ledgerFlush p q ix => Sys2Proof.Machine.execLedgerFlush p q ix s
  | .deallocate p q ix => Sys2Proof.Machine.execDeallocate p q ix s
  | .writeZeroes p q ix => Sys2Proof.Machine.execWriteZeroes p q ix s
  | .ledgerAbort p q ix => Sys2Proof.Machine.execLedgerAbort p q ix s
  | .writeBufferDrain sp => Sys2Proof.Machine.execWriteBufferDrain sp s
  | .stackFailure k o => Sys2Proof.Machine.execStackFailure k o s
  | .selftestShortStart w => Sys2Proof.Machine.execSelftestShortStart w s
  | .selftestExtendedStart w => Sys2Proof.Machine.execSelftestExtendedStart w s
  | .selftestAbort w => Sys2Proof.Machine.execSelftestAbort w s
  | .selftestResume => Sys2Proof.Machine.execSelftestResume s
  | .selftestComplete fail fl => Sys2Proof.Machine.execSelftestComplete fail fl s
  | .adcSample v ix t => Sys2Proof.Machine.execAdcSample v ix t s
  | .holdupLoop => Sys2Proof.Machine.execHoldupLoop s
  | .chargeTermination => Sys2Proof.Machine.execChargeTermination s
  | .pageDirty pg => Sys2Proof.Machine.execPageDirty pg s
  | .dirtyMapRecordComplete pg => Sys2Proof.Machine.execDirtyMapRecordComplete pg s
  | .cleanerPageClean => Sys2Proof.Machine.execCleanerPageClean s
  | .heldWriteRelease ix => Sys2Proof.Machine.execHeldWriteRelease ix s
  | .pwrfailAccept o => Sys2Proof.Machine.execPwrfailAccept o s
  | .dgstStart sl w => Sys2Proof.Machine.execDgstStart sl w s
  | .dgstSqueeze sl w => Sys2Proof.Machine.execDgstSqueeze sl w s
  | .dgstSave sl w => Sys2Proof.Machine.execDgstSave sl w s
  | .dgstCompare sl w => Sys2Proof.Machine.execDgstCompare sl w s
  | .dgstRelease sl w => Sys2Proof.Machine.execDgstRelease sl w s
  | .dgstDataWrite sl w => Sys2Proof.Machine.execDgstDataWrite sl w s
  | .permutationComplete sl => Sys2Proof.Machine.execPermutationComplete sl s
  | .dgstSlotAssign sl w => Sys2Proof.Machine.execDgstSlotAssign sl w s
  | .partCreate => Sys2Proof.Machine.execPartCreate s
  | .partDestroy => Sys2Proof.Machine.execPartDestroy s
  | .partEngines => Sys2Proof.Machine.execPartEngines s
  | .partFreeze => Sys2Proof.Machine.execPartFreeze s
  | .partResume => Sys2Proof.Machine.execPartResume s
  | .partSave => Sys2Proof.Machine.execPartSave s
  | .partRestore => Sys2Proof.Machine.execPartRestore s
  | .partLog => Sys2Proof.Machine.execPartLog s
  | .mailboxDoorbell w => Sys2Proof.Machine.execMailboxDoorbell w s
  | .fwInfo => Sys2Proof.Machine.execFwInfo s
  | .fwStage => Sys2Proof.Machine.execFwStage s
  | .fwActivate => Sys2Proof.Machine.execFwActivate s
  | .activationPause => Sys2Proof.Machine.execActivationPause s
  | .settingsGet => Sys2Proof.Machine.execSettingsGet s
  | .settingsSet => Sys2Proof.Machine.execSettingsSet s
  | .nsCreate => Sys2Proof.Machine.execNsCreate s
  | .nsDelete => Sys2Proof.Machine.execNsDelete s
  | .ldgSelftest => Sys2Proof.Machine.execLdgSelftest s
  | .nsAttach => Sys2Proof.Machine.execNsAttach s
  | .pwrCeiling => Sys2Proof.Machine.execPwrCeiling s
  | .pwrInfo => Sys2Proof.Machine.execPwrInfo s
  | .beatSet => Sys2Proof.Machine.execBeatSet s
  | .hupConfig => Sys2Proof.Machine.execHupConfig s
  | .hupWindow => Sys2Proof.Machine.execHupWindow s
  | .hupDiscard => Sys2Proof.Machine.execHupDiscard s
  | .snapTrigger => Sys2Proof.Machine.execSnapTrigger s
  | .snapRead => Sys2Proof.Machine.execSnapRead s
  | .lifeRead => Sys2Proof.Machine.execLifeRead s
  | .lifeMirror => Sys2Proof.Machine.execLifeMirror s
  | .inject => Sys2Proof.Machine.execInject s
  | .idCerts => Sys2Proof.Machine.execIdCerts s
  | .attest => Sys2Proof.Machine.execAttest s
  | .recInfo => Sys2Proof.Machine.execRecInfo s
  | .recLoad flash => Sys2Proof.Machine.execRecLoad flash s
  | .recBoot => Sys2Proof.Machine.execRecBoot s
  | .resultGet => Sys2Proof.Machine.execResultGet s
  | .longCommandEnd ix o => Sys2Proof.Machine.execLongCommandEnd ix o s
  | .eventPop w => Sys2Proof.Machine.execEventPop w s
  | .healthConfirmation ok => Sys2Proof.Machine.execHealthConfirmation ok s
  | .trialTimerExpiry => Sys2Proof.Machine.execTrialTimerExpiry s
  | .meshLinkFailure t d => Sys2Proof.Machine.execMeshLinkFailure t d s
  | .routerFailure t => Sys2Proof.Machine.execRouterFailure t s
  | .eventRecordWrite => Sys2Proof.Machine.execEventRecordWrite s
  | .coalesceWindowExpiry cls inst => Sys2Proof.Machine.execCoalesceWindowExpiry cls inst s
  | .eventRingMsiTimer => Sys2Proof.Machine.execEventRingMsiTimer s
  | .fatalEvent t cause => Sys2Proof.Machine.execFatalEvent t cause s
  | .snapNEdge => Sys2Proof.Machine.execSnapNEdge s
  | .snapRelease w => Sys2Proof.Machine.execSnapRelease w s
  | .lifetimeLogWrite => Sys2Proof.Machine.execLifetimeLogWrite s
  | .lifetimeLogMirror ok => Sys2Proof.Machine.execLifetimeLogMirror ok s
  | .registerWrite off w => Sys2Proof.Machine.execRegisterWrite off w s
  | .coldReset o => Sys2Proof.Machine.execColdReset o s
  | .warmReset => Sys2Proof.Machine.execWarmReset s
  | .warmResetRelease o => Sys2Proof.Machine.execWarmResetRelease o s
  | .pwrokFall o => Sys2Proof.Machine.execPwrokFall o s
  | .refclkLoss => Sys2Proof.Machine.execRefclkLoss s
  | .vrTimeout hall ms100 => Sys2Proof.Machine.execVrTimeout hall ms100 s
  | .powerLoop watts => Sys2Proof.Machine.execPowerLoop watts s
  | .hallPowerCheck hall watts => Sys2Proof.Machine.execHallPowerCheck hall watts s
  | .thermalSensorRead tw te tf o => Sys2Proof.Machine.execThermalSensorRead tw te tf o s
  | .prochotIn low => Sys2Proof.Machine.execProchotIn low s
  | .uartTxGo w => Sys2Proof.Machine.execUartTxGo w s
  | .uartRxPop w => Sys2Proof.Machine.execUartRxPop w s
  | .uartRxByte b => Sys2Proof.Machine.execUartRxByte b s
  | .dmiAccess addr data wr => Sys2Proof.Machine.execDmiAccess addr data wr s
  | .i3cGetstatus => Sys2Proof.Machine.execI3cGetstatus s
  | .dischargeDisable => Sys2Proof.Machine.execDischargeDisable s
  | .errorChargeExpiry k => Sys2Proof.Machine.execErrorChargeExpiry k s
  | .uartTxByteSent => Sys2Proof.Machine.execUartTxByteSent s
  | .jtagInstruction ins => Sys2Proof.Machine.execJtagInstruction ins s
  | .dramRefreshCommand c => Sys2Proof.Machine.execDramRefreshCommand c s
  | .rootPortLinkChange rp ev => Sys2Proof.Machine.execRootPortLinkChange rp ev s
  | .inboundDeviceRequest rp req => Sys2Proof.Machine.execInboundDeviceRequest rp req s
  | .deviceCompletionTimeout rp h => Sys2Proof.Machine.execDeviceCompletionTimeout rp h s
  | .coreLoadStore h acc => Sys2Proof.Machine.execCoreLoadStore h acc s
  | .voltageSetPointReached hall mv => Sys2Proof.Machine.execVoltageSetPointReached hall mv s
  | .iommuCommand => Sys2Proof.Machine.execIommuCommand s

end Sys2Proof.Machine
end

