-- ==== Sys2Proof/Machine/Step.lean ====
section
/-! DEFINITION. One step: the command at the front of the queue takes effect; with nothing queued the part idles. -/

namespace Sys2Proof.Machine

open Sys2Proof

/-- The part with nothing to do: an engine cycle passes (DESIGN CHOICE, log entry 6). -/
def idle (s : State) : State := { s with dev := { s.dev with cycle := s.dev.cycle + 1 } }

/-- One step. -/
def step (s : State) : Host.Outcome State Fault Refusal :=
  match s.pending with
  | [] => .next (idle s)
  | c :: rest => exec c { s with pending := rest }

/-- The state with the command that a word spells put at the front of its queue. -/
def State.withFetchWord (s : State) (nbits w : Nat) : State :=
  match decodeTableWord nbits w with
  | some c => { s with pending := c :: s.pending }
  | none => s

end Sys2Proof.Machine
end

