-- ==== Sys2Proof/WellFormed.lean ====
section
/-! DEFINITION. The operands that a command can have: bounds that the types of Syntax.lean do not say.
The meanings are total and do not ask for them. -/

namespace Sys2Proof

/-- A register access: half a register is 32 bits (R541). -/
def RegAccess.wf (w : RegAccess) : Bool :=
  w.part == .whole || decide (w.value.toNat < 2 ^ 32)

/-- A unit address of the CAM fabric: 256 banks of 1,024 units. -/
def Flip.wf (f : Flip) : Bool := decide (f.unit < 262144)

/-- A unit flips once between two acts of its bank. -/
def wfFlips (l : List Flip) : Bool := l.all Flip.wf && decide ((l.map (·.unit)).Nodup)

/-- A split store is 2 to 8 bytes long (R82). -/
def SplitCut.wf (c : SplitCut) : Bool := c.size == 2 || c.size == 4 || c.size == 5 || c.size == 8

/-- A line whose worst word, of 80 bits, has flipped ones (R396). -/
def LineFlip.wf (f : LineFlip) : Bool := f.line % 64 == 0 && decide (0 < f.bits) && decide (f.bits ≤ 80)

/-- A core access of 1, 2, 4 or 8 bytes, its addresses within 64 and 56 bits, its causes within 6 bits, and a
store's data within its size. -/
def CoreAccess.wf (a : CoreAccess) : Bool :=
  [1, 2, 4, 8].contains a.size && decide (a.va < 2 ^ 64) && decide (a.pa < 2 ^ 56) && decide (a.pa2 < 2 ^ 56) &&
  (match a.fault with | some c => decide (c < 64) | none => true) &&
  (match a.fault2 with | some c => decide (c < 64) | none => true) &&
  (match a.store with | some v => decide (v.toNat < 2 ^ (8 * a.size)) | none => true)

/-- Lists of channels, harts and squares name each once. -/
def BootEnv.wf (o : BootEnv) : Bool :=
  decide o.slow.Nodup && decide o.repaired.Nodup && decide o.badHarts.Nodup && decide o.badRouters.Nodup

/-- A drain loses a channel once. -/
def DrainEnv.wf (o : DrainEnv) : Bool := decide o.lost.Nodup

/-- A device's access lies within one 4 KiB page, and a write's data within its size. -/
def DeviceReq.wf (q : DeviceReq) : Bool :=
  decide (0 < q.size) && decide (q.addr % 4096 + q.size ≤ 4096) && decide (q.addr < 2 ^ 64) &&
  (match q.store with | some v => decide (v < 2 ^ (8 * q.size)) | none => true)

/-- An offset of the control window and a size of a single access (R535, R541). -/
def wfWindow (off size : Nat) : Bool :=
  decide (off < 2 ^ 32) && (size == 4 || size == 8) && off % size == 0

/-- An index of a submission ring of at most 65,536 entries (R262). -/
def wfIndex (i : Nat) : Bool := decide (i < 65536)

/-- Whether the operands of a command are ones that it can have. -/
def Instr.wf (i : Instr) : Bool :=
  match i with
  | .beatTick sel => sel.cuts.all SplitCut.wf && sel.dram.all LineFlip.wf && sel.gal.all LineFlip.wf
  | .errorInterruptRaise _ _ x => x.cut.all SplitCut.wf
  | .beatPeriodWrite w | .beatPhaseWrite w | .beatCtlWrite w | .engCtlWrite _ w | .engCsDataWrite _ w
  | .camCfgWrite _ w | .camClear _ w | .doorbell _ _ w | .adminResetAbort _ w | .adminResetResume _ w
  | .prtAdminCfgWrite _ w | .prtAdminModWrite _ w | .donate w | .reclaim w | .pgrCtlWrite w
  | .selftestShortStart w | .selftestExtendedStart w | .selftestAbort w
  | .dgstStart _ w | .dgstSqueeze _ w | .dgstSave _ w | .dgstCompare _ w | .dgstRelease _ w | .dgstDataWrite _ w
  | .dgstSlotAssign _ w | .mailboxDoorbell w | .eventPop w | .snapRelease w | .uartTxGo w | .uartRxPop w => w.wf
  | .registerWrite off w => w.wf && decide (off < 2 ^ 32) && off % 8 == 0
  | .camSearchServe _ fl | .camSearchInsertServe _ fl | .camInsertServe _ fl | .camDeleteServe _ fl
  | .camWriteServe _ fl | .camReadServe _ fl | .camParityScanRead _ fl => wfFlips fl
  | .flightRun _ _ i _ | .entryCompletion _ _ i | .createQueue _ i | .deleteQueue _ i | .resetQueue _ i
  | .abortEntry _ i | .getQueue _ i | .setModeration _ i | .camConfig _ i | .getPartition _ i | .alloc _ _ i _ _
  | .free _ _ i | .pin _ _ i | .unpin _ _ i | .query _ _ i | .pageIn _ _ i | .compress _ _ i _ | .decompress _ _ i
  | .loadKey _ _ i | .hash _ _ i | .release _ _ i | .ledgerRead _ _ i _ | .ledgerWrite _ _ i | .ledgerFlush _ _ i
  | .deallocate _ _ i | .writeZeroes _ _ i | .ledgerAbort _ _ i => wfIndex i
  | .cboClean _ a | .cboFlush _ a | .cboInval _ a | .cboZero _ a | .coreMisalignedAccess _ a | .coreLr _ a
  | .coreSc _ a _ _ | .coreAmo _ a _ _ | .coreLoadStore _ a => a.wf
  | .controlWindowLoad _ _ off size => wfWindow off size
  | .controlWindowStore _ _ off size v => wfWindow off size && decide (v.toNat < 2 ^ (8 * size))
  | .mezzanineSectorArrival _ pa => pa % 64 == 0
  | .pwrfailAccept o | .pwrokFall o | .thermalSensorRead _ _ _ o => o.wf
  | .coldReset o | .warmResetRelease o => o.wf
  | .longCommandEnd _ o => o.boot.wf
  | .inboundDeviceRequest _ q => q.wf
  | _ => true

end Sys2Proof
end

