-- ==== Sys2Proof/Safety.lean ====
section
/-! DEFINITION. What counts as a sound state and a safe run, and the terms in which claims are stated: when an engine
executes an instruction, and the states that differ from a state in one unit only. -/

namespace Sys2Proof.Machine

open Sys2Proof

/-- The canonical form of a byte memory. -/
abbrev Memory.wf (m : List Host.Cell) : Prop := memWf m = true

/-- The memories of the part in canonical form: main memory, every landing store, and the image that a drain has
saved. -/
structure Device.MemoryOk (d : Device) : Prop where
  main : Memory.wf d.mem
  landing : ∀ e : Eng, Memory.wf d.engines[e].landing
  image : Memory.wf d.hup.image

/-- A step that ends in a next state. -/
def Steps (s t : State) : Prop := step s = .next t

/-- A run: the states that a sequence of steps leads to. -/
inductive Runs : State → State → Prop where
  | refl (s : State) : Runs s s
  | tail {s t u : State} (h : Runs s t) (k : Steps t u) : Runs s u

/-! ### Engines -/

/-- An engine that issues the instruction at pc (R57, R65, R94): it runs, nothing holds it, the parity of the word at pc
is good, and thread mode fetches from its own code. -/
structure Engine.Issues (x : Engine) : Prop where
  running : x.run = .running
  awake : x.waiting = false
  noEntry : x.entry = none
  noFault : x.fault = none
  noCam : ∀ c ∈ x.cam, c.live = false
  parity : x.pc.toNat / 4 ∉ x.codeBad
  fetch : x.mode = .thread → x.codeBase.toNat ≤ x.pc.toNat ∧ x.pc.toNat < x.codeLimit.toNat

/-- An engine that executes an instruction: it issues it, the encoding is legal (R96), and kernel mode runs what only
kernel mode may (R104). -/
structure Engine.Executes (x : Engine) (i : Instr) : Prop where
  issues : x.Issues
  legal : sirtoLegal i = true
  allowed : kernelOnly i = true → x.mode = .kernel

/-- Engine `e` of a state. -/
def State.eng (s : State) (e : Eng) : Engine := s.dev.engines[e]

/-- The engine as instruction `i` finds it: the first instruction after a handler return has settled the CAM latch
(R74). -/
def State.engAt (s : State) (e : Eng) (i : Instr) : Engine := settleLatch (s.eng e) (wordOf i)

/-- The state with engine `e` replaced. -/
def State.withEng (s : State) (e : Eng) (x : Engine) : State := { s with dev := updEng s.dev e fun _ => x }

/-- The state with the device replaced: the queue of commands stays. -/
def State.withDev (s : State) (d : Device) : State := { s with dev := d }

/-- An engine that has gone on to the next instruction. -/
def Engine.next (x : Engine) : Engine := { x with pc := x.pc + 4 }

/-- An engine that has written a scalar register and gone on; s0 takes no write (R90). -/
def Engine.wrote (x : Engine) (rd : BitVec 5) (v : Dword) : Engine :=
  { x with s := if rd = 0 then x.s else x.s.set rd.toNat v rd.isLt, pc := x.pc + 4 }

/-- Two engines that agree in everything but a vector register, its validity mask and pc, and in the other vector
registers and masks. -/
structure Engine.WroteVector (x y : Engine) (vd : BitVec 4) (w : Nat → Prop) (val : Nat → Cell) (ok : Nat → Bool) :
    Prop where
  rest : y = { x with v := y.v, vm := y.vm, pc := x.pc + 4 }
  otherV : ∀ n : BitVec 4, n ≠ vd → getV y n = getV x n
  otherVm : ∀ n : BitVec 4, n ≠ vd → getVm y n = getVm x n
  written : ∀ k < 16, w k → lane (getV y vd) k = val k ∧ (getVm y vd).getLsbD k = ok k
  kept : ∀ k < 16, ¬ w k → lane (getV y vd) k = lane (getV x vd) k ∧ (getVm y vd).getLsbD k = (getVm x vd).getLsbD k

/-- The same for a predicate register; p0 takes no write (R90). -/
structure Engine.WrotePredicate (x y : Engine) (pd : BitVec 3) (bit : Nat → Bool) : Prop where
  rest : y = { x with p := y.p, pc := x.pc + 4 }
  other : ∀ n : BitVec 3, n ≠ pd → getP y n = getP x n
  zero : pd = 0 → y.p = x.p
  written : pd ≠ 0 → ∀ k < 16, (getP y pd).getLsbD k = bit k

/-- The same for a validity mask alone. -/
structure Engine.WroteMask (x y : Engine) (vd : BitVec 4) (bit : Nat → Bool) : Prop where
  rest : y = { x with vm := y.vm, pc := x.pc + 4 }
  other : ∀ n : BitVec 4, n ≠ vd → getVm y n = getVm x n
  written : ∀ k < 16, (getVm y vd).getLsbD k = bit k

/-- The same for an accumulator. -/
structure Engine.WroteAccumulator (x y : Engine) (ad : BitVec 3) (val : Nat → Wide) : Prop where
  rest : y = { x with a := y.a, pc := x.pc + 4 }
  other : ∀ n : BitVec 3, n ≠ ad → getA y n = getA x n
  written : ∀ k : Fin 16, (getA y ad)[k] = val k

/-- Bytes `v` of size `n` stored at `a` in a byte memory: every byte outside keeps its value, and the canonical form
stays. -/
structure Memory.Stored (m m' : List Host.Cell) (a n v : Nat) : Prop where
  inside : ∀ k < n, mget m' (a + k) = BitVec.ofNat 8 (v / 2 ^ (8 * k))
  outside : ∀ b, b < a ∨ a + n ≤ b → mget m' b = mget m b
  form : Memory.wf m → Memory.wf m'

/-! ### Registers of the control window -/

/-- Whether a write of a register by an agent is performed: the part is ready, the block is not dead and accepts the
agent (R539, R544, R545). -/
structure Device.TakesWrite (d : Device) (x : Nat) (ag : Agent) : Prop where
  isReady : d.phase = .run ∨ d.phase = .recovery
  block : ∃ b i off, blkOf x = some (b, i, off) ∧ deadBlk d b i = false ∧ accepts b off ag true = true

/-- The same for a read. -/
structure Device.TakesRead (d : Device) (x : Nat) (ag : Agent) : Prop where
  isReady : d.phase = .run ∨ d.phase = .recovery
  block : ∃ b i off, blkOf x = some (b, i, off) ∧ deadBlk d b i = false ∧ accepts b off ag false = true

/-- A state that differs from `s` in the registers of the control window only, and there in the listed ones only. -/
def State.onlyRegs (s t : State) (l : List Nat) : Prop :=
  t = s.withDev { s.dev with regs := t.dev.regs } ∧ ∀ y, y ∉ l → reg t.dev y = reg s.dev y

end Sys2Proof.Machine
end

