-- ==== Sys2Proof/Certificates/Slice0/Obligations.lean ====
section
/-! DEFINITION. The statements about the part: what each command does and leaves alone, by the numbered rules of
spec/. -/

open Sys2Proof Sys2Proof.Machine

/-! ### The queue of commands and reset -/

/-- The command at the front of the queue takes effect on the state with the rest of the queue. -/
def Obligations.StepTakesTheFrontCommand : Prop :=
  ∀ (c : Instr) (s : State), step { s with pending := c :: s.pending } = exec c s

/-- With nothing queued the part idles: an engine cycle passes and nothing else changes (the model's choice, log
entry 6). -/
def Sys2Proof.Claims.EmptyQueueIdles : Prop :=
  ∀ s : State, s.pending = [] →
    step s = .next { s with dev := { s.dev with cycle := s.dev.cycle + 1 } }

/-- Commands take effect in the order of the queue; none is lost, refused or repeated, none sees the queue, and the
commands behind them stay. -/
def Sys2Proof.Claims.QueueRunsInOrder : Prop :=
  ∀ (cs rest : List Instr) (d : Device), ∃ ds : List Device,
    ds.length = cs.length + 1 ∧ ds[0]? = some d ∧
    (∀ (i : Nat) (c : Instr) (a b : Device), cs[i]? = some c → ds[i]? = some a → ds[i + 1]? = some b →
      ∀ q, exec c ⟨q, a⟩ = .next ⟨q, b⟩) ∧
    ∀ b, ds[cs.length]? = some b → Host.Core.run core cs.length ⟨cs ++ rest, d⟩ = .next ⟨rest, b⟩

/-- What the spec says of the part right after power-on: the beat has not counted, engines are held in kernel mode with
the code region and masks of R93, the CAM banks hold no entry, the ports full credit, no queue but the ADMIN queue of
partition 0, and no command waits. -/
def Sys2Proof.Claims.ResetState : Prop :=
  let d := State.reset.dev
  State.reset.pending = [] ∧ d.phase = .startup ∧ beatNow d = 0 ∧
  (∀ e : Eng, d.engines[e].run = .held ∧ d.engines[e].mode = .kernel ∧ d.engines[e].pc = 0 ∧
    d.engines[e].codeBase = 0x2000 ∧ d.engines[e].codeLimit = 0x10000 ∧ d.engines[e].eie = false ∧
    d.engines[e].camm = Vector.replicate 4 0xffffffffff ∧ d.engines[e].owner = none) ∧
  (∀ b : Bank, d.banks[b].ents = [] ∧ d.banks[b].retired = false) ∧
  (∀ t : Tile, d.camSq[t].credits = 65536) ∧
  regF d BEAT_PERIOD 0 9 = 40 ∧ regF d BEAT_PERIOD 16 9 = 40 ∧ regF d BEAT_STAT 4 1 = 1

/-- The memories are in canonical form right after reset. -/
def Sys2Proof.Claims.ResetMemoryCanonical : Prop := State.reset.dev.MemoryOk

/-- Every step keeps main memory, the landing stores and the saved image in canonical form: addresses rise and no byte
is listed that reads as an unlisted one. -/
def Obligations.StepsKeepMemoryCanonical : Prop :=
  ∀ s t : State, s.dev.MemoryOk → Steps s t → t.dev.MemoryOk

/-! ### Encodings -/

/-- The decoder reads back every operand of every legal Sirto instruction that the encoder writes, and a word that
decodes is the encoding of what it decodes to. -/
def Obligations.SirtoDecodeOfEncode : Prop :=
  (∀ (i : Instr) (w : InstrWord), encodeSirto i = some w → sirtoLegal i = true → ∃ e, decodeSirto e w = some i) ∧
  ∀ (e : Eng) (w : InstrWord) (i : Instr), decodeSirto e w = some i → encodeSirto i = some w ∧ sirtoLegal i = true

/-! ### Scalar instructions (R90, R96, R98 to R103) -/

/-- The three-register instructions with their results as arithmetic on the operands. -/
def Sys2Proof.Machine.scalarResults (e : Eng) (f : SForm) (a b : Dword) : List (Instr × Dword) :=
  [(.add e f, a + b), (.sub e f, a - b), (.andOp e f, a &&& b), (.orOp e f, a ||| b), (.xor e f, a ^^^ b),
   (.andn e f, a &&& ~~~b), (.sll e f, a <<< (b.toNat % 64)), (.srl e f, a >>> (b.toNat % 64)),
   (.sra e f, a.sshiftRight (b.toNat % 64)),
   (.slt e f, if a.toInt < b.toInt then 1 else 0), (.sltu e f, if a.toNat < b.toNat then 1 else 0),
   (.min e f, if a.toInt ≤ b.toInt then a else b), (.max e f, if a.toInt ≤ b.toInt then b else a),
   (.minu e f, if a.toNat ≤ b.toNat then a else b), (.maxu e f, if a.toNat ≤ b.toNat then b else a),
   (.clz e f, if a = 0 then 64 else BitVec.ofNat 64 (63 - Nat.log2 a.toNat)),
   (.ctz e f, BitVec.ofNat 64 (((List.range 64).find? a.getLsbD).getD 64)),
   (.popc e f, BitVec.ofNat 64 ((List.range 64).countP a.getLsbD)),
   (.mul e f, BitVec.ofInt 64 (a.toInt * b.toInt)), (.mulh e f, BitVec.ofInt 64 (a.toInt * b.toInt / 2 ^ 64)),
   (.mulhu e f, BitVec.ofNat 64 (a.toNat * b.toNat / 2 ^ 64)),
   (.div e f, if b = 0 then BitVec.allOnes 64 else BitVec.ofInt 64 (a.toInt.tdiv b.toInt)),
   (.divu e f, if b = 0 then BitVec.allOnes 64 else BitVec.ofNat 64 (a.toNat / b.toNat)),
   (.rem e f, if b = 0 then a else BitVec.ofInt 64 (a.toInt.tmod b.toInt)),
   (.remu e f, if b = 0 then a else BitVec.ofNat 64 (a.toNat % b.toNat))]

/-- Each three-register instruction writes its result to rd and goes on; nothing else of the part changes. -/
def Sys2Proof.Claims.ScalarRegisterResults : Prop :=
  ∀ (s : State) (e : Eng) (f : SForm), ∀ r ∈ scalarResults e f (getS (s.eng e) f.rs1) (getS (s.eng e) f.rs2),
    (s.eng e).Executes r.1 → exec r.1 s = .next (s.withEng e ((s.engAt e r.1).wrote f.rd r.2))

/-- The instructions with a 16-bit immediate, shift amount or field, with their results. -/
def Sys2Proof.Machine.immediateResults (e : Eng) (f : IForm) (g : ShForm) (h : ExtForm) (read : BitVec 5 → Dword) :
    List (Instr × BitVec 5 × Dword) :=
  let a := read f.rs1
  let b := read g.rs1
  let c := read h.rs1
  let k : Dword := f.imm.signExtend 64
  let v := c.toNat / 2 ^ h.pos.toNat % 2 ^ (h.len.toNat + 1)
  [(.addi e f, f.rd, a + k), (.andi e f, f.rd, a &&& f.imm.setWidth 64), (.ori e f, f.rd, a ||| f.imm.setWidth 64),
   (.xori e f, f.rd, a ^^^ f.imm.setWidth 64), (.slti e f, f.rd, if a.toInt < f.imm.toInt then 1 else 0),
   (.sltiu e f, f.rd, if a.toNat < k.toNat then 1 else 0), (.lui e f, f.rd, BitVec.ofInt 64 (f.imm.toInt * 2 ^ 16)),
   (.slli e g, g.rd, b <<< g.sh.toNat), (.srli e g, g.rd, b >>> g.sh.toNat),
       (.srai e g, g.rd, b.sshiftRight g.sh.toNat),
   (.ext e h, h.rd, BitVec.ofNat 64 v),
   (.exts e h, h.rd, if v < 2 ^ h.len.toNat then BitVec.ofNat 64 v
     else BitVec.ofInt 64 ((v : Int) - 2 ^ (h.len.toNat + 1)))]

/-- Each immediate instruction writes its result to rd and goes on; nothing else of the part changes. -/
def Sys2Proof.Claims.ScalarImmediateResults : Prop :=
  ∀ (s : State) (e : Eng) (f : IForm) (g : ShForm) (h : ExtForm), ∀ r ∈ immediateResults e f g h (getS (s.eng e)),
    (s.eng e).Executes r.1 → exec r.1 s = .next (s.withEng e ((s.engAt e r.1).wrote r.2.1 r.2.2))

/-- The conditional branches with the condition on which they are taken. -/
def Sys2Proof.Machine.branchResults (e : Eng) (f : BForm) (g : PForm) (a b : Dword) (p : Mask) :
    List (Instr × BitVec 16 × Prop) :=
  [(.beq e f, f.off, a = b), (.bne e f, f.off, a ≠ b), (.blt e f, f.off, a.toInt < b.toInt),
   (.bge e f, f.off, b.toInt ≤ a.toInt), (.bltu e f, f.off, a.toNat < b.toNat), (.bgeu e f, f.off, b.toNat ≤ a.toNat),
   (.bpany e g, g.off, p ≠ 0), (.bpnone e g, g.off, p = 0), (.bpall e g, g.off, p = 0xffff)]

/-- A conditional branch that is taken goes to its own address plus four times its offset, modulo 2^16, one that is not
goes on; a branch changes nothing but pc. -/
def Sys2Proof.Claims.BranchTargets : Prop :=
  ∀ (s : State) (e : Eng) (f : BForm) (g : PForm),
    ∀ r ∈ branchResults e f g (getS (s.eng e) f.a) (getS (s.eng e) f.b) (getP (s.eng e) (g.a.setWidth 3)),
    (s.eng e).Executes r.1 →
      let x := s.engAt e r.1
      (r.2.2 → exec r.1 s = .next (s.withEng e { x with
        pc := BitVec.ofInt 16 (x.pc.toNat + 4 * r.2.1.toInt) })) ∧
      (¬ r.2.2 → exec r.1 s = .next (s.withEng e x.next))

/-- JAL and JALR write the address of the next instruction to rd and jump; JALR reads rs1 before it writes. -/
def Sys2Proof.Claims.JumpAndLink : Prop :=
  ∀ (s : State) (e : Eng) (f : BForm) (g : IForm),
    ((s.eng e).Executes (.jal e f) →
      let x := s.engAt e (.jal e f)
      exec (.jal e f) s = .next (s.withEng e { x.wrote f.a (BitVec.ofNat 64 (x.pc.toNat + 4)) with
        pc := BitVec.ofInt 16 (x.pc.toNat + 4 * f.off.toInt) })) ∧
    ((s.eng e).Executes (.jalr e g) →
      let x := s.engAt e (.jalr e g)
      exec (.jalr e g) s = .next (s.withEng e { x.wrote g.rd (BitVec.ofNat 64 (x.pc.toNat + 4)) with
        pc := (getS x g.rs1 + g.imm.signExtend 64).setWidth 16 &&& 0xfffc }))

/-- An instruction that an engine issues and may not execute has no effect but to carry its fault: bad fetch, illegal
encoding, kernel-only instruction in thread mode, in that order (R94, R96, R104, R115). -/
def Sys2Proof.Claims.RefusedInstructionsFault : Prop :=
  ∀ (s : State) (e : Eng) (f : SForm), let i := Instr.clz e f
    let x := s.engAt e i
    (s.eng e).run = .running → (s.eng e).waiting = false → (s.eng e).entry = none → (s.eng e).fault = none →
    (∀ c ∈ (s.eng e).cam, c.live = false) → (s.eng e).pc.toNat / 4 ∉ (s.eng e).codeBad →
    ((s.eng e).mode = .thread → ¬ ((s.eng e).codeBase.toNat ≤ (s.eng e).pc.toNat ∧
        (s.eng e).pc.toNat < (s.eng e).codeLimit.toNat) →
      exec i s = .next (s.withEng e { x with fault := some ⟨.accFetch, x.pc.setWidth 64⟩ })) ∧
    ((s.eng e).Issues → f.rs2 ≠ 0 →
      exec i s = .next (s.withEng e { x with fault := some ⟨.illegalInstr, (wordOf i).setWidth 64⟩ })) ∧
    (∀ c : CForm, (s.eng e).Issues → legalNone c = true → (s.eng e).mode = .thread →
      exec (.eret e c) s = .next (s.withEng e { s.engAt e (.eret e c) with
        fault := some ⟨.privileged, (wordOf (.eret e c)).setWidth 64⟩ }) ∧
      exec (.beatwait e c) s = .next (s.withEng e { s.engAt e (.beatwait e c) with
        fault := some ⟨.privileged, (wordOf (.beatwait e c)).setWidth 64⟩ }))

/-! ### Loads and stores (R53, R55, R76 to R80, R101, R102) -/

/-- The loads: their size and whether they extend the sign. -/
def Sys2Proof.Machine.loadForms (e : Eng) (f : MForm) : List (Instr × Nat × Bool) :=
  [(.lb e f, 1, true), (.lh e f, 2, true), (.lw e f, 4, true), (.ld e f, 8, true), (.lbu e f, 1, false),
   (.lhu e f, 2, false), (.lwu e f, 4, false), (.lc e f, 5, true), (.lcu e f, 5, false)]

/-- The stores and their size. -/
def Sys2Proof.Machine.storeForms (e : Eng) (f : MForm) : List (Instr × Nat) :=
  [(.sb e f, 1), (.sh e f, 2), (.sw e f, 4), (.sd e f, 8), (.sc e f, 5)]

/-- A loaded value of `n` bytes in a scalar register. -/
def Sys2Proof.Machine.loadedValue (n : Nat) (signed : Bool) (v : Nat) : Dword :=
  if signed && decide (2 ^ (8 * n - 1) ≤ v) then BitVec.ofInt 64 ((v : Int) - 2 ^ (8 * n)) else BitVec.ofNat 64 v

/-- The effective address of a load or store: rs1 plus the sign-extended immediate. -/
def Sys2Proof.Machine.addrOf (x : Engine) (f : MForm) : Dword := getS x f.rs1 + f.imm.signExtend 64

/-- A load whose bytes lie in landing, outside the kernel area in thread mode, reads them little endian at any
alignment, extends the value and goes on; one whose bytes lie in the code-store window reads the code store; nothing
else changes. -/
def Sys2Proof.Claims.LoadsFromLandingAndCode : Prop :=
  ∀ (s : State) (e : Eng) (f : MForm), ∀ r ∈ loadForms e f, (s.eng e).Executes r.1 →
    let x := s.engAt e r.1
    let a := (addrOf x f).toNat
    (a + r.2.1 ≤ (if x.mode = .thread then 0x3e000 else 0x40000) →
      exec r.1 s = .next (s.withEng e (x.wrote f.rt (loadedValue r.2.1 r.2.2 (mread x.landing a r.2.1))))) ∧
    (0x100000 ≤ a → a + r.2.1 ≤ 0x110000 →
      exec r.1 s = .next (s.withEng e (x.wrote f.rt
        (loadedValue r.2.1 r.2.2 (readLE (codeByte x) (a - 0x100000) r.2.1)))))

/-- A store whose bytes lie in landing, outside the kernel area in thread mode, writes the low bytes of rt there at any
alignment and goes on; one of 4 or 8 aligned bytes of the code-store window outside the kernel region writes the words,
with good parity; every other byte, and everything else, stays. -/
def Sys2Proof.Claims.StoresToLanding : Prop :=
  ∀ (s : State) (e : Eng) (f : MForm), ∀ r ∈ storeForms e f, (s.eng e).Executes r.1 →
    let x := s.engAt e r.1
    let a := (addrOf x f).toNat
    let k := (a - 0x100000) / 4
    let v := (getS x f.rt).toNat
    (a + r.2 ≤ (if x.mode = .thread then 0x3e000 else 0x40000) →
      ∃ m, exec r.1 s = .next (s.withEng e { x with landing := m, pc := x.pc + 4 }) ∧
        Memory.Stored x.landing m a r.2 v) ∧
    (0x102000 ≤ a → a + r.2 ≤ 0x110000 → r.2 = 4 ∨ r.2 = 8 → a % r.2 = 0 →
      ∃ y, exec r.1 s = .next (s.withEng e y) ∧
        y = { x with code := y.code, codeBad := y.codeBad, stale := y.stale, pc := x.pc + 4 } ∧
        codeWord y k = BitVec.ofNat 32 v ∧ k ∉ y.codeBad ∧
        (r.2 = 8 → codeWord y (k + 1) = BitVec.ofNat 32 (v / 2 ^ 32) ∧ k + 1 ∉ y.codeBad) ∧
        ∀ j, j ≠ k → (r.2 = 8 → j ≠ k + 1) → codeWord y j = codeWord x j ∧ (j ∈ y.codeBad ↔ j ∈ x.codeBad))

/-- A load or store that may not be made has no effect but its fault, with the address: bytes in no space or across
two, the kernel area in thread mode, the kernel code region for a store, a misaligned memory-space access, a code-window
store of another size or alignment (R53, R55, R61, R80). -/
def Sys2Proof.Claims.AccessFaults : Prop :=
  ∀ (s : State) (e : Eng) (f : MForm),
    (∀ r ∈ loadForms e f, (s.eng e).Executes r.1 →
      let x := s.engAt e r.1
      let a := (addrOf x f).toNat
      let faults := fun c => exec r.1 s = .next (s.withEng e { x with fault := some ⟨c, addrOf x f⟩ })
      (0x40000 < a + r.2.1 → ¬ (0x100000 ≤ a ∧ a + r.2.1 ≤ 0x110000) → ¬ (2 ^ 48 ≤ a ∧ a + r.2.1 ≤ 2 ^ 49) →
        faults .accSpace) ∧
      (x.mode = .thread → 0x3e000 < a + r.2.1 → a + r.2.1 ≤ 0x40000 → faults .accKernel) ∧
      (2 ^ 48 ≤ a → a + r.2.1 ≤ 2 ^ 49 → (if r.2.1 = 5 then a % 8 else a % r.2.1) ≠ 0 → faults .align)) ∧
    (∀ r ∈ storeForms e f, (s.eng e).Executes r.1 →
      let x := s.engAt e r.1
      let a := (addrOf x f).toNat
      let faults := fun c => exec r.1 s = .next (s.withEng e { x with fault := some ⟨c, addrOf x f⟩ })
      (0x40000 < a + r.2 → ¬ (0x100000 ≤ a ∧ a + r.2 ≤ 0x110000) → ¬ (2 ^ 48 ≤ a ∧ a + r.2 ≤ 2 ^ 49) →
        faults .accSpace) ∧
      (x.mode = .thread → 0x3e000 < a + r.2 → a + r.2 ≤ 0x40000 → faults .accKernel) ∧
      (0x100000 ≤ a → a < 0x102000 → faults .accCodeWrite) ∧
      (0x102000 ≤ a → a + r.2 ≤ 0x110000 → r.2 ≠ 4 → r.2 ≠ 8 → faults .accSpace) ∧
      (0x102000 ≤ a → a + r.2 ≤ 0x110000 → r.2 = 4 ∨ r.2 = 8 → a % r.2 ≠ 0 → faults .align) ∧
      (2 ^ 48 ≤ a → a + r.2 ≤ 2 ^ 49 → (if r.2 = 5 then a % 8 else a % r.2) ≠ 0 → faults .align))

/-- Where the IOMMU gives a memory-space address the physical address `pa` and does nothing else: an aligned load that
its store buffer does not bear on and whose line L1 holds reads the line; one takes its bytes from the youngest entry
that overlaps them, or waits where that entry does not hold them all; an aligned store takes the next of the four
entries of the store buffer with the bytes it stores, and waits when there is none; nothing else changes. Where the
IOMMU gives none, the access has ACC_IOMMU with its address (R54, R76, R78, R115). -/
def Sys2Proof.Claims.MemorySpaceLoadsAndStores : Prop :=
  ∀ (s : State) (e : Eng) (f : MForm) (pa : Nat),
    (∀ r ∈ loadForms e f, (s.eng e).Executes r.1 →
      let x := s.engAt e r.1
      let a := (addrOf x f).toNat
      let d := (s.withEng e x).dev
      2 ^ 48 ≤ a → a + r.2.1 ≤ 2 ^ 49 → (if r.2.1 = 5 then a % 8 else a % r.2.1) = 0 →
      xlatMem d (partOf x) (a - 2 ^ 48) false = (some pa, d) →
      (∀ b ∈ x.sb, sbBytes b (lineOf pa) &&& enables (pa % 64) r.2.1 = 0) →
      ∀ k l, l1Find x (lineOf pa) = some (k, l) → l.bad = false →
        exec r.1 s = .next (s.withEng e ({ x with l1 := sput x.l1 k { l with age := 0 } }.wrote f.rt
          (loadedValue r.2.1 r.2.2 (l.data.toNat / 2 ^ (8 * (pa % 64)) % 2 ^ (8 * r.2.1)))))) ∧
    (∀ r ∈ loadForms e f, (s.eng e).Executes r.1 →
      let x := s.engAt e r.1
      let a := (addrOf x f).toNat
      let d := (s.withEng e x).dev
      let need := enables (pa % 64) r.2.1
      2 ^ 48 ≤ a → a + r.2.1 ≤ 2 ^ 49 → (if r.2.1 = 5 then a % 8 else a % r.2.1) = 0 →
      xlatMem d (partOf x) (a - 2 ^ 48) false = (some pa, d) →
      ∀ older b younger data en, x.sb = older ++ b :: younger → b.line = lineOf pa → b.kind = .store data en →
        en &&& need ≠ 0 → (∀ q ∈ younger, sbBytes q (lineOf pa) &&& need = 0) →
        (en &&& need = need → exec r.1 s = .next (s.withEng e (x.wrote f.rt
          (loadedValue r.2.1 r.2.2 (data.toNat / 2 ^ (8 * (pa % 64)) % 2 ^ (8 * r.2.1)))))) ∧
        (en &&& need ≠ need → exec r.1 s = .next (s.withEng e x))) ∧
    (∀ r ∈ ((loadForms e f).map fun l => (l.1, l.2.1, false)) ++ (storeForms e f).map fun l => (l.1, l.2, true),
      (s.eng e).Executes r.1 →
      let x := s.engAt e r.1
      let a := (addrOf x f).toNat
      let d := (s.withEng e x).dev
      2 ^ 48 ≤ a → a + r.2.1 ≤ 2 ^ 49 → (if r.2.1 = 5 then a % 8 else a % r.2.1) = 0 →
      (xlatMem d (partOf x) (a - 2 ^ 48) r.2.2).1 = none →
      ∃ t, exec r.1 s = .next t ∧ (t.eng e).fault = some ⟨.accIommu, addrOf x f⟩ ∧ (t.eng e).s = x.s ∧
        (t.eng e).pc = x.pc) ∧
    (∀ r ∈ storeForms e f, (s.eng e).Executes r.1 →
      let x := s.engAt e r.1
      let a := (addrOf x f).toNat
      let d := (s.withEng e x).dev
      2 ^ 48 ≤ a → a + r.2 ≤ 2 ^ 49 → (if r.2 = 5 then a % 8 else a % r.2) = 0 →
      xlatMem d (partOf x) (a - 2 ^ 48) true = (some pa, d) →
      (x.sb.length < 4 → ∃ data en, exec r.1 s = .next (s.withEng e { x with
          sb := x.sb ++ [⟨lineOf pa, .store data en, x.mode == .thread, false⟩], pc := x.pc + 4 }) ∧
        ∀ k < 64, (en.getLsbD k = decide (pa % 64 ≤ k ∧ k < pa % 64 + r.2)) ∧
          (en.getLsbD k = true → lineByte data k = BitVec.ofNat 8 ((getS x f.rt).toNat / 2 ^ (8 * (k - pa % 64))))) ∧
      (4 ≤ x.sb.length → exec r.1 s = .next (s.withEng e x)))

/-! ### System instructions, control registers, exceptions (R62, R68 to R71, R79, R91 to R93, R104 to R108, R115 to
R118) -/

/-- FENCE goes on when the store buffer is empty and waits until then; IFLUSH makes every later fetch read the code
store as it stands and goes on; YIELD goes on in kernel mode, and in thread mode it completes and opens a handler
entry with the address of the next instruction (R62, R79, R105). -/
def Sys2Proof.Claims.FenceFlushAndYield : Prop :=
  ∀ (s : State) (e : Eng) (f : CForm),
    ((s.eng e).Executes (.fence e f) → let x := s.engAt e (.fence e f)
      (x.sb = [] → exec (.fence e f) s = .next (s.withEng e x.next)) ∧
      (x.sb ≠ [] → exec (.fence e f) s = .next (s.withEng e x))) ∧
    ((s.eng e).Executes (.iflush e f) → let x := s.engAt e (.iflush e f)
      exec (.iflush e f) s = .next (s.withEng e { x.next with stale := [] })) ∧
    ((s.eng e).Executes (.yield e f) → let x := s.engAt e (.yield e f)
      (x.mode = .kernel → exec (.yield e f) s = .next (s.withEng e x.next)) ∧
      (x.mode = .thread → ∃ y, exec (.yield e f) s = .next (s.withEng e y) ∧
        y.entry = some ⟨x.pc + 4, [⟨.yield, 0⟩]⟩ ∧ y.pc = x.pc + 4 ∧ y.mode = .thread ∧ y.s = x.s ∧ y.v = x.v ∧
        y.vm = x.vm ∧ y.p = x.p ∧ y.a = x.a ∧ y.landing = x.landing ∧ y.sb = x.sb ∧ y.vfcsr = x.vfcsr ∧
        y.epc = x.epc ∧ y.ecause = x.ecause ∧ y.eval = x.eval ∧ y.eie = x.eie ∧
        y.dispatch = x.dispatch.map fun u => { u with yielded := some (ctxOf x.next) }))

/-- BEATWAIT puts the engine to wait at its own address; ERET in kernel mode resumes at EPC in the mode that RMODE names
with error interrupts enabled. Neither changes a data register, memory or another unit (R106, R107). -/
def Sys2Proof.Claims.BeatwaitAndReturn : Prop :=
  ∀ (s : State) (e : Eng) (f : CForm),
    ((s.eng e).Executes (.beatwait e f) → let x := s.engAt e (.beatwait e f)
      (x.eie = false ∨ x.pendErr = [] → exec (.beatwait e f) s = .next (s.withEng e { x with waiting := true }))) ∧
    ((s.eng e).Executes (.eret e f) → let x := s.engAt e (.eret e f)
      x.pendErr = [] →
      (x.rmode = .kernel → exec (.eret e f) s = .next (s.withEng e { x with
        pc := x.epc, mode := .kernel, eie := true, afterRet := true })) ∧
      (x.rmode = .thread → x.discard = true → exec (.eret e f) s = .next (s.withEng e x)) ∧
      (x.rmode = .thread → x.discard = false →
        (∀ u, x.dispatch = some u → u.fate = .running → u.started = true) →
        exec (.eret e f) s = .next (s.withEng e { x with
          pc := x.epc, mode := .thread, eie := true, afterRet := true })))

/-- An ERET into thread mode starts a unit that has not started: the registers of R91, the CAM contexts of the flight
descriptor, and first row, row count, slot address, slot size, sequence number and argument in s1 to s6; it begins at
the kernel's entry point, or, where the thread has a saved context, at its address with its other registers (R149,
R246). -/
def Sys2Proof.Claims.UnitStart : Prop :=
  ∀ (s : State) (e : Eng) (f : CForm) (u : Dispatch) (y : Instance) (t : Thread),
    (s.eng e).Executes (.eret e f) →
    let x := s.engAt e (.eret e f)
    x.pendErr = [] → x.rmode = .thread → x.discard = false → x.dispatch = some u → u.fate = .running →
    u.started = false → instOf s.dev u.inst = some y → threadOf s.dev u.thread = some t →
    ∃ z, exec (.eret e f) s = .next (s.withEng e z) ∧
      z.mode = .thread ∧ z.eie = true ∧ z.a = Vector.replicate 8 (Vector.replicate 16 0) ∧
      getS z 1 = BitVec.ofNat 64 u.first ∧ getS z 2 = BitVec.ofNat 64 u.rows ∧
      getS z 3 = BitVec.ofNat 64 (slotAddr s.dev y u.slot) ∧ getS z 4 = BitVec.ofNat 64 (slotBytes y) ∧
      getS z 5 = BitVec.ofNat 64 (u.seq % 2 ^ 32) ∧ getS z 6 = BitVec.ofNat 64 (dF y 0x38 8) ∧
      z.landing = x.landing ∧ z.code = x.code ∧ z.sb = x.sb ∧ z.dispatch = some { u with started := true } ∧
      (t.ctx = none → z.pc = BitVec.ofNat 16 (x.codeBase.toNat + dF y 0x10 4) ∧
        z.vm = Vector.replicate 16 0xffff ∧ z.p = Vector.replicate 8 0 ∧ z.vfcsr = 0 ∧
        z.v = Vector.replicate 16 (Vector.replicate 16 0) ∧ (∀ n : BitVec 5, 6 < n → getS z n = 0) ∧
        ∀ i : Fin 4, z.camr[i] = BitVec.ofNat 18 (dF y (0x80 + 4 * i.val) 4) ∧
          z.camm[i] = BitVec.ofNat 40 (dF y (0x90 + 8 * i.val) 8)) ∧
      ∀ c, t.ctx = some c → z.pc = c.pc ∧ z.v = c.v ∧ z.vm = c.vm ∧ z.p = c.p ∧ z.vfcsr = c.vfcsr ∧
        z.camr = c.camr ∧ z.camm = c.camm ∧ ∀ n : BitVec 5, 6 < n → getS z n = c.s[n.toNat]'n.isLt

/-- The control registers, with what a read of each gives. -/
def Sys2Proof.Machine.controlValues (d : Device) (e : Eng) (x : Engine) : List (BitVec 6 × Dword) :=
  [(0x00, BitVec.ofNat 64 ((if x.eie then 1 else 0) + if x.rmode = .thread then 2 else 0)),
   (0x01, x.epc.setWidth 64), (0x02, x.ecause), (0x03, x.eval), (0x04, reg d BEAT_COUNT),
   (0x05, BitVec.ofNat 64 (d.cycle - d.beat.lastTick)), (0x06, BitVec.ofNat 64 d.cycle),
   (0x07, BitVec.ofNat 64 (e.val + 2 ^ 8 * (e.val / 4) + 2 ^ 14 * (x.owner.getD 0).val)),
   (0x08, x.codeBase.setWidth 64), (0x09, x.codeLimit.setWidth 64), (0x0a, 0), (0x0b, x.vfcsr.setWidth 64),
   (0x0c, x.camr[0].setWidth 64), (0x0d, x.camr[1].setWidth 64), (0x0e, x.camr[2].setWidth 64),
   (0x0f, x.camr[3].setWidth 64), (0x10, x.camm[0].setWidth 64), (0x11, x.camm[1].setWidth 64),
   (0x12, x.camm[2].setWidth 64), (0x13, x.camm[3].setWidth 64)]

/-- CRR reads every control register that the mode may read into rd and goes on; a register that does not exist, or that
the mode may not access, gives ACC_CR with its number and no other effect (R92, R93). -/
def Sys2Proof.Claims.ControlRegisterReads : Prop :=
  ∀ (s : State) (e : Eng) (f : CForm), (s.eng e).Executes (.crr e f) →
    let x := s.engAt e (.crr e f)
    (∀ r ∈ controlValues s.dev e x, f.aux = r.1 →
      (x.mode = .thread → 4 ≤ r.1 ∧ r.1 ≠ 0x0a) →
      exec (.crr e f) s = .next (s.withEng e (x.wrote f.rd r.2))) ∧
    (0x13 < f.aux ∨ (x.mode = .thread ∧ (f.aux < 4 ∨ f.aux = 0x0a)) →
      exec (.crr e f) s = .next (s.withEng e { x with fault := some ⟨.accCr, f.aux.setWidth 64⟩ }))

/-- CAMRn after a write: WIDTH keeps its value where the reserved encoding 0b11 is written (R10, R93). -/
def Sys2Proof.Machine.camrAfter (old : BitVec 18) (v : Dword) : BitVec 18 :=
  BitVec.ofNat 18 (v.toNat % 2 ^ 16 +
    2 ^ 16 * if v.toNat / 2 ^ 16 % 4 = 3 then old.toNat / 2 ^ 16 else v.toNat / 2 ^ 16 % 4)

/-- The engine after a CRW of each control register but MDONE, with the value's bits that the register holds. -/
def Sys2Proof.Machine.controlWrites (x : Engine) (v : Dword) : List (BitVec 6 × Engine) :=
  [(0x00, { x with eie := v.getLsbD 0, rmode := if v.getLsbD 1 then .thread else .kernel }),
   (0x01, { x with epc := v.setWidth 16 &&& 0xfffc }), (0x02, { x with ecause := v &&& 0x3fffff }),
   (0x03, { x with eval := v }), (0x04, x), (0x05, x), (0x06, x), (0x07, x),
   (0x08, { x with codeBase := v.setWidth 17 &&& 0x1fffc }), (0x09, { x with codeLimit := v.setWidth 17 &&& 0x1fffc }),
   (0x0b, { x with vfcsr := v.setWidth 9 &&& 0x1f3 }),
   (0x0c, { x with camr := x.camr.set 0 (camrAfter x.camr[0] v) }),
   (0x0d, { x with camr := x.camr.set 1 (camrAfter x.camr[1] v) }),
   (0x0e, { x with camr := x.camr.set 2 (camrAfter x.camr[2] v) }),
   (0x0f, { x with camr := x.camr.set 3 (camrAfter x.camr[3] v) }),
   (0x10, { x with camm := x.camm.set 0 (v.setWidth 40) }), (0x11, { x with camm := x.camm.set 1 (v.setWidth 40) }),
   (0x12, { x with camm := x.camm.set 2 (v.setWidth 40) }), (0x13, { x with camm := x.camm.set 3 (v.setWidth 40) })]

/-- CRW writes rs1 to a control register that the mode may write and goes on; a read-only register discards it in kernel
mode; the reserved encoding of CAMRn.WIDTH leaves WIDTH; a register that does not exist, or that the mode may not write,
gives ACC_CR and no other effect (R92, R93). -/
def Sys2Proof.Claims.ControlRegisterWrites : Prop :=
  ∀ (s : State) (e : Eng) (f : CForm), (s.eng e).Executes (.crw e f) →
    let x := s.engAt e (.crw e f)
    (x.pendErr = [] → ∀ r ∈ controlWrites x (getS x f.rs1), f.aux = r.1 → (x.mode = .thread → 0x0b ≤ r.1) →
      exec (.crw e f) s = .next (s.withEng e r.2.next)) ∧
    (0x13 < f.aux ∨ (x.mode = .thread ∧ f.aux ≤ 0x0a) →
      exec (.crw e f) s = .next (s.withEng e { x with fault := some ⟨.accCr, f.aux.setWidth 64⟩ }))

/-- CLEAN, INV and CLINV with their two actions. -/
def Sys2Proof.Machine.maintForms (e : Eng) (f : CForm) : List (Instr × Bool × Bool) :=
  [(.clean e f, true, false), (.inv e f, false, true), (.clinv e f, true, true)]

/-- A maintenance instruction takes the next entry of the store buffer and goes on, for the line of a memory-space
address or, in kernel mode, for a set and way; it waits while the buffer is full; a set or way that does not exist
gives ILLEGAL_OPERAND, an address outside memory space ACC_SPACE; nothing else changes (R76, R108). -/
def Sys2Proof.Claims.MaintenanceInstructions : Prop :=
  ∀ (s : State) (e : Eng) (f : CForm) (pa : Nat), ∀ r ∈ maintForms e f, (s.eng e).Executes r.1 →
    let x := s.engAt e r.1
    let v := getS x f.rs1
    let mez := f.aux.getLsbD 1
    let d := (s.withEng e x).dev
    let set := v.toNat % 2 ^ 16
    let way := v.toNat / 2 ^ 16 % 2 ^ 4
    let puts := fun (line : Nat) (k : SbKind) =>
      (x.sb.length < 4 → exec r.1 s = .next (s.withEng e { x with
        sb := x.sb ++ [⟨line, k, x.mode == .thread, false⟩], pc := x.pc + 4 })) ∧
      (4 ≤ x.sb.length → exec r.1 s = .next (s.withEng e x))
    (f.aux.getLsbD 0 = true → v.toNat < 2 ^ 20 → set < (if mez then 256 else 128) → way < (if mez then 16 else 4) →
      puts 0 (.maintWay r.2.1 r.2.2 mez set way)) ∧
    (f.aux.getLsbD 0 = true →
      (2 ^ 20 ≤ v.toNat ∨ (if mez then 256 else 128) ≤ set ∨ (if mez then 16 else 4) ≤ way) →
      exec r.1 s = .next (s.withEng e { x with fault := some ⟨.illegalOperand, (wordOf r.1).setWidth 64⟩ })) ∧
    (f.aux.getLsbD 0 = false → ¬ (2 ^ 48 ≤ v.toNat ∧ v.toNat < 2 ^ 49) →
      exec r.1 s = .next (s.withEng e { x with fault := some ⟨.accSpace, v⟩ })) ∧
    (f.aux.getLsbD 0 = false → 2 ^ 48 ≤ v.toNat → v.toNat < 2 ^ 49 →
      xlatMem d (partOf x) (v.toNat - 2 ^ 48) r.2.2 = (some pa, d) →
      puts (pa / 64 * 64) (.maintAddr r.2.1 r.2.2 mez))

/-- HANDLER_ENTRY writes EPC, ECAUSE and EVAL from the open entry, masks error interrupts and enters kernel mode at
address 0; a tick leaves EVAL, and nothing else of the part changes (R68, R70, R71, R116, R117). -/
def Sys2Proof.Claims.HandlerEntry : Prop :=
  ∀ (s : State) (e : Eng) (en : Entry), s.dev.phase = .run → (s.eng e).entry = some en → en.causes ≠ [] →
    ∃ c ∈ en.causes, (∀ k ∈ en.causes, causeRank c.cause ≤ causeRank k.cause) ∧
    exec (.handlerEntry e) s = .next (s.withEng e { s.eng e with
      entry := none, epc := en.epc, mode := .kernel, eie := false, pc := 0
      ecause := ecauseOf en.causes
      eval := if c.cause = .tick then (s.eng e).eval else c.val }) ∧
    (ecauseOf en.causes).toNat % 2 ^ 16 = causeCode c.cause ∧
    ∀ k ∈ en.causes, (ecauseOf en.causes).getLsbD (causeBit k.cause) = true

/-- A synchronous exception that the oldest instruction carries opens a handler entry with its own address in thread
mode, leaving every register; in kernel mode the engine halts, unless it has done so twice in 24 hours (R67, R115,
R118). -/
def Sys2Proof.Claims.SynchronousExceptions : Prop :=
  ∀ (s : State) (e : Eng) (c : CauseVal), s.dev.phase = .run → (s.eng e).run = .running → (s.eng e).entry = none →
    (s.eng e).fault = some c →
    ((s.eng e).mode = .thread → ∃ y, exec (.syncExceptionRaise e) s = .next (s.withEng e y) ∧
      y.entry = some ⟨(s.eng e).pc, [c]⟩ ∧ y.fault = none ∧ y.pc = (s.eng e).pc ∧ y.s = (s.eng e).s ∧
      y.v = (s.eng e).v ∧ y.vm = (s.eng e).vm ∧ y.p = (s.eng e).p ∧ y.a = (s.eng e).a ∧ y.sb = (s.eng e).sb ∧
      y.landing = (s.eng e).landing ∧ y.epc = (s.eng e).epc ∧ y.mode = .thread ∧ y.run = .running) ∧
    ((s.eng e).mode = .kernel → (s.eng e).halts24 < 2 → ∃ t, exec (.syncExceptionRaise e) s = .next t ∧
      (t.eng e).run = .halted ∧ t.dev.mem = s.dev.mem ∧ t.pending = s.pending ∧
      ∀ e', e' ≠ e → (t.eng e').s = (s.eng e').s ∧ (t.eng e').pc = (s.eng e').pc ∧ (t.eng e').run = (s.eng e').run)

/-! ### Vector instructions (R119 to R155) -/

/-- The two-operand lane instructions with their results. -/
def Sys2Proof.Machine.laneResults (e : Eng) (f : VForm) (a b : Cell) : List (Instr × Cell) :=
  [(.vadd e f, a + b), (.vsub e f, a - b), (.vmul e f, BitVec.ofInt 40 (a.toInt * b.toInt)),
   (.vmulh e f, BitVec.ofInt 40 (a.toInt * b.toInt / 2 ^ 40)), (.vmulhu e f,
       BitVec.ofNat 40 (a.toNat * b.toNat / 2 ^ 40)),
   (.vmin e f, if a.toInt ≤ b.toInt then a else b), (.vmax e f, if a.toInt ≤ b.toInt then b else a),
   (.vminu e f, if a.toNat ≤ b.toNat then a else b), (.vmaxu e f, if a.toNat ≤ b.toNat then b else a),
   (.vand e f, a &&& b), (.vor e f, a ||| b), (.vxor e f, a ^^^ b), (.vandn e f, a &&& ~~~b),
   (.vsll e f, a <<< (b.toNat % 64)), (.vsrl e f, a >>> (b.toNat % 64)), (.vsra e f, a.sshiftRight (b.toNat % 64)),
   (.vhash e f,
     let x0 := a ^^^ b
     let x2 := (x0 ^^^ (x0 >>> 21)) * 0xD6E8FEB867
     let x4 := (x2 ^^^ (x2 >>> 19)) * 0x8CA5B31F2D
     x4 ^^^ (x4 >>> 23))]

/-- The one-operand lane instructions with their results. -/
def Sys2Proof.Machine.laneResults1 (e : Eng) (f : VForm) (a : Cell) : List (Instr × Cell) :=
  [(.vabs e f, BitVec.ofNat 40 a.toInt.natAbs), (.vpopc e f, BitVec.ofNat 40 ((List.range 40).countP a.getLsbD)),
   (.vclz e f, if a = 0 then 40 else BitVec.ofNat 40 (39 - Nat.log2 a.toNat)),
   (.vctz e f, BitVec.ofNat 40 (((List.range 40).find? a.getLsbD).getD 40)), (.vmov e f, a)]

/-- A lane instruction writes the active lanes of vd with the result of the two source lanes, each valid when its
sources are (a scalar operand counts as valid), keeps the other lanes, and goes on; nothing else of the part changes
(R123 to R126, R138, R139, R143). -/
def Sys2Proof.Claims.LaneArithmetic : Prop :=
  ∀ (s : State) (e : Eng) (f : VForm),
    (∀ n < (laneResults e f 0 0).length, ∀ i v, (laneResults e f 0 0)[n]? = some (i, v) → (s.eng e).Executes i →
      let x := s.engAt e i
      ∃ y, exec i s = .next (s.withEng e y) ∧
        x.WroteVector y f.vd (fun k => (getP x f.pm).getLsbD k = true)
          (fun k => (((laneResults e f (src1 x f k) (src2 x f k))[n]?.map Prod.snd).getD 0))
          (fun k => (getVm x f.vs1).getLsbD k && (f.f || (getVm x (f.src2.setWidth 4)).getLsbD k))) ∧
    (∀ n < (laneResults1 e f 0).length, ∀ i v, (laneResults1 e f 0)[n]? = some (i, v) → (s.eng e).Executes i →
      let x := s.engAt e i
      ∃ y, exec i s = .next (s.withEng e y) ∧
        x.WroteVector y f.vd (fun k => (getP x f.pm).getLsbD k = true)
          (fun k => (((laneResults1 e f (src1 x f k))[n]?.map Prod.snd).getD 0))
          (fun k => (getVm x f.vs1).getLsbD k))

/-- The pair instructions with their results. -/
def Sys2Proof.Machine.pairResults (e : Eng) (f : VForm) (a b : Wide) : List (Instr × Wide) :=
  [(.vaddp e f, a + b), (.vsubp e f, a - b), (.vmulp e f, BitVec.ofInt 80 (a.toInt * b.toInt)),
   (.vminp e f, if a.toInt ≤ b.toInt then a else b), (.vmaxp e f, if a.toInt ≤ b.toInt then b else a),
   (.vminup e f, if a.toNat ≤ b.toNat then a else b), (.vmaxup e f, if a.toNat ≤ b.toNat then b else a)]

/-- Half of a pair: the even lane holds bits [39:0], the odd lane bits [79:40] (R121). -/
def Sys2Proof.Machine.halfOf (v : Wide) (k : Nat) : Cell :=
  if k % 2 = 0 then BitVec.ofNat 40 v.toNat else BitVec.ofNat 40 (v.toNat / 2 ^ 40)

/-- A pair instruction writes both lanes of the pairs whose even lane is active, each valid when both lanes of each
source pair are, keeps the other lanes, and goes on; nothing else of the part changes (R121, R122, R126, R140). -/
def Sys2Proof.Claims.PairArithmetic : Prop :=
  ∀ (s : State) (e : Eng) (f : VForm),
    ∀ n < (pairResults e f 0 0).length, ∀ i v, (pairResults e f 0 0)[n]? = some (i, v) → (s.eng e).Executes i →
      let x := s.engAt e i
      ∃ y, exec i s = .next (s.withEng e y) ∧
        x.WroteVector y f.vd (fun k => (getP x f.pm).getLsbD (k / 2 * 2) = true)
          (fun k => halfOf (((pairResults e f (psrc1 x f (k / 2)) (psrc2 x f (k / 2)))[n]?.map Prod.snd).getD 0) k)
          (fun k => let j := k / 2 * 2
            (getVm x f.vs1).getLsbD j && (getVm x f.vs1).getLsbD (j + 1) &&
            (f.f || ((getVm x (f.src2.setWidth 4)).getLsbD j && (getVm x (f.src2.setWidth 4)).getLsbD (j + 1))))

/-- The compares, with their conditions on cells or pairs. -/
def Sys2Proof.Machine.compareResults {w : Nat} (e : Eng) (f : VForm) (pair : Bool) (a b : BitVec w) : List (Instr × Bool) :=
  [(.vcmpeq e f pair, decide (a = b)), (.vcmpne e f pair, decide (a ≠ b)),
   (.vcmplt e f pair, decide (a.toInt < b.toInt)), (.vcmpge e f pair, decide (b.toInt ≤ a.toInt)),
   (.vcmpltu e f pair, decide (a.toNat < b.toNat)), (.vcmpgeu e f pair, decide (b.toNat ≤ a.toNat)),
   (.vcmple e f pair, decide (a.toInt ≤ b.toInt)), (.vcmpgt e f pair, decide (b.toInt < a.toInt)),
   (.vcmpleu e f pair, decide (a.toNat ≤ b.toNat)), (.vcmpgtu e f pair, decide (b.toNat < a.toNat))]

/-- A compare writes every bit of pd: 1 where the lane or pair is active, both sources are valid and the condition
holds; a pair sets both its bits; nothing else of the part changes (R122, R141). -/
def Sys2Proof.Claims.VectorCompares : Prop :=
  ∀ (s : State) (e : Eng) (f : VForm) (pair : Bool),
    ∀ n < 10, ∀ i v, (compareResults (w := 40) e f pair 0 0)[n]? = some (i, v) → (s.eng e).Executes i →
      let x := s.engAt e i
      ∃ y, exec i s = .next (s.withEng e y) ∧
        x.WrotePredicate y (f.vd.setWidth 3) (fun k =>
          if pair then pairActive x f (k / 2) && pok1 x f (k / 2) && pok2 x f (k / 2) &&
            (((compareResults e f pair (psrc1 x f (k / 2)) (psrc2 x f (k / 2)))[n]?.map Prod.snd).getD false)
          else active x f k && ok1 x f k && ok2 x f k &&
            (((compareResults e f pair (src1 x f k) (src2 x f k))[n]?.map Prod.snd).getD false))

/-- Predicate instructions: logic on two predicates, and predicates and masks to and from scalars and masks; each writes
its destination and goes on, and nothing else of the part changes (R142). -/
def Sys2Proof.Claims.PredicateInstructions : Prop :=
  ∀ (s : State) (e : Eng) (f : VForm),
    (∀ r ∈ ([(.pand e f, fun a b => a && b), (.por e f, fun a b => a || b), (.pxor e f, fun a b => a ^^ b),
        (.pandn e f, fun a b => a && !b), (.pnot e f, fun a _ => !a)] : List (Instr × (Bool → Bool → Bool))),
      (s.eng e).Executes r.1 → let x := s.engAt e r.1
      ∃ y, exec r.1 s = .next (s.withEng e y) ∧ x.WrotePredicate y (f.vd.setWidth 3) (fun k =>
        r.2 ((getP x (f.vs1.setWidth 3)).getLsbD k) ((getP x (f.src2.setWidth 3)).getLsbD k))) ∧
    (∀ r ∈ ([(.pmovs e f, fun m => m.setWidth 64),
        (.ppopc e f, fun m => BitVec.ofNat 64 ((List.range 16).countP m.getLsbD)),
        (.pfirst e f, fun m => BitVec.ofNat 64 (((List.range 16).find? m.getLsbD).getD 16))] :
          List (Instr × (Mask → Dword))),
      (s.eng e).Executes r.1 → let x := s.engAt e r.1
      exec r.1 s = .next (s.withEng e (x.wrote f.src2 (r.2 (getP x (f.vs1.setWidth 3)))))) ∧
    ((s.eng e).Executes (.pset e f) → let x := s.engAt e (.pset e f)
      ∃ y, exec (.pset e f) s = .next (s.withEng e y) ∧
        x.WrotePredicate y (f.vd.setWidth 3) (getS x f.src2).getLsbD) ∧
    ((s.eng e).Executes (.vmtop e f) → let x := s.engAt e (.vmtop e f)
      ∃ y, exec (.vmtop e f) s = .next (s.withEng e y) ∧
        x.WrotePredicate y (f.vd.setWidth 3) (getVm x f.vs1).getLsbD) ∧
    ((s.eng e).Executes (.ptovm e f) → let x := s.engAt e (.ptovm e f)
      ∃ y, exec (.ptovm e f) s = .next (s.withEng e y) ∧ x.WroteMask y f.vd (getP x (f.vs1.setWidth 3)).getLsbD) ∧
    ((s.eng e).Executes (.vmand e f) → let x := s.engAt e (.vmand e f)
      ∃ y, exec (.vmand e f) s = .next (s.withEng e y) ∧ x.WroteMask y f.vd (fun k =>
        (getVm x f.vd).getLsbD k && (getP x (f.vs1.setWidth 3)).getLsbD k))

/-- Moves of lanes: VSPLAT, VIOTA, VSEL, VCOMPRESS, VEXPAND, VPERM, VMOVS and VMOVV write the lanes that R143 gives them
from the lanes it gives, and go on; nothing else of the part changes. -/
def Sys2Proof.Claims.LaneMoves : Prop :=
  ∀ (s : State) (e : Eng) (f : VForm) (ln : BitVec 4),
    let does := fun (i : Instr) (w : Engine → Nat → Prop) (val : Engine → Nat → Cell) (ok : Engine → Nat → Bool) =>
      (s.eng e).Executes i → let x := s.engAt e i
      ∃ y, exec i s = .next (s.withEng e y) ∧ x.WroteVector y f.vd (w x) (val x) (ok x)
    let act := fun (x : Engine) k => (getP x f.pm).getLsbD k
    let rank := fun (x : Engine) k => (List.range k).countP (act x)
    does (.vsplat e f) (fun x k => act x k = true) (fun x _ => (getS x f.src2).setWidth 40) (fun _ _ => true) ∧
    does (.viota e f) (fun x k => act x k = true) (fun x k => (getS x f.src2 + BitVec.ofNat 64 k).setWidth 40)
      (fun _ _ => true) ∧
    does (.vsel e f) (fun _ _ => True) (fun x k => if act x k then src1 x f k else src2 x f k)
      (fun x k => if act x k then ok1 x f k else ok2 x f k) ∧
    ((s.eng e).Executes (.vcompress e f) → let x := s.engAt e (.vcompress e f)
      ∃ y, exec (.vcompress e f) s = .next (s.withEng e y) ∧
        (∀ j < 16, act x j = true →
          lane (getV y f.vd) (rank x j) = src1 x f j ∧ (getVm y f.vd).getLsbD (rank x j) = ok1 x f j) ∧
        (∀ k < 16, rank x 16 ≤ k → lane (getV y f.vd) k = 0 ∧ (getVm y f.vd).getLsbD k = false) ∧
        ∃ v w, x.WroteVector y f.vd (fun _ => True) v w) ∧
    does (.vexpand e f) (fun x k => act x k = true) (fun x k => src1 x f (rank x k)) (fun x k => ok1 x f (rank x k)) ∧
    does (.vperm e f) (fun x k => act x k = true)
      (fun x k => let j := (src1 x f k).toNat % 32
        if j < 16 then lane (getV x (f.src2.setWidth 4)) j else lane (getV x (f.src2.setWidth 4 + 1)) (j - 16))
      (fun x k => let j := (src1 x f k).toNat % 32
        (if j < 16 then (getVm x (f.src2.setWidth 4)).getLsbD j
         else (getVm x (f.src2.setWidth 4 + 1)).getLsbD (j - 16)) && ok1 x f k) ∧
    does (.vmovv e f ln) (fun _ k => k = ln.toNat) (fun x _ => (getS x f.src2).setWidth 40) (fun _ _ => true) ∧
    ((s.eng e).Executes (.vmovs e f ln) → let x := s.engAt e (.vmovs e f ln)
      exec (.vmovs e f ln) s = .next (s.withEng e (x.wrote f.src2 ((lane (getV x f.vs1) ln.toNat).signExtend 64))))

/-- An order of lanes for VSORT and VMERGE: `σ` lists the source lanes in the order of the output; a lane does not stand
behind one that goes before it, and equals keep their order (R144). -/
def Sys2Proof.Machine.sortedBy (m : SortMode) (key : Nat → Key) (σ : List Nat) : Prop :=
  σ.Pairwise fun i j => before m (key j) (key i) = false ∧ (before m (key i) (key j) = false → i < j)

/-- VSORT orders the lanes of vs1 into vd, stably, invalid lanes last, and moves the lanes of vs2 alike into vd + 1,
each with its validity; it goes on, and nothing else of the part changes (R144, R145). -/
def Sys2Proof.Claims.VectorSort : Prop :=
  ∀ (s : State) (e : Eng) (f : VForm) (m : SortMode), (s.eng e).Executes (.vsort e f m) →
    let x := s.engAt e (.vsort e f m)
    let c := f.src2.setWidth 4
    ∃ (y : Engine) (σ : List Nat), exec (.vsort e f m) s = .next (s.withEng e y) ∧ σ.Perm (List.range 16) ∧
      sortedBy m (fun i => ⟨lane (getV x f.vs1) i, (getVm x f.vs1).getLsbD i, i⟩) σ ∧
      y = { x with v := y.v, vm := y.vm, pc := x.pc + 4 } ∧
      (∀ n, n ≠ f.vd → n ≠ f.vd + 1 → getV y n = getV x n ∧ getVm y n = getVm x n) ∧
      ∀ k < 16, let j := σ.getD k 0
        lane (getV y f.vd) k = lane (getV x f.vs1) j ∧ (getVm y f.vd).getLsbD k = (getVm x f.vs1).getLsbD j ∧
        lane (getV y (f.vd + 1)) k = lane (getV x c) j ∧ (getVm y (f.vd + 1)).getLsbD k = (getVm x c).getLsbD j

/-- VMERGE of two ordered registers orders their 32 lanes into vd and vd + 1, a tie to vs1's lane, as values with their
validity or, with I, as lane numbers 0 to 31; it goes on, and nothing else of the part changes (R144, R146). -/
def Sys2Proof.Claims.VectorMerge : Prop :=
  ∀ (s : State) (e : Eng) (f : VForm) (m : SortMode), (s.eng e).Executes (.vmerge e f m) →
    let x := s.engAt e (.vmerge e f m)
    let c := f.src2.setWidth 4
    let key := fun i => if i < 16 then (⟨lane (getV x f.vs1) i, (getVm x f.vs1).getLsbD i, i⟩ : Key)
      else ⟨lane (getV x c) (i - 16), (getVm x c).getLsbD (i - 16), i⟩
    sortedBy m key (List.range 16) → sortedBy m key ((List.range 16).map (16 + ·)) →
    ∃ (y : Engine) (σ : List Nat), exec (.vmerge e f m) s = .next (s.withEng e y) ∧ σ.Perm (List.range 32) ∧
      sortedBy m key σ ∧ y = { x with v := y.v, vm := y.vm, pc := x.pc + 4 } ∧
      (∀ n, n ≠ f.vd → n ≠ f.vd + 1 → getV y n = getV x n ∧ getVm y n = getVm x n) ∧
      ∀ k < 32, let j := σ.getD k 0
        let r := if k < 16 then f.vd else f.vd + 1
        lane (getV y r) (k % 16) = (if m.i then BitVec.ofNat 40 j else (key j).v) ∧
        (getVm y r).getLsbD (k % 16) = (m.i || (key j).ok)

/-- The sum of a function over the lanes below `n` that a condition selects. -/
def Sys2Proof.Machine.sumWhere (c : Nat → Bool) (g : Nat → Int) (n : Nat) : Int :=
  ((List.range n).map fun k => if c k then g k else 0).foldl (· + ·) 0

/-- Scans write every lane of vd, all valid, with the carry-in plus the sum of the contributing lanes up to (VSCAN) or
before (VSCANX) it; reductions write the result of the contributing lanes into pair 0 of vd, valid, or 0 and invalid
where a least or greatest of no lane is asked, and 0 and invalid into the other lanes. Each goes on; nothing else of
the part changes (R147). -/
def Sys2Proof.Claims.ScansAndReductions : Prop :=
  ∀ (s : State) (e : Eng) (f : VForm),
    let con := fun (x : Engine) k => (getP x f.pm).getLsbD k && (getVm x f.vs1).getLsbD k
    (∀ r ∈ ([(.vscan e f, 1), (.vscanx e f, 0)] : List (Instr × Nat)), (s.eng e).Executes r.1 →
      let x := s.engAt e r.1
      ∃ y, exec r.1 s = .next (s.withEng e y) ∧ x.WroteVector y f.vd (fun _ => True)
        (fun k => BitVec.ofInt 40 ((if f.f then (getS x f.src2).toNat else 0) +
          sumWhere (con x) (fun j => (src1 x f j).toNat) (k + r.2)))
        (fun _ => true)) ∧
    (∀ r ∈ ([(.vrsum e f, fun x => sumWhere (con x) (fun j => (src1 x f j).toInt) 16),
        (.vrsumu e f, fun x => sumWhere (con x) (fun j => (src1 x f j).toNat) 16),
        (.vrcnt e f, fun x => sumWhere (con x) (fun _ => 1) 16),
        (.vrasum e f, fun x => sumWhere (getP x f.pm).getLsbD (fun j =>
            (accLane (getA x (f.vs1.setWidth 3)) j).toNat) 16)] :
          List (Instr × (Engine → Int))),
      (s.eng e).Executes r.1 → let x := s.engAt e r.1
      ∃ y, exec r.1 s = .next (s.withEng e y) ∧ x.WroteVector y f.vd (fun _ => True)
        (fun k => if k < 2 then halfOf (BitVec.ofInt 80 (r.2 x)) k else 0) (fun k => decide (k < 2))) ∧
    (∀ r ∈ ([(.vrmin e f, true, true), (.vrmax e f, true, false), (.vrminu e f, false, true),
        (.vrmaxu e f, false, false)] : List (Instr × Bool × Bool)),
      (s.eng e).Executes r.1 → let x := s.engAt e r.1
      let val := fun j => if r.2.1 then (src1 x f j).toInt else ((src1 x f j).toNat : Int)
      ∃ y, exec r.1 s = .next (s.withEng e y) ∧
        ((∀ j < 16, con x j = false) → x.WroteVector y f.vd (fun _ => True) (fun _ => 0) (fun _ => false)) ∧
        ((∃ j < 16, con x j = true) → ∃ j < 16, con x j = true ∧
          (∀ k < 16, con x k = true → if r.2.2 then val j ≤ val k else val k ≤ val j) ∧
          x.WroteVector y f.vd (fun _ => True) (fun k => if k < 2 then halfOf (BitVec.ofInt 80 (val j)) k else 0)
            (fun k => decide (k < 2))))

/-- Accumulator instructions add the contributing lanes, or their products with the second operand, to the lanes of the
accumulator that vd names, modulo 2^80, clear its active lanes, or move its sixteen lanes to the pairs of vd and vd + 1,
all valid; each goes on, and nothing else of the part changes (R147). -/
def Sys2Proof.Claims.Accumulators : Prop :=
  ∀ (s : State) (e : Eng) (f : VForm),
    let act := fun (x : Engine) k => (getP x f.pm).getLsbD k
    let con := fun (x : Engine) k => act x k && (getVm x f.vs1).getLsbD k
    let con2 := fun (x : Engine) k => con x k && (f.f || (getVm x (f.src2.setWidth 4)).getLsbD k)
    (∀ r ∈ ([(.vacc e f, con, fun x k a => BitVec.ofInt 80 (a.toInt + (src1 x f k).toInt)),
        (.vaccu e f, con, fun x k a => BitVec.ofNat 80 (a.toNat + (src1 x f k).toNat)),
        (.vaccm e f, con2, fun x k a => BitVec.ofInt 80 (a.toInt + (src1 x f k).toInt * (src2 x f k).toInt)),
        (.vaccmu e f, con2, fun x k a => BitVec.ofNat 80 (a.toNat + (src1 x f k).toNat * (src2 x f k).toNat)),
        (.vaclr e f, act, fun _ _ _ => 0)] :
          List (Instr × (Engine → Nat → Bool) × (Engine → Nat → Wide → Wide))),
      (s.eng e).Executes r.1 → let x := s.engAt e r.1
      ∃ y, exec r.1 s = .next (s.withEng e y) ∧ x.WroteAccumulator y (f.vd.setWidth 3) (fun k =>
        let a := accLane (getA x (f.vd.setWidth 3)) k
        if r.2.1 x k then r.2.2 x k a else a)) ∧
    ((s.eng e).Executes (.vamov e f) → let x := s.engAt e (.vamov e f)
      ∃ y, exec (.vamov e f) s = .next (s.withEng e y) ∧ y = { x with v := y.v, vm := y.vm, pc := x.pc + 4 } ∧
        (∀ n, n ≠ f.vd → n ≠ f.vd + 1 → getV y n = getV x n ∧ getVm y n = getVm x n) ∧
        ∀ k < 16, let a := getA x (f.vs1.setWidth 3)
          lane (getV y f.vd) k = halfOf (accLane a (k / 2)) k ∧ (getVm y f.vd).getLsbD k = true ∧
          lane (getV y (f.vd + 1)) k = halfOf (accLane a (8 + k / 2)) k ∧ (getVm y (f.vd + 1)).getLsbD k = true)

/-- The floating-point arithmetic of each instruction: its format's operation on two bit patterns. -/
def Sys2Proof.Machine.floatResults (e : Eng) (f : VForm) (dbl : Bool) :
    List (Instr × Bool × (FpRound → Nat → Nat → Nat × FpFlags)) :=
  let m := if dbl then fp64 else fp32
  [(.vfadd e f dbl, true, fun r a b => fpAdd m r false a b), (.vfsub e f dbl, true, fun r a b => fpAdd m r true a b),
   (.vfmul e f dbl, true, fun r a b => fpMul m r a b), (.vfdiv e f dbl, true, fun r a b => fpDiv m r a b),
   (.vfsqrt e f dbl, false, fun r a _ => fpSqrt m r a), (.vfmin e f dbl, true, fun _ a b => fpMinMax m false a b),
   (.vfmax e f dbl, true, fun _ a b => fpMinMax m true a b)]

/-- A flag of VFCSR after an instruction: it was set or a contributing lane sets it. -/
def Sys2Proof.Machine.stickyFlags (old new : BitVec 9) (n : Nat) (con : Nat → Bool) (fl : Nat → FpFlags) : Prop :=
  (∀ k < 4, new.getLsbD k = old.getLsbD k) ∧
  ∀ r ∈ ([(4, (·.nx)), (5, (·.uf)), (6, (·.ovf)), (7, (·.dz)), (8, (·.nv))] : List (Nat × (FpFlags → Bool))),
    new.getLsbD r.1 = (old.getLsbD r.1 || (List.range n).any fun k => con k && r.2 (fl k))

/-- Floating-point instructions work on bits [31:0] of each active lane, or on bits [63:0] of each active pair, in the
rounding mode of VFCSR; the lane or pair is valid when its sources are, the upper bits of what is written are 0, and the
flags of the active lanes with valid sources are added to VFCSR. Each goes on; nothing else of the part changes (R120,
R150 to R152). -/
def Sys2Proof.Claims.FloatArithmetic : Prop :=
  ∀ (s : State) (e : Eng) (f : VForm) (dbl : Bool), ∀ r ∈ floatResults e f dbl, (s.eng e).Executes r.1 →
    let x := s.engAt e r.1
    let j := fun k => if dbl then k / 2 else k
    let a := fun k => if dbl then (psrc1 x f k).toNat % 2 ^ 64 else (src1 x f k).toNat % 2 ^ 32
    let b := fun k => if f.f then (getS x f.src2).toNat % (if dbl then 2 ^ 64 else 2 ^ 32)
      else if dbl then (psrc2 x f k).toNat % 2 ^ 64 else (src2 x f k).toNat % 2 ^ 32
    let ok := fun k => if dbl then pok1 x f k && (!r.2.1 || pok2 x f k) else ok1 x f k && (!r.2.1 || ok2 x f k)
    let act := fun k => if dbl then pairActive x f k else active x f k
    let res := fun k => r.2.2 (roundMode x) (a k) (b k)
    ∃ y w, exec r.1 s = .next (s.withEng e { y with vfcsr := w }) ∧
      x.WroteVector y f.vd (fun k => act (j k) = true)
        (fun k => if dbl then halfOf (BitVec.ofNat 80 (res (j k)).1) k else BitVec.ofNat 40 (res k).1) (fun k =>
            ok (j k)) ∧
      stickyFlags x.vfcsr w (if dbl then 8 else 16) (fun k => act k && ok k) (fun k => (res k).2)

/-- Floating-point compares write every bit of pd: 1 where the lane or pair is active, both sources are valid and the
condition holds, add their flags to VFCSR and go on; nothing else of the part changes (R141, R150, R152). -/
def Sys2Proof.Claims.FloatCompares : Prop :=
  ∀ (s : State) (e : Eng) (f : VForm) (dbl : Bool),
    let m := if dbl then fp64 else fp32
    ∀ r ∈ ([(.vfeq e f dbl, fpEq m), (.vflt e f dbl, fpLt m false), (.vfle e f dbl, fpLt m true)] :
      List (Instr × (Nat → Nat → Bool × FpFlags))), (s.eng e).Executes r.1 →
    let x := s.engAt e r.1
    let j := fun k => if dbl then k / 2 else k
    let con := fun k => if dbl then pairActive x f k && pok1 x f k && pok2 x f k else active x f k && ok1 x f k &&
        ok2 x f k
    let res := fun k => r.2 (fpA x f dbl k) (fpB x f dbl k)
    ∃ y w, exec r.1 s = .next (s.withEng e { y with vfcsr := w }) ∧
      x.WrotePredicate y (f.vd.setWidth 3) (fun k => con (j k) && (res (j k)).1) ∧
      stickyFlags x.vfcsr w (if dbl then 8 else 16) con (fun k => (res k).2)

/-- The lane conversions: a cell from a cell, with flags. -/
def Sys2Proof.Machine.laneConversions (e : Eng) (f : VForm) : List (Instr × (FpRound → Cell → Nat × FpFlags)) :=
  let word := fun (r : Int × FpFlags) => ((r.1 % 2 ^ 40).toNat, r.2)
  [(.vcvtfi e f, fun r a => fpOfInt fp32 r a.toInt), (.vcvtfu e f, fun r a => fpOfInt fp32 r a.toNat),
   (.vcvtif e f, fun r a => word (fpToInt fp32 r (-(2 ^ 39)) (2 ^ 39 - 1) (a.toNat % 2 ^ 32))),
   (.vcvtuf e f, fun r a => word (fpToInt fp32 r 0 (2 ^ 40 - 1) (a.toNat % 2 ^ 32)))]

/-- The pair conversions: a pair from a pair, or from lane 8H + k. -/
def Sys2Proof.Machine.pairConversions (e : Eng) (f : VForm) (h : Bool) :
    List (Instr × Bool × (FpRound → Wide → Cell → Nat × FpFlags)) :=
  let wide := fun (r : Int × FpFlags) => ((r.1 % 2 ^ 80).toNat, r.2)
  [(.vcvtdi e f, true, fun r a _ => fpOfInt fp64 r a.toInt),
   (.vcvtid e f, true, fun r a _ => wide (fpToInt fp64 r (-(2 ^ 79)) (2 ^ 79 - 1) (a.toNat % 2 ^ 64))),
   (.vwideni e f h, false, fun _ _ c => ((c.toInt % 2 ^ 80).toNat, noFlags)),
   (.vwidenu e f h, false, fun _ _ c => (c.toNat, noFlags)),
   (.vwidenf e f h, false, fun _ _ c => fpConvert fp32 fp64 .nearest (c.toNat % 2 ^ 32))]

/-- Conversions write the active lanes or pairs of vd, each valid when its source is, add the flags of the active
lanes with valid sources to VFCSR and go on; a widening reads lanes 8H to 8H + 7, a narrowing writes them and no
others; nothing else of the part changes (R152, R153). -/
def Sys2Proof.Claims.Conversions : Prop :=
  ∀ (s : State) (e : Eng) (f : VForm) (h : Bool),
    let base := if h then 8 else 0
    (∀ r ∈ laneConversions e f, (s.eng e).Executes r.1 → let x := s.engAt e r.1
      let res := fun k => r.2 (roundMode x) (src1 x f k)
      ∃ y w, exec r.1 s = .next (s.withEng e { y with vfcsr := w }) ∧
        x.WroteVector y f.vd (fun k => active x f k = true) (fun k => BitVec.ofNat 40 (res k).1) (ok1 x f) ∧
        stickyFlags x.vfcsr w 16 (fun k => active x f k && ok1 x f k) (fun k => (res k).2)) ∧
    (∀ r ∈ pairConversions e f h, (s.eng e).Executes r.1 → let x := s.engAt e r.1
      let res := fun k => r.2.2 (roundMode x) (psrc1 x f k) (src1 x f (base + k))
      let ok := fun k => if r.2.1 then pok1 x f k else ok1 x f (base + k)
      ∃ y w, exec r.1 s = .next (s.withEng e { y with vfcsr := w }) ∧
        x.WroteVector y f.vd (fun k => pairActive x f (k / 2) = true) (fun k =>
            halfOf (BitVec.ofNat 80 (res (k / 2)).1) k)
          (fun k => ok (k / 2)) ∧
        stickyFlags x.vfcsr w 8 (fun k => pairActive x f k && ok k) (fun k => (res k).2)) ∧
    (∀ r ∈ ([(.vnarrowi e f h, fun _ a =>
          ((max (-(2 ^ 39)) (min (2 ^ 39 - 1) a.toInt) % 2 ^ 40).toNat, noFlags)),
        (.vnarrowf e f h, fun r a => fpConvert fp64 fp32 r (a.toNat % 2 ^ 64))] :
          List (Instr × (FpRound → Wide → Nat × FpFlags))),
      (s.eng e).Executes r.1 → let x := s.engAt e r.1
      let res := fun k => r.2 (roundMode x) (psrc1 x f k)
      ∃ y w, exec r.1 s = .next (s.withEng e { y with vfcsr := w }) ∧
        x.WroteVector y f.vd (fun k => base ≤ k ∧ k < base + 8 ∧ active x f k = true)
          (fun k => BitVec.ofNat 40 (res (k - base)).1) (fun k => pok1 x f (k - base)) ∧
        stickyFlags x.vfcsr w 8 (fun k => active x f (base + k) && pok1 x f k) (fun k => (res k).2))

/-- The fault of the lowest byte that an instruction may not touch: ACC_KERNEL in the kernel area, ACC_SPACE outside
landing, with its address (R135; that the lowest byte's cause is taken where bytes of both kinds fail is the model's
choice, log entry 126). -/
def Sys2Proof.Machine.byteFault (a : Nat) : CauseVal :=
  ⟨if a < 0x40000 then .accKernel else .accSpace, BitVec.ofNat 64 a⟩

/-- A packed load of `n` fields reads `width + 1` bits each from the bit address in rs1 and writes the active lanes or
pairs of vd, all valid: unsigned, sign-extended, or a string's bytes in reverse. It goes on, and nothing else changes
(R122, R132 to R136). One that would read a byte that its mode may not touch gives the fault of the lowest such byte and
has no other effect. -/
def Sys2Proof.Claims.PackedLoads : Prop :=
  ∀ (s : State) (e : Eng) (f : VWForm) (pair : Bool), (s.eng e).Executes (.vld e f pair) →
    let x := s.engAt e (.vld e f pair)
    let b := (getS x f.rs1).toNat
    let w := f.width.toNat + 1
    let act := fun k => (getP x f.pm).getLsbD (if pair then 2 * k else k)
    let h := topActive act (if pair then 8 else 16)
    let fld := fun k => mread x.landing ((b + k * w) / 8) (((b + k * w) % 8 + w + 7) / 8) / 2 ^ ((b + k * w) % 8) % 2 ^ w
    let limit := if x.mode = .thread then 0x3e000 else 0x40000
    (h = 0 ∨ b + h * w ≤ 8 * limit →
      ∃ y, exec (.vld e f pair) s = .next (s.withEng e y) ∧
        x.WroteVector y f.vd (fun k => act (if pair then k / 2 else k) = true)
          (fun k =>
            if pair then halfOf (BitVec.ofNat 80 (loadConv f w (fld (k / 2)) 80)) k
            else BitVec.ofNat 40 (loadConv f w (fld k) 40))
          (fun _ => true)) ∧
    (h ≠ 0 → 8 * limit < b + h * w → exec (.vld e f pair) s = .next (s.withEng e { x with
      fault := some (byteFault (max (b / 8) limit)) }))

/-- A packed store writes the active lanes or pairs of vd, each converted to `width + 1` bits, up to the highest active
one; the other bits of landing, and everything else, stay (R132 to R136). One that would touch a byte that its mode may
not gives the fault of the lowest such byte and has no other effect. -/
def Sys2Proof.Claims.PackedStores : Prop :=
  ∀ (s : State) (e : Eng) (f : VWForm) (pair : Bool), (s.eng e).Executes (.vst e f pair) →
    let x := s.engAt e (.vst e f pair)
    let b := (getS x f.rs1).toNat
    let w := f.width.toNat + 1
    let act := fun k => (getP x f.pm).getLsbD (if pair then 2 * k else k)
    let h := topActive act (if pair then 8 else 16)
    let val := fun k => if pair then storeConv f w (pairOf (getV x f.vd) k).toNat 80
      else storeConv f w (lane (getV x f.vd) k).toNat 40
    let bit := fun (m : List Host.Cell) k => (mget m (k / 8)).getLsbD (k % 8)
    let limit := if x.mode = .thread then 0x3e000 else 0x40000
    (h = 0 ∨ b + h * w ≤ 8 * limit →
      ∃ m, exec (.vst e f pair) s = .next (s.withEng e { x with landing := m, pc := x.pc + 4 }) ∧
        (∀ k < h, act k = true → ∀ j < w, bit m (b + k * w + j) = (val k).testBit j) ∧
        (∀ k, (∀ j < h, act j = true → k < b + j * w ∨ b + (j + 1) * w ≤ k) → bit m k = bit x.landing k) ∧
        (Memory.wf x.landing → Memory.wf m)) ∧
    (h ≠ 0 → 8 * limit < b + h * w → exec (.vst e f pair) s = .next (s.withEng e { x with
      fault := some (byteFault (max (b / 8) limit)) }))

/-- PLD and VMLD read the sixteen bits at the bit address in rs1 into a predicate or a validity mask; PST and VMST write
them there and keep every other bit of landing. Each goes on, and nothing else changes (R135 to R137). One that would
touch a byte that its mode may not gives the fault of the lowest such byte and has no other effect. -/
def Sys2Proof.Claims.BitmapLoadsAndStores : Prop :=
  ∀ (s : State) (e : Eng) (f : VWForm),
    let bit := fun (m : List Host.Cell) k => (mget m (k / 8)).getLsbD (k % 8)
    let limit := fun (x : Engine) => if x.mode = .thread then 0x3e000 else 0x40000
    let fits := fun (x : Engine) => (getS x f.rs1).toNat + 16 ≤ 8 * limit x
    (∀ i ∈ [.pld e f, .vmld e f, .pst e f, .vmst e f], (s.eng e).Executes i → let x := s.engAt e i
      ¬ fits x → exec i s = .next (s.withEng e { x with
        fault := some (byteFault (max ((getS x f.rs1).toNat / 8) (limit x))) })) ∧
    ((s.eng e).Executes (.pld e f) → let x := s.engAt e (.pld e f)
      fits x → ∃ y, exec (.pld e f) s = .next (s.withEng e y) ∧
        x.WrotePredicate y (f.vd.setWidth 3) (fun k => bit x.landing ((getS x f.rs1).toNat + k))) ∧
    ((s.eng e).Executes (.vmld e f) → let x := s.engAt e (.vmld e f)
      fits x → ∃ y, exec (.vmld e f) s = .next (s.withEng e y) ∧
        x.WroteMask y f.vd (fun k => bit x.landing ((getS x f.rs1).toNat + k))) ∧
    ∀ r ∈ ([(.pst e f, fun x => getP x (f.vd.setWidth 3)), (.vmst e f, fun x => getVm x f.vd)] :
      List (Instr × (Engine → Mask))), (s.eng e).Executes r.1 → let x := s.engAt e r.1
      fits x → ∃ m, exec r.1 s = .next (s.withEng e { x with landing := m, pc := x.pc + 4 }) ∧
        (∀ k < 16, bit m ((getS x f.rs1).toNat + k) = (r.2 x).getLsbD k) ∧
        (∀ k, k < (getS x f.rs1).toNat ∨ (getS x f.rs1).toNat + 16 ≤ k → bit m k = bit x.landing k) ∧
        (Memory.wf x.landing → Memory.wf m)

/-- VGATHER reads, for every active lane with a valid index, the element at base plus index, scaled where SC says so,
and writes 0 into an active lane whose index is invalid; validity follows the index; VACCT adds each active valid lane
of vs1, sign-extended, to the 64-bit slot that vd's valid lane names, lane by lane. Each goes on, and nothing else
changes; a byte that may not be touched gives the fault of the lowest such byte and no other effect (R135, R154,
R155). -/
def Sys2Proof.Claims.GatherAndTableAccumulate : Prop :=
  ∀ (s : State) (e : Eng) (f : VForm) (g : GatherMode),
    let size := if g.size = 0 then 1 else if g.size = 1 then 2 else if g.size = 2 then 4 else 5
    let limit := fun (x : Engine) => if x.mode = .thread then 0x3e000 else 0x40000
    ((s.eng e).Executes (.vgather e f g) → let x := s.engAt e (.vgather e f g)
      let addr := fun k => ((getS x f.src2).toNat + (src1 x f k).toNat * (if g.sc then size else 1)) % 2 ^ 64
      (∀ k < 16, active x f k = true → ok1 x f k = true → addr k + size ≤ limit x) →
      ∃ y, exec (.vgather e f g) s = .next (s.withEng e y) ∧
        x.WroteVector y f.vd (fun k => active x f k = true)
          (fun k => if ok1 x f k then (let v := mread x.landing (addr k) size
            if g.sx && decide (2 ^ (8 * size - 1) ≤ v) then BitVec.ofInt 40 ((v : Int) - 2 ^ (8 * size))
            else BitVec.ofNat 40 v) else 0) (ok1 x f)) ∧
    ((s.eng e).Executes (.vgather e f g) → let x := s.engAt e (.vgather e f g)
      let addr := fun k => ((getS x f.src2).toNat + (src1 x f k).toNat * (if g.sc then size else 1)) % 2 ^ 64
      let bad := fun a => ∃ k < 16, active x f k = true ∧ ok1 x f k = true ∧ addr k ≤ a ∧ a < addr k + size ∧
          limit x ≤ a
      ∀ a, bad a → (∀ b < a, ¬ bad b) →
        exec (.vgather e f g) s = .next (s.withEng e { x with fault := some (byteFault a) })) ∧
    ((s.eng e).Executes (.vacct e f) → let x := s.engAt e (.vacct e f)
      let addr := fun k => ((getS x f.src2).toNat + 8 * (lane (getV x f.vd) k).toNat) % 2 ^ 64
      let bad := fun a => ∃ k < 16, (active x f k && (getVm x f.vd).getLsbD k && ok1 x f k) = true ∧ addr k ≤ a ∧
        a < addr k + 8 ∧ limit x ≤ a
      ∀ a, bad a → (∀ b < a, ¬ bad b) →
        exec (.vacct e f) s = .next (s.withEng e { x with fault := some (byteFault a) })) ∧
    ((s.eng e).Executes (.vacct e f) → let x := s.engAt e (.vacct e f)
      let addr := fun k => ((getS x f.src2).toNat + 8 * (lane (getV x f.vd) k).toNat) % 2 ^ 64
      let adds := fun k => active x f k && (getVm x f.vd).getLsbD k && ok1 x f k
      (∀ k < 16, adds k = true → addr k + 8 ≤ limit x) →
      ∃ m, exec (.vacct e f) s = .next (s.withEng e { x with landing := m, pc := x.pc + 4 }) ∧
        (∀ a, (∀ k < 16, adds k = true → a < addr k ∨ addr k + 8 ≤ a) → mget m a = mget x.landing a) ∧
        ((∀ j < 16, ∀ k < 16, adds j = true → adds k = true → addr j = addr k ∨ addr j + 8 ≤ addr k ∨
            addr k + 8 ≤ addr j) → ∀ j < 16, adds j = true →
          (mread m (addr j) 8 : Int) = ((mread x.landing (addr j) 8 : Int) +
            sumWhere (fun k => adds k && decide (addr k = addr j)) (fun k => (src1 x f k).toInt) 16) % 2 ^ 64) ∧
        (Memory.wf x.landing → Memory.wf m))

/-! ### The engine's store buffer and L1, the mezzanine and the gallery (R76 to R79, R317 to R341, R575, R576) -/

/-- The oldest store of the store buffer, when L1 holds its line, merges its enabled bytes into the line, which
becomes dirty and youngest and belongs to a thread from then on if it did or the store does, and leaves the buffer;
one whose line neither L1 holds nor a miss brings, and that is not a full line, starts a miss and stays (R77, R317,
R318, R319). A maintenance entry for a line that L1 does not hold leaves with no effect, and one that invalidates a
line without a clean takes it out of L1 (R325, R326). A full line needs no miss: it takes a free way of its set. -/
def Sys2Proof.Claims.StoreBufferDrains : Prop :=
  ∀ (s : State) (e : Eng) (b : SbEntry) (rest : List SbEntry), s.dev.phase = .run → (s.eng e).sb = b :: rest →
    (s.eng e).discard = false →
    (∀ data en k l, b.kind = .store data en → l1Find (s.eng e) b.line = some (k, l) → l.bad = false →
      (l.dirty = true ∨ s.dev.ras.armed = []) →
      exec (.storeBufferDrain e) s = .next (s.withEng e { s.eng e with
        sb := rest
        l1 := sput (s.eng e).l1 k { l with
          data := lineMerge l.data data en, dirty := true, t := l.t || b.thread, age := 0 } })) ∧
    (∀ data en m, b.kind = .store data en → l1Find (s.eng e) b.line = none → (s.eng e).miss = some m →
      (m.line = b.line ∨ en ≠ BitVec.allOnes 64) → exec (.storeBufferDrain e) s = .next s) ∧
    (∀ data en, b.kind = .store data en → l1Find (s.eng e) b.line = none → (s.eng e).miss = none →
      en ≠ BitVec.allOnes 64 → ∃ t m, exec (.storeBufferDrain e) s = .next t ∧ (t.eng e).sb = b :: rest ∧
        (t.eng e).miss = some m ∧ m.line = b.line ∧ m.load = false ∧ t.dev.mem = s.dev.mem) ∧
    (∀ data, b.kind = .store data (BitVec.allOnes 64) → l1Find (s.eng e) b.line = none → s.dev.ras.armed = [] →
      (∀ m, (s.eng e).miss = some m → m.line ≠ b.line) → (∃ w < 4, sfind (s.eng e).l1 (l1Key b.line w) = none) →
      ∃ y, exec (.storeBufferDrain e) s = .next (s.withEng e y) ∧ y = { s.eng e with l1 := y.l1, sb := rest } ∧
        ∃ w < 4, sfind (s.eng e).l1 (l1Key b.line w) = none ∧
          sfind y.l1 (l1Key b.line w) = some ⟨b.line, data, true, b.thread, 0, false⟩) ∧
    (∀ k l, b.kind = .maintAddr false true false → l1Find (s.eng e) b.line = some (k, l) → l.bad = false →
      (∀ m, (s.eng e).miss = some m → m.line ≠ b.line) →
      exec (.storeBufferDrain e) s = .next (s.withEng e { s.eng e with sb := rest, l1 := sdel (s.eng e).l1 k })) ∧
    (∀ clean inv, b.kind = .maintAddr clean inv false → l1Find (s.eng e) b.line = none →
      (∀ m, (s.eng e).miss = some m → m.line ≠ b.line) →
      exec (.storeBufferDrain e) s = .next (s.withEng e { s.eng e with sb := rest })) ∧
    ∀ (l o : Line) (en : BitVec 64) (i : Nat), i < 64 →
      lineByte (lineMerge o l en) i = if en.getLsbD i then lineByte l i else lineByte o i

/-- A discard ends when no thread-mode store from before the tick remains in the buffer, and not before (R329). -/
def Sys2Proof.Claims.DiscardEnds : Prop :=
  ∀ (s : State) (e : Eng), s.dev.phase = .run →
    ((∀ b ∈ (s.eng e).sb, b.thread = true → b.old = false) →
      exec (.discardEnd e) s = .next (s.withEng e { s.eng e with
        discard := false, sb := (s.eng e).sb.map fun b => { b with old := false } })) ∧
    ((∃ b ∈ (s.eng e).sb, b.thread = true ∧ b.old = true) → exec (.discardEnd e) s = .next s)

/-- A fill that the mezzanine has answered puts the line into a free way of its set, clean and of no thread, and ends
the miss; in a set without a free way it displaces a line, here among clean ones; where the answer is poison nothing
is installed, and a waiting load raises ERR_POISON with its address, which waits while error interrupts are masked;
before the answer nothing happens (R102, R316, R318, R576). -/
def Sys2Proof.Claims.L1Fills : Prop :=
  ∀ (s : State) (e : Eng) (m : L1Miss), s.dev.phase = .run → (s.eng e).miss = some m →
    (∀ data, m.answer = some (some data) → (∃ w < 4, sfind (s.eng e).l1 (l1Key m.line w) = none) →
      ∃ y, exec (.l1FillComplete e) s = .next (s.withEng e y) ∧ y = { s.eng e with l1 := y.l1, miss := none } ∧
        (∃ w < 4, sfind (s.eng e).l1 (l1Key m.line w) = none ∧
          sfind y.l1 (l1Key m.line w) = some ⟨m.line, data, false, false, 0, false⟩) ∧
        ∀ k l, sfind (s.eng e).l1 k = some l → sfind y.l1 k = some l) ∧
    (∀ data, m.answer = some (some data) →
      (∀ w < 4, ∃ v, sfind (s.eng e).l1 (l1Key m.line w) = some v ∧ v.dirty = false) →
      ∃ y, exec (.l1FillComplete e) s = .next (s.withEng e y) ∧ y = { s.eng e with l1 := y.l1, miss := none } ∧
        ∃ w < 4, sfind y.l1 (l1Key m.line w) = some ⟨m.line, data, false, false, 0, false⟩) ∧
    (m.answer = some none → m.load = false →
      exec (.l1FillComplete e) s = .next (s.withEng e { s.eng e with miss := none })) ∧
    (m.answer = some none → m.load = true → (s.eng e).run = .running → (s.eng e).eie = false → (s.eng e).entry = none →
      exec (.l1FillComplete e) s = .next (s.withEng e { s.eng e with
        miss := none, pendErr := (s.eng e).pendErr ++ [⟨.errPoison, m.addr⟩] })) ∧
    (m.answer = some none → m.load = true → (s.eng e).run = .running → (s.eng e).eie = true → (s.eng e).entry = none →
      ∃ y, exec (.l1FillComplete e) s = .next (s.withEng e y) ∧ y.miss = none ∧ y.l1 = (s.eng e).l1 ∧
        y.s = (s.eng e).s ∧ y.entry = some ⟨(s.eng e).pc, [⟨.errPoison, m.addr⟩]⟩) ∧
    (m.answer = none → exec (.l1FillComplete e) s = .next s)

/-- A sector that arrives for the fill in progress becomes a valid clean sector of the line, and answers the L1 that
asked for it; a poisoned one only answers. The last one ends the fill (R321, R576). -/
def Sys2Proof.Claims.MezzanineFills : Prop :=
  ∀ (s : State) (t : Tile) (pa : Nat) (f : MezFill) (r : Option Line) (rest : List (Nat × Option Line)) (k : Nat)
    (l : MezLine), s.dev.phase = .run → s.dev.mez[t].fill = some f → s.dev.mez[t].answers = (pa, r) :: rest →
    f.line = pa / 256 * 256 → pa / 64 % 4 ∈ f.waitFor →
    let left := f.waitFor.filter (· != pa / 64 % 4)
    left ≠ [] ∨ s.dev.mez[t].queue = [] →
    mezFind s.dev.mez[t] pa = some (k, l) →
    ∃ u, exec (.mezzanineSectorArrival t pa) s = .next u ∧
      u.dev.mez[t] = { s.dev.mez[t] with
        answers := rest
        fill := if left = [] then none else some { f with waitFor := left }
        lines := match r with
          | some data => sput s.dev.mez[t].lines k { l with
              sec := l.sec.set (pa / 64 % 4) ⟨true, false, false, 0, data, false⟩ (by omega) }
          | none => s.dev.mez[t].lines } ∧
      (∀ t', t' ≠ t → u.dev.mez[t'] = s.dev.mez[t']) ∧
      (let e := engAt t f.eng
       u = { s with dev := { (s.withEng e { s.eng e with
         miss := if f.sector = pa / 64 % 4 then (s.eng e).miss.map fun m => { m with answer := some r }
           else (s.eng e).miss }).dev with mez := u.dev.mez } })

/-- Writes of the victim buffer start in the order in which their lines entered it; the home slices accept the one that
started, sector by sector, and the line leaves the buffer; a line whose write has not started stays (R324, R575). -/
def Sys2Proof.Claims.VictimWrites : Prop :=
  ∀ (s : State) (t : Tile) (v : Victim) (rest : List Victim), s.dev.phase = .run → s.dev.mez[t].vb = v :: rest →
    (v.started = false → exec (.victimWriteStart t) s = .next (s.withDev (updMez s.dev t fun m => { m with
      vb := { v with started := true } :: rest })) ∧ exec (.victimWriteAccept t) s = .next s) ∧
    (v.started = true → s.dev.mez[t].queue = [] → (∀ j : Fin 4, winHolds s.dev (v.line + 64 * j.val) = false) →
      exec (.victimWriteAccept t) s = .next (s.withDev (updMez
        (([0, 1, 2, 3] : List (Fin 4)).foldl (fun d j =>
          if v.sec[j].valid && v.sec[j].dirty then
            lineWrite d (v.line + 64 * j.val) v.sec[j].data (BitVec.allOnes 64) (partOf (s.eng (engAt t v.sec[j].writer)))
              true 2
          else d) s.dev) t fun m => { m with vb := rest })))

/-- A coherent read of a line gives what the last coherent write to it wrote in the enabled bytes and the line as it was
in the others, wherever the line was before: in a core, in the gallery, in a channel's queue or in memory (R335, R336,
R339, R393). A write that waits for its window page is seen once it is performed. -/
def Obligations.CoherentWriteThenRead : Prop :=
  ∀ (d : Device) (a : Nat) (data : Line) (en : BitVec 64) (p : Part) (alloc : Bool) (cls : Nat),
    a % 64 = 0 → inMain d a = true → (inDram d a = true → chanFailed d (chanOf d a) = false) → d.mirrors = [] →
    winHolds d a = false →
      (cohLine (lineWrite d a data en p alloc cls) a).1 = lineMerge (cohLine d a).1 data en

/-- A slice answers the request that no waiting victim of its line holds back: with the line it holds, which becomes
youngest and counts as a hit; where the error check corrects an error, the data are answered and GAL_ERR counts it; an
uncorrectable error takes the line out of the slice, counted, and the request goes to the line's channel, as one does
whose line the slice does not hold. A line that a core has modified is answered from the core (R336, R339, R341). Its
oldest dirty victim goes to the channel that holds its line, in the class of what displaced it, once the queue has
room (R340, R392, R393). -/
def Sys2Proof.Claims.GalleryRequests : Prop :=
  ∀ (s : State) (t : Tile), s.dev.phase = .run →
    (∀ (q : GalReq) (rest : List GalReq) (k : Nat) (x : GalLine), s.dev.gal[t].reqs = q :: rest →
      s.dev.gal[t].victims = [] → modified s.dev q.addr = none → galFind s.dev.gal[t] q.addr = some (k, x) →
      sget s.dev.galFlips x.line 0 = 0 →
      exec (.galleryRequest t .clean) s = .next (s.withDev { s.dev with
        galFlips := sdel s.dev.galFlips x.line
        gal := s.dev.gal.set t.val { s.dev.gal[t] with
          reqs := rest, hits := s.dev.gal[t].hits + 1, lines := sput s.dev.gal[t].lines k { x with age := 0 } }
        mez := s.dev.mez.set q.tile.val { s.dev.mez[q.tile] with
          answers := s.dev.mez[q.tile].answers ++ [(q.addr, if x.poison then none else some x.data)] } }) ∧
      (∀ o, o = .corrected ∨ o = .retryOk → ∃ u, exec (.galleryRequest t o) s = .next u ∧
        u.dev.gal[t].reqs = rest ∧ u.dev.gal[t].hits = s.dev.gal[t].hits + 1 ∧
        u.dev.mez[q.tile].answers = s.dev.mez[q.tile].answers ++ [(q.addr, if x.poison then none else some x.data)] ∧
        regF u.dev (GAL_ERR t.val) 0 1 = 1 ∧
        regF u.dev (GAL_ERR t.val) 16 16 = min (regF s.dev (GAL_ERR t.val) 16 16 + 1) 65535) ∧
      (inDram s.dev q.addr = true → (x.dirty = true → s.dev.mirrors = []) →
        ∃ u, exec (.galleryRequest t .bad) s = .next u ∧ u.dev.gal[t].reqs = rest ∧
        u.dev.gal[t].lines = sdel s.dev.gal[t].lines k ∧ u.dev.gal[t].misses = s.dev.gal[t].misses + 1 ∧
        u.dev.mez = s.dev.mez ∧ regF u.dev (GAL_ERR t.val) (if x.dirty then 2 else 1) 1 = 1 ∧
        regF u.dev (GAL_ERR t.val) 32 16 = min (regF s.dev (GAL_ERR t.val) 32 16 + 1) 65535 ∧
        u.dev.chans[chanOf s.dev q.addr].rdq =
          s.dev.chans[chanOf s.dev q.addr].rdq ++ [⟨t, q, s.dev.cycle, false⟩])) ∧
    (∀ (q : GalReq) (rest : List GalReq) (l : Line) (p : Bool), s.dev.gal[t].reqs = q :: rest →
      s.dev.gal[t].victims = [] → modified s.dev q.addr = some (l, p) → ∀ o, exec (.galleryRequest t o) s = .next
        (s.withDev { s.dev with
          gal := s.dev.gal.set t.val { s.dev.gal[t] with reqs := rest, hits := s.dev.gal[t].hits + 1 }
          mez := s.dev.mez.set q.tile.val { s.dev.mez[q.tile] with
            answers := s.dev.mez[q.tile].answers ++ [(q.addr, if p then none else some l)] } })) ∧
    (∀ (q : GalReq) (rest : List GalReq), s.dev.gal[t].reqs = q :: rest →
      s.dev.gal[t].victims = [] → modified s.dev q.addr = none → galFind s.dev.gal[t] q.addr = none →
      inDram s.dev q.addr = false → ∀ o, ∃ u, exec (.galleryRequest t o) s = .next u ∧ u.dev.gal[t].reqs = rest ∧
        u.dev.gal[t].misses = s.dev.gal[t].misses + 1 ∧
        u.dev.mez[q.tile].answers = s.dev.mez[q.tile].answers ++ [(q.addr,
          if (mediaLine s.dev q.addr).2 then none else some (mediaLine s.dev q.addr).1)]) ∧
    (∀ (q : GalReq) (rest : List GalReq), s.dev.gal[t].reqs = q :: rest →
      s.dev.gal[t].victims = [] → modified s.dev q.addr = none → galFind s.dev.gal[t] q.addr = none →
      inDram s.dev q.addr = true → ∀ o, exec (.galleryRequest t o) s = .next (s.withDev { s.dev with
        gal := s.dev.gal.set t.val { s.dev.gal[t] with reqs := rest, misses := s.dev.gal[t].misses + 1 }
        chans := s.dev.chans.set (chanOf s.dev q.addr).val { s.dev.chans[chanOf s.dev q.addr] with
          rdq := s.dev.chans[chanOf s.dev q.addr].rdq ++ [⟨t, q, s.dev.cycle, false⟩] } })) ∧
    (∀ (v : GalLine) (rest : List GalLine), s.dev.gal[t].victims = v :: rest → inDram s.dev v.line = true →
      s.dev.mirrors = [] → s.dev.chans[chanOf s.dev v.line].wrq.length < 64 →
      exec (.galleryVictimWriteback t) s = .next (s.withDev { s.dev with
        gal := s.dev.gal.set t.val { s.dev.gal[t] with victims := rest }
        chans := s.dev.chans.set (chanOf s.dev v.line).val { s.dev.chans[chanOf s.dev v.line] with
          wrq := s.dev.chans[chanOf s.dev v.line].wrq ++
            [⟨v.line, v.data, BitVec.allOnes 64, v.poison, v.cls, s.dev.cycle⟩] } })) ∧
    (∀ (v : GalLine) (rest : List GalLine), s.dev.gal[t].victims = v :: rest →
      (inDram s.dev v.line = false → ∃ u, exec (.galleryVictimWriteback t) s = .next u ∧ u.dev.gal[t].victims = rest) ∧
      (inDram s.dev v.line = true → 64 ≤ s.dev.chans[chanOf s.dev v.line].wrq.length →
        exec (.galleryVictimWriteback t) s = .next s))

/-! ### The engine's registers and error interrupts (R63 to R67, R71, R89) -/

/-- A write of ENG_CTL by the Warden sets HOLD and KWP to its bits 0 and 1, where it reaches the lower half, and changes
nothing else; one by another agent changes no register of the engine's but HDR_ERR and ENG_ERR, which record the refusal
(R89, R545). -/
def Sys2Proof.Claims.EngineControlWrite : Prop :=
  ∀ (s : State) (e : Eng) (w : RegAccess),
    (s.dev.TakesWrite (ENG_CTL e.val) w.agent → ∃ t, exec (.engCtlWrite e w) s = .next t ∧
      s.onlyRegs t [ENG_CTL e.val] ∧
      regF t.dev (ENG_CTL e.val) 0 1 = (if w.part = .high then regF s.dev (ENG_CTL e.val) 0 1 else w.value.toNat % 2) ∧
      regF t.dev (ENG_CTL e.val) 1 1 =
        (if w.part = .high then regF s.dev (ENG_CTL e.val) 1 1 else w.value.toNat / 2 % 2)) ∧
    (s.dev.phase = .run → deadBlk s.dev .eng e.val = false → w.agent ≠ .warden →
      ∃ t, exec (.engCtlWrite e w) s = .next t ∧ s.onlyRegs t [HDR_ERR .eng e.val, ENG_ERR e.val] ∧
        regF t.dev (HDR_ERR .eng e.val) 1 1 = 1 ∧ regF t.dev (ENG_ERR e.val) 3 1 = 1)

/-- ENG_CS_DATA reaches the code-store word that ENG_CS_ADDR.WORD names while the engine is held: the Warden's write
stores it, unless the kernel region is protected, with good parity, and its read returns it; INC moves WORD on after
either. A write of the upper half alone stores nothing and moves WORD (the model's choice, log entry 111). While the
engine is not held a write changes nothing and a read gives 0; a read by an agent other than the Warden moves nothing
(R66, R89). -/
def Sys2Proof.Claims.CodeStoreAccess : Prop :=
  ∀ (s : State) (e : Eng) (w : RegAccess),
    let k := regF s.dev (ENG_CS_ADDR e.val) 2 14
    let inc := regF s.dev (ENG_CS_ADDR e.val) 63 1
    let moved := fun t : State => regF t.dev (ENG_CS_ADDR e.val) 2 14 = (if inc = 1 then (k + 1) % 2 ^ 14 else k) ∧
      ∀ y, y ≠ ENG_CS_ADDR e.val → reg t.dev y = reg s.dev y
    (s.dev.TakesWrite (ENG_CS_DATA e.val) w.agent → w.part ≠ .high → (s.eng e).run = .held →
      (0x800 ≤ k ∨ regF s.dev (ENG_CTL e.val) 1 1 = 0) →
      ∃ t, exec (.engCsDataWrite e w) s = .next t ∧ moved t ∧
        t = s.withDev { (s.withEng e (t.eng e)).dev with regs := t.dev.regs } ∧
        (t.eng e) = { s.eng e with code := (t.eng e).code, codeBad := (t.eng e).codeBad, stale := (t.eng e).stale } ∧
        codeWord (t.eng e) k = BitVec.ofNat 32 w.value.toNat ∧ k ∉ (t.eng e).codeBad ∧
        ∀ j, j ≠ k → codeWord (t.eng e) j = codeWord (s.eng e) j) ∧
    (s.dev.TakesWrite (ENG_CS_DATA e.val) w.agent → w.part = .high → (s.eng e).run = .held →
      (0x800 ≤ k ∨ regF s.dev (ENG_CTL e.val) 1 1 = 0) →
      ∃ t, exec (.engCsDataWrite e w) s = .next t ∧ moved t ∧ t = s.withDev { s.dev with regs := t.dev.regs }) ∧
    (s.dev.TakesWrite (ENG_CS_DATA e.val) w.agent →
      ((s.eng e).run ≠ .held ∨ (k < 0x800 ∧ regF s.dev (ENG_CTL e.val) 1 1 = 1)) →
      exec (.engCsDataWrite e w) s = .next s) ∧
    (s.dev.TakesRead (ENG_CS_DATA e.val) .warden → (s.eng e).run = .held →
      ∃ t, exec (.engCsDataRead e .warden) s = .next t ∧ moved t ∧
        t = s.withDev { s.dev with regs := t.dev.regs, readBack := t.dev.readBack } ∧
        t.dev.readBack = (codeWord (s.eng e) k).setWidth 64) ∧
    ∀ ag, s.dev.TakesRead (ENG_CS_DATA e.val) ag → ag ≠ .warden ∨ (s.eng e).run ≠ .held →
      exec (.engCsDataRead e ag) s = .next (s.withDev { s.dev with
        readBack := if (s.eng e).run = .held then (codeWord (s.eng e) k).setWidth 64 else 0 })

/-- A reload gives a halted engine the kernel of the running image again and holds it, with HOLD clear so that a later
tick releases it; the rest of its code store and every other unit stay; an engine that is not halted, or whose reload
the Warden has not begun, is not reloaded (R67). -/
def Sys2Proof.Claims.KernelReload : Prop :=
  ∀ (s : State) (e : Eng), s.dev.phase = .run →
    ((s.eng e).run = .halted → (s.eng e).reload = true → keysRise s.dev.warden.image.kernel = true →
      ∃ t, exec (.engineKernelReload e) s = .next t ∧
      t = s.withDev { (s.withEng e (t.eng e)).dev with regs := t.dev.regs } ∧
      (t.eng e).run = .held ∧ (t.eng e).reload = false ∧ regF t.dev (ENG_CTL e.val) 0 1 = 0 ∧
      (t.eng e).s = (s.eng e).s ∧ (t.eng e).landing = (s.eng e).landing ∧
      (s.dev.warden.image.kernel = [] → ∀ n, codeWord (t.eng e) n =
        if n < 0x800 then Config.kernelWord n else codeWord (s.eng e) n) ∧
      (∀ n w, sfind s.dev.warden.image.kernel n = some w → codeWord (t.eng e) n = w)) ∧
    ((s.eng e).run ≠ .halted ∨ (s.eng e).reload = false → exec (.engineKernelReload e) s = .next s)

/-- A code-store word found with bad parity as an engine issues it raises an error interrupt with the word's address: it
opens a handler entry while error interrupts are enabled and waits while they are masked, and ENG_ERR records it; in the
kernel region it halts the engine. A split store that the entry finds between its halves has its first half written and
counts in SPLIT_REDO; without an entry nothing of it is written. An engine that does not run takes no error interrupt
(R65, R67, R71, R82). -/
def Sys2Proof.Claims.ErrorInterrupts : Prop :=
  ∀ (s : State) (e : Eng) (v : BitVec 64) (cut : Option SplitCut), s.dev.phase = .run →
    ((s.eng e).Issues → 0x2000 ≤ (s.eng e).pc.toNat → ((s.eng e).eie = true → ∀ c, cut = some c → c.e ≠ e) →
      ∃ t, exec (.errorInterruptRaise e .csParity ⟨v, cut⟩) s = .next t ∧
        t = s.withDev { (s.withEng e (t.eng e)).dev with regs := t.dev.regs } ∧
        (∀ y, y ≠ ENG_ERR e.val → reg t.dev y = reg s.dev y) ∧ regF t.dev (ENG_ERR e.val) 0 1 = 1 ∧
        (t.eng e).s = (s.eng e).s ∧ (t.eng e).v = (s.eng e).v ∧ (t.eng e).pc = (s.eng e).pc ∧
        (t.eng e).landing = (s.eng e).landing ∧
        ((s.eng e).eie = true → (t.eng e).entry = some ⟨(s.eng e).pc, [⟨.errCsParity, (s.eng e).pc.setWidth 64⟩]⟩) ∧
        ((s.eng e).eie = false → (t.eng e).entry = none ∧
          (t.eng e).pendErr = (s.eng e).pendErr ++ [⟨.errCsParity, (s.eng e).pc.setWidth 64⟩])) ∧
    ((s.eng e).Issues → (s.eng e).pc.toNat < 0x2000 →
      ∃ t, exec (.errorInterruptRaise e .csParity ⟨v, cut⟩) s = .next t ∧
        (t.eng e).run = (if (s.eng e).halts24 < 2 then .halted else .retired) ∧
        regF t.dev (ENG_ERR e.val) 1 1 = 1 ∧ t.dev.mem = s.dev.mem) ∧
    (∀ c : SplitCut, let a := (addrOf (s.eng e) c.f).toNat
      (s.eng e).Issues → 0x2000 ≤ (s.eng e).pc.toNat → (s.eng e).eie = true → c.e = e → c.size = 8 →
      sirtoLegal (.sd c.e c.f) = true →
      a % 8 ≠ 0 → a + 8 ≤ (if (s.eng e).mode = .thread then 0x3e000 else 0x40000) →
      ∃ t, exec (.errorInterruptRaise e .csParity ⟨v, some c⟩) s = .next t ∧
        (t.eng e).entry = some ⟨(s.eng e).pc, [⟨.errCsParity, (s.eng e).pc.setWidth 64⟩]⟩ ∧
        Memory.Stored (s.eng e).landing (t.eng e).landing a (8 - a % 8) (getS (s.eng e) c.f.rt).toNat ∧
        regF t.dev (ENG_EVT_CNT e.val) 0 32 = (regF s.dev (ENG_EVT_CNT e.val) 0 32 + 1) % 2 ^ 32) ∧
    ((s.eng e).run ≠ .running → ∀ k, exec (.errorInterruptRaise e k ⟨v, cut⟩) s = .next s)

/-- An L1 line or a mezzanine sector with a parity error is invalidated and counted; one that was clean does no more,
and a dirty one raises an error interrupt, with its address, at the engine that wrote it. The poisoned fill of a
waiting load raises ERR_POISON with the load's address. Where error interrupts are enabled each opens a handler entry
at pc (R71, R332, R576). -/
def Sys2Proof.Claims.CacheErrorInterrupts : Prop :=
  ∀ (s : State) (e : Eng) (v : BitVec 64) (cut : Option SplitCut), s.dev.phase = .run → (s.eng e).run = .running →
    let opens := fun (t : State) (w : Eng) c (a : Dword) => (s.eng w).run = .running → (s.eng w).eie = true →
      (s.eng w).entry = none → (t.eng w).entry = some ⟨(s.eng w).pc, [⟨c, a⟩]⟩
    let r := MEZ_L1ERR (e.val / 4) (e.val % 4)
    let m := MEZ_ERR (tileOf e).val
    (l1Find (s.eng e) (lineOf v.toNat) = none → exec (.errorInterruptRaise e .l1Parity ⟨v, cut⟩) s = .next s) ∧
    (∀ n l, l1Find (s.eng e) (lineOf v.toNat) = some (n, l) →
      ∃ t, exec (.errorInterruptRaise e .l1Parity ⟨v, cut⟩) s = .next t ∧ (t.eng e).l1 = sdel (s.eng e).l1 n ∧
        t.dev.mem = s.dev.mem ∧ (∀ w, w ≠ e → t.eng w = s.eng w) ∧ (t.eng e).s = (s.eng e).s ∧
        (l.dirty = false → (t.eng e).entry = (s.eng e).entry ∧ regF t.dev r 0 1 = 1 ∧
          regF t.dev r 16 16 = min (regF s.dev r 16 16 + 1) 65535) ∧
        (l.dirty = true → opens t e .errL1Parity (BitVec.ofNat 64 l.tag) ∧ regF t.dev r 1 1 = 1 ∧
          regF t.dev r 32 16 = min (regF s.dev r 32 16 + 1) 65535)) ∧
    (mezFind s.dev.mez[tileOf e] v.toNat = none → exec (.errorInterruptRaise e .mezParity ⟨v, cut⟩) s = .next s) ∧
    (∀ n l, let j := mezSec v.toNat
      mezFind s.dev.mez[tileOf e] v.toNat = some (n, l) → l.sec[j].valid = true →
      ∃ t, exec (.errorInterruptRaise e .mezParity ⟨v, cut⟩) s = .next t ∧ t.dev.mem = s.dev.mem ∧
        t.dev.mez[tileOf e].lines = sput s.dev.mez[tileOf e].lines n { l with sec := l.sec.set j.val noSector } ∧
        (l.sec[j].dirty = false → t.dev.engines = s.dev.engines ∧ regF t.dev m 0 1 = 1 ∧
          regF t.dev m 16 16 = min (regF s.dev m 16 16 + 1) 65535) ∧
        (l.sec[j].dirty = true → regF t.dev m 1 1 = 1 ∧ regF t.dev m 32 16 = min (regF s.dev m 32 16 + 1) 65535 ∧
          opens t (engAt (tileOf e) l.sec[j].writer) .errMezParity (BitVec.ofNat 64 (l.tag + 64 * j.val)))) ∧
    ((∀ q, (s.eng e).miss = some q → q.answer ≠ some none) →
      exec (.errorInterruptRaise e .poison ⟨v, cut⟩) s = .next s) ∧
    (∀ q, (s.eng e).miss = some q → q.answer = some none → q.load = true →
      ∃ t, exec (.errorInterruptRaise e .poison ⟨v, cut⟩) s = .next t ∧ (t.eng e).miss = none ∧
        opens t e .errPoison q.addr ∧ t.dev.mem = s.dev.mem ∧
        ∀ w, w ≠ e → t.eng w = s.eng w)

/-! ### The beat (R25 to R29, R39 to R52, R71, R89, R91, R240) -/

/-- A tick counts the beat, ends STOPPED, and reaches every engine: one that runs, and that neither HOLD nor its
errors take out of service, and whose mezzanine holds no sector with bad parity, opens a handler entry at its pc with
TICK and the error interrupts that waited, its registers as they were, and its landing outside the kernel area but for
a store that the tick cuts; one that HOLD no longer holds starts with the registers of R91 and a TICK entry; a queue
that polls is due. Main memory stays where no MSI came due while its partition was frozen (R48, R69 to R72, R82, R89,
R91, R263). -/
def Obligations.BeatTick : Prop :=
  ∀ (s : State) (sel : TickChoice), s.dev.phase = .run → ∃ t, exec (.beatTick sel) s = .next t ∧
    t.pending = s.pending ∧
    ((∀ q ∈ s.dev.queues, q.2.msiDue = false) → t.dev.mem = s.dev.mem ∧ t.dev.poison = s.dev.poison) ∧
    beatNow t.dev = (beatNow s.dev + 1) % 2 ^ 64 ∧ regF t.dev BEAT_STAT 4 1 = 0 ∧
    t.dev.beat.lastTick = s.dev.beat.lastTick + s.dev.beat.length ∧
    (∀ e : Eng, (s.eng e).run = .running → (s.eng e).entry = none → (s.eng e).dirty24 < 3 →
      regF s.dev (ENG_CTL e.val) 0 1 = 0 → s.dev.ras.fatal = false →
      (∀ l ∈ s.dev.mez[tileOf e].lines, ∀ j : Fin 4, l.2.sec[j].bad = false) →
      (t.eng e).run = .running ∧ (t.eng e).s = (s.eng e).s ∧ (t.eng e).v = (s.eng e).v ∧ (t.eng e).vm = (s.eng e).vm ∧
      (t.eng e).p = (s.eng e).p ∧ (t.eng e).a = (s.eng e).a ∧
      ((∀ c ∈ sel.cuts, c.e ≠ e) → ∀ a < 0x3e000, mget (t.eng e).landing a = mget (s.eng e).landing a) ∧
      (t.eng e).pc = (s.eng e).pc ∧ (t.eng e).pendErr = [] ∧ (t.eng e).latch = none ∧
      (t.eng e).entry = some ⟨(s.eng e).pc, ⟨.tick, 0⟩ :: (s.eng e).pendErr⟩) ∧
    (∀ e : Eng, (s.eng e).run = .held → regF s.dev (ENG_CTL e.val) 0 1 = 0 → s.dev.ras.fatal = false →
      (∀ l ∈ s.dev.mez[tileOf e].lines, ∀ j : Fin 4, l.2.sec[j].bad = false) →
      (t.eng e).run = .running ∧ (t.eng e).mode = .kernel ∧ (t.eng e).pc = 0 ∧ (t.eng e).eie = false ∧
      (∀ n, getS (t.eng e) n = 0) ∧ (∀ n, getVm (t.eng e) n = 0xffff) ∧ (t.eng e).entry = some ⟨0, [⟨.tick, 0⟩]⟩) ∧
    (∀ k q, sfind s.dev.queues k = some q → q.poll = true → q.enabled = true →
      ∃ q', sfind t.dev.queues k = some q' ∧ q'.due = true)

/-- An accepted write of BEAT_PERIOD.PERIOD_K in 10 to 400 is kept and takes effect two beats on, in place of a change
for the same beat; another value, LOCK, or a write that does not reach the field leaves the register as it was. Writes
of BEAT_PHASE and BEAT_CTL change their fields, LOCK keeping OFFSET and SRC; a change of the period, of the phase or
of SRC to 1 sends a generator that follows BEAT_IN back to ACQUIRING, and SRC = 0 to the internal source (R7, R10,
R27, R46). -/
def Sys2Proof.Claims.BeatRegisterWrites : Prop :=
  ∀ (s : State) (w : RegAccess),
    let k := w.value.toNat % 2 ^ 9
    let src := regF s.dev BEAT_CTL 0 1
    let lock := regF s.dev BEAT_CTL 63 1
    let low := decide (w.part ≠ .high)
    (s.dev.TakesWrite BEAT_PERIOD w.agent → low = true → lock = 0 → 10 ≤ k → k ≤ 400 →
      ∃ t, exec (.beatPeriodWrite w) s = .next t ∧
        t = s.withDev { s.dev with regs := t.dev.regs, beat := t.dev.beat } ∧
        (∀ y, y ≠ BEAT_PERIOD → y ≠ BEAT_STAT → reg t.dev y = reg s.dev y) ∧
        regF t.dev BEAT_PERIOD 0 9 = k ∧ regF t.dev BEAT_PERIOD 16 9 = regF s.dev BEAT_PERIOD 16 9 ∧
        regF t.dev BEAT_PERIOD 32 32 = (beatNow s.dev + 2) % 2 ^ 32 ∧
        t.dev.beat.changes = (s.dev.beat.changes.filter fun c => c.1 != beatNow s.dev + 2) ++ [(beatNow s.dev + 2, k)] ∧
        regF t.dev BEAT_STAT 0 2 = (if src = 1 then 1 else regF s.dev BEAT_STAT 0 2)) ∧
    (s.dev.TakesWrite BEAT_PERIOD w.agent → (low = false ∨ lock = 1 ∨ k < 10 ∨ 400 < k) →
      exec (.beatPeriodWrite w) s = .next s) ∧
    (s.dev.TakesWrite BEAT_PHASE w.agent → (low = false ∨ lock = 1) → exec (.beatPhaseWrite w) s = .next s) ∧
    (s.dev.TakesWrite BEAT_PHASE w.agent → low = true → lock = 0 →
      ∃ t, exec (.beatPhaseWrite w) s = .next t ∧
        t = s.withDev { s.dev with regs := t.dev.regs, beat := t.dev.beat } ∧
        (∀ y, y ≠ BEAT_PHASE → y ≠ BEAT_STAT → reg t.dev y = reg s.dev y) ∧
        regF t.dev BEAT_PHASE 0 16 = w.value.toNat % 2 ^ 16 ∧
        regF t.dev BEAT_STAT 0 2 = (if src = 1 then 1 else regF s.dev BEAT_STAT 0 2)) ∧
    (s.dev.TakesWrite BEAT_CTL w.agent →
      ∃ t, exec (.beatCtlWrite w) s = .next t ∧
        t = s.withDev { s.dev with regs := t.dev.regs, beat := t.dev.beat } ∧
        (∀ y, y ≠ BEAT_CTL → y ≠ BEAT_STAT → reg t.dev y = reg s.dev y) ∧
        regF t.dev BEAT_CTL 0 1 = (if low && decide (lock = 0) then w.value.toNat % 2 else src) ∧
        regF t.dev BEAT_CTL 1 1 = (if low then w.value.toNat / 2 % 2 else regF s.dev BEAT_CTL 1 1) ∧
        regF t.dev BEAT_CTL 2 4 = (if low then w.value.toNat / 4 % 16 else regF s.dev BEAT_CTL 2 4) ∧
        regF t.dev BEAT_CTL 63 1 = (if lock = 1 then 1 else match w.part with
          | .whole => w.value.toNat / 2 ^ 63
          | .low => 0
          | .high => w.value.toNat / 2 ^ 31 % 2) ∧
        (regF t.dev BEAT_CTL 0 1 = src → t.dev.beat = s.dev.beat ∧
            regF t.dev BEAT_STAT 0 2 = regF s.dev BEAT_STAT 0 2) ∧
        (regF t.dev BEAT_CTL 0 1 ≠ src → t.dev.beat.lastEdge = none ∧ t.dev.beat.good = 0 ∧
          regF t.dev BEAT_STAT 0 2 = if src = 1 then 0 else 1))

/-- An edge of BEAT_IN is ignored, and counted as ignored, when it comes within half a period of the last accepted one;
another is accepted and counted, with its phase error; eight periods without one bring FREERUN, and none before; with an
internal source neither has an effect (R46). -/
def Sys2Proof.Claims.ExternalLock : Prop :=
  ∀ (s : State) (tm : Nat), s.dev.phase = .run →
    let p := 1000 * regF s.dev BEAT_PERIOD 16 9
    let d := { s.dev with cycle := max s.dev.cycle tm }
    (regF s.dev BEAT_CTL 0 1 = 0 → exec (.beatInEdge tm) s = .next (s.withDev d) ∧
      exec (.beatInFreerun tm) s = .next (s.withDev d)) ∧
    (∀ t0, regF s.dev BEAT_CTL 0 1 = 1 → s.dev.beat.lastEdge = some t0 → 2 * (tm - t0) < p →
      ∃ t, exec (.beatInEdge tm) s = .next t ∧ (s.withDev d).onlyRegs t [BEAT_IN_CNT] ∧
        regF t.dev BEAT_IN_CNT 32 32 = (regF s.dev BEAT_IN_CNT 32 32 + 1) % 2 ^ 32 ∧
        regF t.dev BEAT_IN_CNT 0 32 = regF s.dev BEAT_IN_CNT 0 32) ∧
    (regF s.dev BEAT_CTL 0 1 = 1 → (∀ t0, s.dev.beat.lastEdge = some t0 → p ≤ 2 * (tm - t0)) →
      ∃ t, exec (.beatInEdge tm) s = .next t ∧
        t = s.withDev { d with regs := t.dev.regs, beat := t.dev.beat } ∧ t.dev.beat.lastEdge = some tm ∧
        (∀ y, y ∉ [BEAT_IN_CNT, BEAT_PHASE, BEAT_STAT] → reg t.dev y = reg s.dev y) ∧
        regF t.dev BEAT_IN_CNT 0 32 = (regF s.dev BEAT_IN_CNT 0 32 + 1) % 2 ^ 32 ∧
        (regF s.dev BEAT_STAT 0 2 = 3 → regF t.dev BEAT_STAT 0 2 = 1)) ∧
    (regF s.dev BEAT_CTL 0 1 = 1 → (∀ t0, s.dev.beat.lastEdge = some t0 → t0 + 8 * p ≤ tm) →
      regF s.dev BEAT_STAT 0 2 ≠ 3 →
      ∃ t, exec (.beatInFreerun tm) s = .next t ∧
        t = s.withDev { d with regs := t.dev.regs, beat := t.dev.beat } ∧
        (∀ y, y ≠ BEAT_STAT → reg t.dev y = reg s.dev y) ∧ regF t.dev BEAT_STAT 0 2 = 3 ∧
        regF t.dev BEAT_STAT 2 1 = 1 ∧ t.dev.beat.toCorrect = 0 ∧
            t.dev.beat.length = max p (tm - s.dev.beat.lastTick)) ∧
    (regF s.dev BEAT_STAT 0 2 = 3 ∨ (∃ t0, s.dev.beat.lastEdge = some t0 ∧ tm < t0 + 8 * p) →
      exec (.beatInFreerun tm) s = .next (s.withDev d))

/-! ### Streams (R84 to R88, R109, R110, R163 to R180) -/

/-- SOPEN of a KIND SEGMENT descriptor whose buffer may be written gives the lowest free streamer (log entry 5) a copy
of the descriptor, in state OPENING and with nothing delivered, and its number in rd, and goes on; KIND SIEVE also
gives it a new job where the engine has none; with no free streamer it waits; a descriptor that is not in landing or
is misaligned, and a buffer no stream may write, fault (R88, R109, R164 to R166). -/
def Sys2Proof.Claims.StreamOpen : Prop :=
  ∀ (s : State) (e : Eng) (f : CForm), (s.eng e).Executes (.sopen e f) →
    let x := s.engAt e (.sopen e f)
    let a := (getS x f.rs1).toNat
    let kernel := x.mode == .kernel
    let desc := BitVec.ofNat 512 (mread x.landing a 64)
    let byte0 := (mget x.landing a).toNat
    let buf := mread x.landing (a + 0x20) 8
    let size := mread x.landing (a + 0x28) 4 + (if byte0 / 4 % 2 = 1 then 128 else 0)
    let limit := if kernel then 0x40000 else 0x3e000
    (a + 64 ≤ limit → a % 64 = 0 → byte0 % 4 ≠ 1 → size = 0 ∨ buf + size ≤ 0x3e000 →
      ∀ k : StreamNo, x.streams[k].st = .free → (∀ j : StreamNo, j < k → x.streams[j].st ≠ .free) →
      exec (.sopen e f) s = .next (s.withEng e ({ x with
        streams := x.streams.set k.val { freeStreamer with
          st := .opening, kernel := kernel, descAt := a, desc := desc
          consumed := BitVec.ofNat 32 (mread x.landing (a + 0x2c) 4) } }.wrote f.rd (BitVec.ofNat 64 k.val)))) ∧
    (a + 64 ≤ limit → a % 64 = 0 → byte0 % 4 = 1 → size = 0 ∨ buf + size ≤ 0x3e000 → x.jobs = [] →
      ∀ k : StreamNo, x.streams[k].st = .free → (∀ j : StreamNo, j < k → x.streams[j].st ≠ .free) →
      ∃ b : SieveJob, exec (.sopen e f) s = .next (s.withEng e ({ x with
        jobs := [b]
        streams := x.streams.set k.val { freeStreamer with
          st := .opening, kernel := kernel, descAt := a, desc := desc, job := some k
          consumed := BitVec.ofNat 32 (mread x.landing (a + 0x2c) 4) } }.wrote f.rd (BitVec.ofNat 64 k.val))) ∧
        b.owner = k ∧ b.addr = mread x.landing (a + 0x30) 8 ∧ b.desc = none ∧ b.att = [k] ∧ b.failed = none ∧
        b.was = BitVec.ofNat 2048 (mread x.landing b.addr 256)) ∧
    (a + 64 ≤ limit → a % 64 = 0 → (∀ k : StreamNo, x.streams[k].st ≠ .free) →
      exec (.sopen e f) s = .next (s.withEng e x)) ∧
    (0x40000 < a + 64 → exec (.sopen e f) s = .next (s.withEng e { x with fault := some ⟨.accSpace, getS x f.rs1⟩ })) ∧
    (a + 64 ≤ 0x40000 → kernel = false → 0x3e000 < a + 64 →
      exec (.sopen e f) s = .next (s.withEng e { x with fault := some ⟨.accKernel, getS x f.rs1⟩ })) ∧
    (a + 64 ≤ limit → a % 64 ≠ 0 →
      exec (.sopen e f) s = .next (s.withEng e { x with fault := some ⟨.align, getS x f.rs1⟩ })) ∧
    (a + 64 ≤ limit → a % 64 = 0 → (∃ k : StreamNo, x.streams[k].st = .free) → kernel = false → buf < 0x3e000 →
      0x3e000 < buf + size → exec (.sopen e f) s = .next (s.withEng e { x with fault := some ⟨.accKernel, 0x3e000⟩ }))

/-- SWAIT returns the bytes delivered modulo 2^32 with the status in bits [47:32] and END in bit 63: at once of a stream
that is free, ended or failed, of a running one once it has delivered rs2 bytes, and it waits until then; SCLOSE of a
stream with no job frees the streamer and goes on; a stream number above 3 gives ILLEGAL_OPERAND. Nothing else changes
(R109, R110, R180). -/
def Sys2Proof.Claims.StreamWaitAndClose : Prop :=
  ∀ (s : State) (e : Eng) (f : CForm),
    ((s.eng e).Executes (.swait e f) → let x := s.engAt e (.swait e f)
      let want := (getS x f.rs2).toNat
      (∀ k : StreamNo, (getS x f.rs1).toNat = k.val → let y := x.streams[k]
        let gives := fun n => exec (.swait e f) s = .next (s.withEng e (x.wrote f.rd (BitVec.ofNat 64 n)))
        (y.st = .free → gives (2 * 2 ^ 32 + 2 ^ 63)) ∧
        (y.st = .ended ∨ y.st = .failed → gives (y.filled % 2 ^ 32 + y.status.toNat * 2 ^ 32 + 2 ^ 63)) ∧
        (y.st = .running ∨ y.st = .blocked → want ≤ y.filled → gives (y.filled % 2 ^ 32)) ∧
        (y.st = .opening ∨ ((y.st = .running ∨ y.st = .blocked) ∧ y.filled < want) →
          exec (.swait e f) s = .next (s.withEng e x))) ∧
      (4 ≤ (getS x f.rs1).toNat → exec (.swait e f) s = .next (s.withEng e { x with
        fault := some ⟨.illegalOperand, (wordOf (.swait e f)).setWidth 64⟩ }))) ∧
    ((s.eng e).Executes (.sclose e f) → let x := s.engAt e (.sclose e f)
      (∀ k : StreamNo, (getS x f.rs1).toNat = k.val →
        (x.streams[k].job = none → exec (.sclose e f) s = .next (s.withEng e { x with
          streams := x.streams.set k.val freeStreamer, pc := x.pc + 4 })) ∧
        (∀ o j, x.streams[k].job = some o → jobOf x o = some j → j.att = [k] →
          ∃ t, exec (.sclose e f) s = .next t ∧
            t = s.withDev { (s.withEng e { x with
              streams := x.streams.set k.val freeStreamer, jobs := x.jobs.filter fun c => c.owner != o
              pc := x.pc + 4 }).dev with sieves := t.dev.sieves } ∧
            ∀ c : Chan, ∀ b ∈ t.dev.sieves[c].active ++ t.dev.sieves[c].waiting ++ t.dev.sieves[c].sent,
              b.eng ≠ e ∨ b.owner ≠ o)) ∧
      (4 ≤ (getS x f.rs1).toNat → exec (.sclose e f) s = .next (s.withEng e { x with
        fault := some ⟨.illegalOperand, (wordOf (.sclose e f)).setWidth 64⟩ })))

/-- When the header of a segment stream has been read: a descriptor with reserved values fails with status 3, a handle
that names no segment of the partition with 2, both keeping what was delivered; where every check passes, a segment of
raw cells starts at its first row, or ends at once with no rows. Only the streamer changes, and what reading the
header and using the segment change. A sieve stream whose descriptor, job descriptor and place in its job pass their
checks keeps the header; one that names its job and fails them fails with status 3, and one whose job has failed with
the job's (R161, R167, R168, R172, R185, R190). -/
def Sys2Proof.Claims.StreamHeaders : Prop :=
  ∀ (s : State) (e : Eng) (k : StreamNo), s.dev.phase = .run →
    let x := (s.eng e).streams[k]
    let stream := fun (d : Device) (y : Streamer) => s.withDev (updEng d e fun z => { z with
      streams := z.streams.set k.val y })
    let failed := fun n => { x with
      st := .failed, status := BitVec.ofNat 16 n, asked := [], stage := [], acc := 0, accLen := 0 }
    (x.st ≠ .opening → exec (.streamHeaderArrival e k) s = .next s) ∧
    (∀ o j, x.st = .opening → x.hdr = none → isSieve x = true → x.job = some o → jobOf (s.eng e) o = some j →
      (∀ n, j.failed = some n → exec (.streamHeaderArrival e k) s = .next (stream s.dev (failed n.toNat))) ∧
      (∀ v, j.failed = none → j.desc = some v →
        let wrong := descWrong x || bufferWrong x || !jobAreaOk x.kernel j.addr || jobWrong v ||
          attachWrong (s.eng e) k j v
        (k = o → wrong = true → k ∈ j.att → ∃ t, exec (.streamHeaderArrival e k) s = .next t ∧
          (t.eng e).streams[k].st = .failed ∧ (t.eng e).streams[k].status = 3 ∧ t.dev.mem = s.dev.mem) ∧
        (wrong = false → ∀ d g h, openChecks { s.dev with waits := false } e j.att (jobF v 8 8) (jobFormat v) (jobWidth v)
            (hintOf x) = (some (.inr (g, h)), d) → d.waits = false → codeWrong x (hdrFormat h) (hdrWidth h) = false →
          lengthWrong x (jobF v 0x18 5) (if lineRead x.desc 3 1 = 0 then 1 else jobWidth v) = false →
          ∃ t, exec (.streamHeaderArrival e k) s = .next t ∧ (t.eng e).streams[k].hdr = some h ∧
            t.dev.mem = d.mem))) ∧
    (x.st = .opening → x.hdr = none → isSieve x = false →
      (descWrong x = true → exec (.streamHeaderArrival e k) s = .next (stream s.dev (failed 3))) ∧
      (descWrong x = false → bufferWrong x = false →
        (segOf s.dev (partOf (s.eng e)).val (lineRead x.desc 8 8) = none →
          exec (.streamHeaderArrival e k) s = .next (stream s.dev (failed 2))) ∧
        (∀ d g h, openChecks { s.dev with waits := false } e [k] (lineRead x.desc 8 8) (lineRead x.desc 1 1)
            (lineRead x.desc 2 1) (hintOf x) = (some (.inr (g, h)), d) → d.waits = false →
                codeWrong x (hdrFormat h) (hdrWidth h) = false →
          lengthWrong x (lineRead x.desc 0x18 5) (hdrWidth h) = false → hdrFormat h ≠ 4 → isRing x = false →
          ∃ y, exec (.streamHeaderArrival e k) s = .next (stream { d with waits := s.dev.waits } y) ∧
            (let first := lineRead x.desc 0x10 5
             let count := lineRead x.desc 0x18 5
             let rows := if hdrRows h < first + count then hdrRows h - first else count
             y.hdr = some h ∧ y.filled = x.filled ∧ y.bitsLeft = rows * hdrWidth h ∧
             (rows ≠ 0 → y.st = .running ∧ y.bitPos = 512 + first * hdrWidth h) ∧
             (rows = 0 → y.st = .ended ∧
               y.status = if count ≠ 0 then 9 else 0)))))

/-- A line that a stream asked for, once its read is served, reaches its staging store and is asked for no more; what
has been delivered stays; a read that must wait leaves all as it is. A stream without RLE writes its next unit, up to
64 bytes of the segment's bits, at its buffer and moves on, when its turn has come: every other byte of landing stays;
with its last unit it ends (R86, R170, R174, R176). -/
def Sys2Proof.Claims.StreamDelivery : Prop :=
  ∀ (s : State) (e : Eng) (k : StreamNo), s.dev.phase = .run →
    let x := (s.eng e).streams[k]
    (∀ line g, line ∈ x.asked → x.asked.Nodup → openSeg s.dev e x.handle = some g → x.rle = none →
      (∀ n ∈ x.asked, n < x.nextLine) →
      let r := streamLine { s.dev with waits := false } (tileOf e) (segPhys g (256 * line)) (hintOf x) (partOf (s.eng e))
      (r = none → exec (.streamLineArrival e k line) s = .next s) ∧
      ∀ l d, r = some (l, d) → d.waits = false → ∃ t, exec (.streamLineArrival e k line) s = .next t ∧
        (let y := (t.eng e).streams[k]
         sfind y.stage line = some l ∧ line ∉ y.asked ∧ y.filled = x.filled ∧ y.bitPos = x.bitPos ∧
         y.bitsLeft = x.bitsLeft) ∧
        ∃ y, t = s.withDev (updEng { d with waits := s.dev.waits } e fun z => { z with
          streams := z.streams.set k.val y })) ∧
    (∀ line, line ∉ x.asked → exec (.streamLineArrival e k line) s = .next s) ∧
    (∀ v, grantee (s.eng e) = some k → x.rle = none → isSieve x = false → isRing x = false → x.job = none →
      x.st = .running → bufAddr x < 0x40000 → 512 < x.bitsLeft →
      stagedBits x x.bitPos 512 = some (some v) →
      ∃ t m y, exec (.streamUnitWrite e k) s = .next t ∧
        t = s.withEng e { s.eng e with
          grant := k + 1, landing := m, streams := (s.eng e).streams.set k.val y } ∧
        Memory.Stored (s.eng e).landing m (bufAddr x + x.filled) 64 v ∧
        y.filled = x.filled + 64 ∧ y.bitPos = x.bitPos + 512 ∧ y.bitsLeft = x.bitsLeft - 512 ∧ y.desc = x.desc ∧
        y.st = .running) ∧
    (∀ v, grantee (s.eng e) = some k → x.rle = none → isSieve x = false → x.job = none → x.st = .running →
      0 < x.bitsLeft → x.bitsLeft ≤ 512 → x.accLen = 0 → stagedBits x x.bitPos x.bitsLeft = some (some v) →
      ∃ t y, exec (.streamUnitWrite e k) s = .next t ∧ (t.eng e).streams[k] = y ∧ y.st = .ended ∧ y.bitsLeft = 0 ∧
        y.filled = x.filled + (x.bitsLeft + 7) / 8 ∧ t.dev.mem = s.dev.mem ∧
        ∀ j, j ≠ k → (t.eng e).streams[j] = (s.eng e).streams[j]) ∧
    (grantee (s.eng e) ≠ some k → exec (.streamUnitWrite e k) s = .next s)

/-- A poll of a ring stream of a segment reads CONSUMED from its descriptor in landing: a value that leaves more than
the buffer filled fails the stream with status 3; otherwise it runs when the ring has space for a unit, and is BLOCKED
when it has not. Only the streamer changes (R176, R177). -/
def Sys2Proof.Claims.StreamPolls : Prop :=
  ∀ (s : State) (e : Eng) (k : StreamNo), s.dev.phase = .run →
    let x := (s.eng e).streams[k]
    let c := mread (s.eng e).landing (x.descAt + 0x2c) 4
    let used := (x.filled + 2 ^ 32 - c) % 2 ^ 32
    (x.st = .running ∨ x.st = .blocked → isRing x = true → x.job = none → x.rle = none →
      ∃ y, exec (.streamConsumedPoll e k) s = .next (s.withEng e { s.eng e with
          streams := (s.eng e).streams.set k.val y }) ∧
        y.consumed = BitVec.ofNat 32 c ∧ y.filled = x.filled ∧ y.desc = x.desc ∧
        (bufBytes x < used → y.st = .failed ∧ y.status = 3) ∧
        (used ≤ bufBytes x → used + 64 < 2 ^ 32 → (used + 64 ≤ bufBytes x → y.st = .running) ∧
          (bufBytes x < used + 64 → y.st = .blocked))) ∧
    (isRing x = false → x.job = none → exec (.streamConsumedPoll e k) s = .next s)

/-! ### The sieve (R183 to R203) -/

/-- A job is copied from landing by the streamer that names it, each of its 16-byte units as it stood at SOPEN or as
it stands at the copy, joins its channel's sieve when it arrives, in a free place of the 64 or behind those that wait,
and is marked old when its time has passed; each changes nothing else (R189, R197). -/
def Sys2Proof.Claims.SieveJobs : Prop :=
  ∀ (s : State) (c : Chan) (e : Eng) (k : StreamNo), s.dev.phase = .run →
    (∀ j, (s.eng e).jobs = [j] → j.owner = k → j.desc = none → j.failed = none → j.addr % 64 = 0 →
      j.addr + 256 ≤ 0x3e000 →
      ∀ late : BitVec 16, ∃ v : BitVec 2048,
        exec (.sieveJobCopy e ⟨k, late⟩) s = .next (s.withEng e { s.eng e with jobs := [{ j with desc := some v }] }) ∧
        ∀ i < 16, v.toNat / 2 ^ (128 * i) % 2 ^ 128 =
          if late.getLsbD i then mread (s.eng e).landing (j.addr + 16 * i) 16
          else j.was.toNat / 2 ^ (128 * i) % 2 ^ 128) ∧
    (∀ j rest, s.dev.sieves[c].sent = j :: rest → j.eng = e → j.owner = k →
      (s.dev.sieves[c].waiting = [] → s.dev.sieves[c].active.length < 64 →
        exec (.sieveJobArrival c e k) s = .next (s.withDev { s.dev with
          sieves := s.dev.sieves.set c.val { s.dev.sieves[c] with
            active := s.dev.sieves[c].active ++ [j], sent := rest } })) ∧
      (64 ≤ s.dev.sieves[c].active.length →
        exec (.sieveJobArrival c e k) s = .next (s.withDev { s.dev with
          sieves := s.dev.sieves.set c.val { s.dev.sieves[c] with
            waiting := s.dev.sieves[c].waiting ++ [j], sent := rest } }))) ∧
    let old := fun (j : ChanJob) => if j.eng = e ∧ j.owner = k then { j with old := true } else j
    exec (.sieveJobAged c e k) s = .next (s.withDev { s.dev with
      sieves := s.dev.sieves.set c.val { s.dev.sieves[c] with
        active := s.dev.sieves[c].active.map old, waiting := s.dev.sieves[c].waiting.map old } })

/-- A turn of a channel's sieve first notices which jobs their streamers hold up, and counts the cycles that one was
held up since it last looked (R198, R204). With no job to go on with it does nothing else. Otherwise it reads one
64-byte line of the job whose turn it is, or of the first job not held up, in service class 2, and counts 64 bytes:
before the last line of the piece the turn goes on, and with the last the piece is a result that waits for the
streamer and the job goes to the back of the round (R192, R193, R197 to R199). A poisoned line ends its piece there,
with SIEVE_ERR; a parity error of the job's state is counted, and the piece begins again with its first line (R202,
R203). A line that its channel does not serve now, in a quiet window or behind other requests, is read at a later
turn. -/
def Sys2Proof.Claims.SieveTurns : Prop :=
  ∀ (s : State) (c : Chan) (o : EccOutcome), s.dev.phase = .run →
    let sv := s.dev.sieves[c]
    let st := fun (j : ChanJob) => { j with stalled := !j.pieces.isEmpty && jobStalls s.dev j }
    let d := noticeStalls s.dev c
    (d = { s.dev with regs := d.regs, sieves := d.sieves } ∧ d.sieves[c].active = sv.active.map st ∧
      d.sieves[c].since = s.dev.cycle ∧ (∀ y, y ≠ SIEVE_STALL c.val → reg d y = reg s.dev y) ∧
      regF d (SIEVE_STALL c.val) 0 64 = (regF s.dev (SIEVE_STALL c.val) 0 64 +
        if sv.active.any (·.stalled) then s.dev.cycle - sv.since else 0) % 2 ^ 64) ∧
    ((∀ j ∈ sv.active, (st j).stalled = true ∨ j.pieces = []) →
      ∀ par, exec (.sieveTurn c ⟨par, o⟩) s = .next (s.withDev d)) ∧
    (∀ j rest w, s.dev.ras.armed = [] → turnOf d.sieves[c] = some (j, rest) → workOf d j = some w →
      let r := unitRead { d with waits := false } (segPhys w.seg (4096 * w.piece + 64 * (w.first + j.lines)))
        ⟨2, partOf (s.eng j.eng), j.old⟩ o
      (r.2.waits = true → exec (.sieveTurn c ⟨false, o⟩) s = .next (s.withDev d)) ∧
      (r.2.waits = false → r.1.poison = false → ∃ t, exec (.sieveTurn c ⟨false, o⟩) s = .next t ∧
        t = s.withDev { r.2 with waits := s.dev.waits, regs := t.dev.regs, sieves := t.dev.sieves } ∧
        regF t.dev (SIEVE_BYTES c.val) 0 64 = (regF r.2 (SIEVE_BYTES c.val) 0 64 + 64) % 2 ^ 64 ∧
        (∀ y, y ∉ [SIEVE_BYTES c.val, SIEVE_ROWS c.val, SIEVE_SEL c.val] → reg t.dev y = reg r.2 y) ∧
        (∀ c', c' ≠ c → t.dev.sieves[c'] = r.2.sieves[c']) ∧
        (let bits := j.bits + r.1.data.toNat * 2 ^ (512 * (w.first + j.lines))
         (j.lines + 1 < w.count → t.dev.sieves[c] = { r.2.sieves[c] with
           turn := some (j.eng, j.owner)
           active := r.2.sieves[c].active.map fun i =>
             if i.eng = j.eng ∧ i.owner = j.owner then { j with lines := j.lines + 1, bits := bits } else i }) ∧
         (w.count ≤ j.lines + 1 → t.dev.sieves[c] = { r.2.sieves[c] with
           turn := none
           active := rest ++ [{ j with
             lines := 0, bits := 0, pieces := j.pieces.tail, results := j.results ++ [⟨w.piece, bits, none⟩] }] }))) ∧
      (r.2.waits = false → r.1.poison = true → ∃ t, exec (.sieveTurn c ⟨false, o⟩) s = .next t ∧
        regF t.dev (SIEVE_ERR c.val) 0 1 = 1 ∧
        regF t.dev (SIEVE_BYTES c.val) 0 64 = (regF r.2 (SIEVE_BYTES c.val) 0 64 + 64) % 2 ^ 64 ∧
        t.dev.sieves[c] = { r.2.sieves[c] with
          turn := none
          active := rest ++ [{ j with
            lines := 0, bits := 0, pieces := j.pieces.tail
            results := j.results ++ [⟨w.piece, j.bits, some (64 * (w.first + j.lines))⟩] }] })) ∧
    (∀ j rest w, turnOf d.sieves[c] = some (j, rest) → workOf d j = some w → s.dev.ras.armed = [] →
      (unitRead (sieveParity { d with waits := false } c) (segPhys w.seg (4096 * w.piece + 64 * w.first))
        ⟨2, partOf (s.eng j.eng), j.old⟩ o).2.waits = false →
      ∃ t, exec (.sieveTurn c ⟨true, o⟩) s = .next t ∧ regF t.dev (SIEVE_ERR c.val) 1 1 = 1 ∧
        regF t.dev (SIEVE_ERR c.val) 32 16 = min (regF s.dev (SIEVE_ERR c.val) 32 16 + 1) 65535 ∧
        regF t.dev (SIEVE_BYTES c.val) 0 64 = (regF s.dev (SIEVE_BYTES c.val) 0 64 + 64) % 2 ^ 64)

/-- The oldest result of a job leaves its channel, whose place a waiting job takes once the job has nothing left, and
reaches the job's window, where the rows move on as far as they can (R194, R195). -/
def Sys2Proof.Claims.SieveResults : Prop :=
  ∀ (s : State) (c : Chan) (e : Eng) (k : StreamNo), s.dev.phase = .run →
    (∀ j rest q more b, s.dev.sieves[c].active = j :: rest → j.eng = e → j.owner = k → j.results = q :: more →
      (∀ i ∈ rest, i.eng ≠ e ∨ i.owner ≠ k) → (∀ i ∈ rest, i.pieces ≠ []) → j.pieces ≠ [] →
      s.dev.sieves[c].waiting = [] → (s.eng e).jobs = [b] → b.owner = k →
      exec (.sieveResultArrival e k c) s = .next (s.withDev (runJob
        { (s.withEng e { s.eng e with
            jobs := [{ b with got := b.got ++ [q], low := advanceLow (b.got ++ [q]) b.low 9 }] }).dev with
          sieves := s.dev.sieves.set c.val { s.dev.sieves[c] with active := { j with results := more } :: rest } } e k))) ∧
    ((∀ j ∈ s.dev.sieves[c].active, j.eng ≠ e ∨ j.owner ≠ k ∨ j.results = []) →
      exec (.sieveResultArrival e k c) s = .next s) ∧
    ∀ (v : BitVec 2048) (code : Nat), rowSelected v code =
      (fieldN v.toNat 32 16).testBit ((List.range 4).foldl (fun n i => n + if termHolds v i code then 2 ^ i else 0) 0)

/-! ### The CAM fabric (R58, R74, R111 to R114, R205 to R229) -/

/-- The CAM instructions with their operation, the register group each checks and whether it names an entry. -/
def Sys2Proof.Machine.camForms (e : Eng) (f : CForm) : List (Instr × CamOp × Option (BitVec 5) × Bool) :=
  [(.csrch e f, .search, some f.rs2, false), (.cins e f, .insert, some f.rs2, true),
   (.csrchins e f, .searchInsert, some f.rs2, false), (.cdel e f, .delete, none, true),
   (.crd e f, .read, some f.rd, true), (.cwr e f, .write, some f.rs2, true)]

/-- A CAM instruction whose context names banks of the engine's partition, whose register group fits the width, and
whose entry address, where it has one, is aligned within the range sends its request, with the key from the register
group and the engine's masks, to its square's port and waits there; each check that fails gives its exception and
sends nothing (R111 to R113, R220). The first instruction after a handler return takes the reply that waits for it in
the latch and goes on (R74). -/
def Sys2Proof.Claims.CamInstructions : Prop :=
  ∀ (s : State) (e : Eng) (f : CForm), ∀ r ∈ camForms e f, (s.eng e).Executes r.1 →
    let x := s.engAt e r.1
    let c := (x.camr[f.aux.toNat % 4]'(Nat.mod_lt _ (by omega))).toNat
    let first := c % 256
    let count := c / 256 % 256
    let w := c / 65536 % 4
    let a := (getS x f.rs1).toNat
    let aligned := ∀ g, r.2.2.1 = some g → g.toNat % 2 ^ w = 0
    let owned := fun n => bankOwner s.dev (bankNo (first + n)) = x.owner ∧ x.owner.isSome = true
    let named := r.2.2.2 = true → first * 1024 ≤ a ∧ a < (first + count + 1) * 1024 ∧ a % 2 ^ w = 0
    let faults := fun k v => exec r.1 s = .next (s.withEng e { x with fault := some ⟨k, v⟩ })
    ((s.eng e).afterRet = false → w ≠ 3 → first + count ≤ 255 → aligned → (∀ n ≤ count, owned n) → named →
      exec r.1 s = .next (s.withDev (updCamSq (settleCredits (s.withEng e { x with
        cam := x.cam ++ [⟨x.pc, wordOf r.1, f.rd, {
          op := r.2.1, first := first, count := count + 1, width := w, addr := a
          key := (List.range (2 ^ w)).map fun i => (getS x (f.rs2 + BitVec.ofNat 5 i)).setWidth 40
          mask := x.camm.toList, part := x.owner }, .queued, true, false⟩] }).dev (tileOf e)) (tileOf e)
        fun q => { q with waiting := q.waiting ++ [e] }))) ∧
    ((s.eng e).afterRet = false → w = 3 ∨ 255 < first + count → faults .illegalOperand ((wordOf r.1).setWidth 64)) ∧
    ((s.eng e).afterRet = false → w ≠ 3 → first + count ≤ 255 → ¬ aligned →
      faults .illegalOperand ((wordOf r.1).setWidth 64)) ∧
    (∀ n, (s.eng e).afterRet = false → w ≠ 3 → first + count ≤ 255 → aligned → n ≤ count → ¬ owned n →
      (∀ m < n, owned m) → faults .accCam (BitVec.ofNat 64 (first + n))) ∧
    ((s.eng e).afterRet = false → w ≠ 3 → first + count ≤ 255 → aligned → (∀ n ≤ count, owned n) → ¬ named →
      faults .illegalOperand ((wordOf r.1).setWidth 64)) ∧
    (∀ l, (s.eng e).afterRet = true → x.latch = some l → r.2.1 ≠ .read →
      exec r.1 s = .next (s.withEng e ({ x with latch := none }.wrote f.rd l.rep.result)))

/-- The oldest reply reaches its engine: the instruction that waits takes the result word into rd, or the units of a
CRD into its register group, or the result alone of a refused CRD, and goes on; the reply of an abandoned one goes to
the latch, or nowhere. The port's credit pays the banks' further cycles (R74, R114, R220, R222). -/
def Sys2Proof.Claims.CamReplies : Prop :=
  ∀ (s : State) (e : Eng) (c : CamWait) (rest : List CamWait) (r : CamRep), s.dev.phase = .run →
    (s.eng e).cam = c :: rest → c.stage = .done r →
    let paid := updCamSq (settleCredits s.dev (tileOf e)) (tileOf e) fun q =>
      { q with credits := q.credits - 16 * (r.busy : Int) }
    let x := { s.eng e with cam := rest }
    let gives := fun y => exec (.camReply e) s = .next ((s.withDev paid).withEng e y)
    (c.live = true → c.req.op ≠ .read ∨ r.units = [] → gives (x.wrote c.rd r.result)) ∧
    (c.live = true → c.req.op = .read → 0 < r.units.length → r.units.length ≤ 4 →
      ∃ y, gives y ∧ y = { x with s := y.s, pc := x.pc + 4 } ∧
        (∀ i < r.units.length, c.rd + BitVec.ofNat 5 i ≠ 0 → getS y (c.rd + BitVec.ofNat 5 i) =
          ((r.units[i]?.getD 0).setWidth 64 ||| if i = 0 then r.result else 0)) ∧
        ∀ n, (∀ i < r.units.length, n ≠ c.rd + BitVec.ofNat 5 i) → getS y n = getS x n) ∧
    (c.live = false → c.discard = false → gives { x with latch := some ⟨c.pc, c.word, r⟩ }) ∧
    (c.live = false → c.discard = true → gives x)

/-- The entry at a unit address of the fabric. -/
def Sys2Proof.Machine.entAt (d : Device) (a : Nat) : Option (List Cell) :=
    sfind d.banks[bankNo (a / 1024)].ents (a % 1024)

/-- A request whose turn has come, over banks of its width that work, hold no parity error and list their entries in
order. -/
structure Sys2Proof.Machine.Serves (s : State) (e : Eng) (c : CamWait) (rest : List CamWait) : Prop where
  run : s.dev.phase = .run
  head : (s.eng e).cam = c :: rest
  sent : c.stage = .sent
  fits : c.req.first + c.req.count ≤ 256
  width : c.req.width < 3
  works : ∀ b ∈ rangeBanks c.req, bankWidth s.dev b = c.req.width ∧ s.dev.banks[b].retired = false ∧
    bankFrozen s.dev b = false ∧ s.dev.banks[b].bad = [] ∧ s.dev.banks[b].badFlag = [] ∧
        keysRise s.dev.banks[b].ents = true ∧
    ∀ p ∈ s.dev.banks[b].ents, p.1 < 1024 ∧ p.1 % 2 ^ c.req.width = 0 ∧ p.2.length = 2 ^ c.req.width

/-- Whether an address lies in the range of a request. -/
def Sys2Proof.Machine.inRange (r : CamReq) (a : Nat) : Prop := r.first * 1024 ≤ a ∧ a < (r.first + r.count) * 1024

/-- A search answers the lowest address in its range whose entry matches the key under the mask, and MISS where none
does; it changes no entry. CSRCHINS answers a match the same way; where none matches and the insertion point is a
hole, the key becomes the entry there, with INSERTED and MISS (R208 to R214). -/
def Sys2Proof.Claims.CamSearches : Prop :=
  ∀ (s : State) (e : Eng) (c : CamWait) (rest : List CamWait), Serves s e c rest →
    let hit := fun a => inRange c.req a ∧ ∃ u, entAt s.dev a = some u ∧ camMatch u c.req.key c.req.mask = true
    let answers := fun (i : Instr) n => ∃ t r, exec i s = .next t ∧ t.eng e = { s.eng e with
        cam := { c with stage := .done r } :: rest } ∧ r.result = BitVec.ofNat 64 n ∧
      t = s.withDev { (s.withEng e (t.eng e)).dev with regs := t.dev.regs } ∧
      ∀ y, (∀ k < 64, y ≠ CAM_OPS k) → reg t.dev y = reg s.dev y
    (c.req.op = .search →
      (∀ a, hit a → (∀ b, hit b → a ≤ b) → answers (.camSearchServe e []) a) ∧
      ((∀ a, ¬ hit a) → answers (.camSearchServe e []) (2 ^ 63))) ∧
    (c.req.op = .searchInsert →
      (∀ a, hit a → (∀ b, hit b → a ≤ b) → answers (.camSearchInsertServe e []) a) ∧
      (let ip := insertPoint (rangeEnts s.dev c.req) (2 ^ c.req.width) (c.req.first * 1024) (keyValue c.req.key)
       (∀ a, ¬ hit a) → inRange c.req ip → entAt s.dev ip = none →
        ∃ t r, exec (.camSearchInsertServe e []) s = .next t ∧ (t.eng e).cam = { c with stage := .done r } :: rest ∧
          r.result = BitVec.ofNat 64 (ip + 2 ^ 62 + 2 ^ 63) ∧ entAt t.dev ip = some c.req.key ∧
          ∀ a, a < 262144 → a ≠ ip → entAt t.dev a = entAt s.dev a)) ∧
    (c.req.op ≠ .search → exec (.camSearchServe e []) s = .next s)

/-- The commands by which the banks serve each operation. -/
def Sys2Proof.Machine.camServes (e : Eng) : List (CamOp × (List Flip → Instr)) :=
  [(.search, .camSearchServe e), (.searchInsert, .camSearchInsertServe e), (.insert, .camInsertServe e),
   (.delete, .camDeleteServe e), (.write, .camWriteServe e), (.read, .camReadServe e)]

/-- Whatever bits have flipped in the banks, the oldest request that has been sent is answered by its own operation, and
waits unchanged for any other; the flips are in the banks before the request is served. A range that refuses answers
REFUSED and changes no bank (R210, R214, R217, R225, R228). -/
def Sys2Proof.Claims.CamService : Prop :=
  ∀ (s : State) (e : Eng) (c : CamWait) (rest : List CamWait) (fl : List Flip), s.dev.phase = .run →
    (s.eng e).cam = c :: rest → c.stage = .sent →
    let flipped := s.withDev (fl.foldl applyFlip s.dev)
    ∀ r ∈ camServes e,
      (c.req.op ≠ r.1 → exec (r.2 fl) s = .next s) ∧
      (c.req.op = r.1 → exec (r.2 fl) s = exec (r.2 []) flipped ∧
        ∃ t rep, exec (r.2 fl) s = .next t ∧ (t.eng e).cam = { c with stage := .done rep } :: rest ∧
          (t.eng e).s = (s.eng e).s ∧ (t.eng e).pc = (s.eng e).pc ∧ (∀ w, w ≠ e → t.eng w = s.eng w) ∧
          (camRefuses s.dev c.req = true → rep.result = BitVec.ofNat 64 (2 ^ 60) ∧ rep.units = [] ∧
            t = flipped.withEng e (t.eng e)))

/-- CINS of a hole makes the key its entry, with INSERTED and MISS; CWR stores the key over whatever is there; CDEL
makes an entry a hole and answers its address, or MISS for a hole; CRD reads the units of an entry, or MISS and zeros.
Every other entry stays (R214, R215, R217). -/
def Sys2Proof.Claims.CamEdits : Prop :=
  ∀ (s : State) (e : Eng) (c : CamWait) (rest : List CamWait), Serves s e c rest →
    inRange c.req c.req.addr → c.req.addr % 2 ^ c.req.width = 0 →
    let a := c.req.addr
    let ends := fun (i : Instr) (res : Nat) (units : List Cell) (entry : Option (List Cell)) =>
      ∃ t r, exec i s = .next t ∧ (t.eng e).cam = { c with stage := .done r } :: rest ∧
        r.result = BitVec.ofNat 64 res ∧ r.units = units ∧ entAt t.dev a = entry ∧
        (∀ b, b < 262144 → b ≠ a → entAt t.dev b = entAt s.dev b) ∧ (t.eng e).s = (s.eng e).s
    (c.req.op = .insert → entAt s.dev a = none →
      ends (.camInsertServe e []) (a + 2 ^ 62 + 2 ^ 63) [] (some c.req.key)) ∧
    (c.req.op = .write → ends (.camWriteServe e []) a [] (some c.req.key)) ∧
    (c.req.op = .delete → (∀ u, entAt s.dev a = some u → ends (.camDeleteServe e []) a [] none) ∧
      (entAt s.dev a = none → ends (.camDeleteServe e []) (2 ^ 63) [] none)) ∧
    (c.req.op = .read → (∀ u, entAt s.dev a = some u → ends (.camReadServe e []) 0 u (some u)) ∧
      (entAt s.dev a = none → ends (.camReadServe e []) (2 ^ 63) (List.replicate (2 ^ c.req.width) 0) none))

/-- The port sends its oldest request while its credit, brought up to the cycle, is above 0, and takes two credits for
each bank of the range; the credit gains the rate in force each CAM cycle up to the burst (R220 to R222). The parity
scan reads its bank's next unit, with the bits that have flipped, and counts a pass; a unit in error is reloaded from
the shadow and counted (R225, R226). The oldest change of the shadow queue is written to the shadow region (R224). The
re-spacer moves an entry into the hole beside it (R218). -/
def Sys2Proof.Claims.CamUpkeep : Prop :=
  ∀ s : State, s.dev.phase = .run →
    (∀ (t : Tile) (e : Eng) (rest : List Eng) (c : CamWait) (more : List CamWait),
      let d := settleCredits s.dev t
      s.dev.camSq[t].waiting = e :: rest → (s.eng e).cam = c :: more → c.stage = .queued →
      (0 < d.camSq[t].credits → exec (.camPortSend t) s = .next (s.withDev (updCamSq
        (updEng d e fun x => { x with cam := { c with stage := .sent } :: more }) t fun q =>
          { q with waiting := rest, credits := d.camSq[t].credits - 32 * (c.req.count : Int) }))) ∧
      (d.camSq[t].credits ≤ 0 → exec (.camPortSend t) s = .next (s.withDev d)) ∧
      (let n := (s.dev.cycle - s.dev.camSq[t].since) / 2
       let cap : Int := 16 * (regF s.dev (CAM_PACE t.val) 16 16 : Int)
       d.camSq[t].since = s.dev.camSq[t].since + 2 * n ∧
       d.camSq[t].credits = if cap ≤ s.dev.camSq[t].credits then s.dev.camSq[t].credits
         else min cap (s.dev.camSq[t].credits + (n * camRate s.dev t : Nat)))) ∧
    (∀ b : Bank, let u := s.dev.banks[b].scan
      (∀ fl, exec (.camParityScanRead b fl) s =
        exec (.camParityScanRead b []) (s.withDev (fl.foldl applyFlip s.dev))) ∧
      (parityBad s.dev b u = false →
        ∃ t, exec (.camParityScanRead b []) s = .next t ∧
          t = s.withDev { updBank s.dev b (fun x => { x with scan := (u + 1) % 1024 }) with regs := t.dev.regs } ∧
          (∀ y, y ≠ CAM_STAT (b.val / 4) (b.val % 4) → reg t.dev y = reg s.dev y) ∧
          regF t.dev (CAM_STAT (b.val / 4) (b.val % 4)) 40 24 =
            (regF s.dev (CAM_STAT (b.val / 4) (b.val % 4)) 40 24 + if u = 1023 then 1 else 0) % 2 ^ 24) ∧
      (parityBad s.dev b u = true → s.dev.banks[b].retired = false →
        ∃ t, exec (.camParityScanRead b []) s = .next t ∧ sfind t.dev.banks[b].bad u = none ∧
          regF t.dev (CAM_ERR (b.val / 4)) 0 1 = 1 ∧
          regF t.dev (CAM_ERR (b.val / 4)) 16 16 = satInc (regF s.dev (CAM_ERR (b.val / 4)) 16 16) 16)) ∧
    (∀ (t : Tile) (w : ShadowWrite) (rest : List ShadowWrite), s.dev.camSq[t].shadow = w :: rest →
      let a := regF s.dev (CAM_SHADOW t.val) 15 37 * 2 ^ 15 + w.bank.val % 4 * 8192 + 8 * w.unit
      exec (.shadowQueueWrite t) s = .next (s.withDev (updCamSq (lineWrite s.dev (a / 64 * 64)
        (BitVec.ofNat 512 ((w.cell.toNat + if w.valid then 2 ^ 40 else 0) * 2 ^ (8 * (a % 64))))
        (enables (a % 64) 8) 0 true 3) t fun q => { q with shadow := rest }))) ∧
    ∀ (b : Bank) (off : Nat) (l : List Cell) (up : Bool), let n := 2 ^ bankWidth s.dev b
      let dst := if up then off + n else off - n
      respaces s.dev b = true → bankBusy s.dev b = false → sfind s.dev.banks[b].ents off = some l →
      sfind s.dev.banks[b].ents dst = none → dst + n ≤ 1024 → off < 1024 → (up = false → n ≤ off) →
      s.dev.banks[b].bad = [] → s.dev.banks[b].badFlag = [] →
      ∃ t, exec (.respacerMove b off up) s = .next t ∧ sfind t.dev.banks[b].ents dst = some l ∧
        sfind t.dev.banks[b].ents off = none ∧
        (∀ k, k ≠ off → k ≠ dst → sfind t.dev.banks[b].ents k = sfind s.dev.banks[b].ents k) ∧
        regF t.dev (CAM_OPS (b.val / 4)) 32 32 = (regF s.dev (CAM_OPS (b.val / 4)) 32 32 + 1) % 2 ^ 32 ∧
        (∀ c, c ≠ b → t.dev.banks[c] = s.dev.banks[c]) ∧ t.dev.engines = s.dev.engines

/-- A write of CAM_CFGk that the block takes sets the register; a new width, a new owner or CLEAR makes every entry of
the bank a hole, any other write keeps them; one that would assign the bank while its shadow is off is refused with
CAM_ERR (R206, R223). CAM_CLEAR without CLEAR does nothing; a write of the upper half alone reaches none of these
fields. -/
def Sys2Proof.Claims.CamConfiguration : Prop :=
  ∀ (s : State) (b : Bank) (w : RegAccess), let r := CAM_CFG (b.val / 4) (b.val % 4)
    let v := regGet (regWrite s.dev.regs r w) r
    let off := w.value.getLsbD 22 = true ∧ regF s.dev (CAM_SHADOW (b.val / 4)) 63 1 = 0
    s.dev.TakesWrite r w.agent →
    (w.part = .high → exec (.camClear b w) s = .next s ∧
      ∃ t, exec (.camCfgWrite b w) s = .next t ∧ s.onlyRegs t [r] ∧ reg t.dev r = v) ∧
    (w.part ≠ .high → ∀ i, i = Instr.camCfgWrite b w ∨ (i = .camClear b w ∧ w.value.getLsbD 23 = true) →
    (off → ∃ t, exec i s = .next t ∧ s.onlyRegs t [CAM_ERR (b.val / 4)] ∧ regF t.dev (CAM_ERR (b.val / 4)) 4 1 = 1) ∧
    (¬ off → w.value.getLsbD 23 = true ∨ fieldN v.toNat 0 2 ≠ regF s.dev r 0 2 ∨
        fieldN v.toNat 16 7 ≠ regF s.dev r 16 7 →
      ∃ t, exec i s = .next t ∧ t.dev.banks[b].ents = [] ∧ t.dev.banks[b].bad = [] ∧ reg t.dev r = v ∧
        ∀ c, c ≠ b → t.dev.banks[c] = s.dev.banks[c]) ∧
    (¬ off → w.value.getLsbD 23 = false → fieldN v.toNat 0 2 = regF s.dev r 0 2 →
      fieldN v.toNat 16 7 = regF s.dev r 16 7 → ∃ t, exec i s = .next t ∧ s.onlyRegs t [r] ∧ reg t.dev r = v)) ∧
    (w.part ≠ .high → w.value.getLsbD 23 = false → exec (.camClear b w) s = .next s)

/-! ### The scheduler (R230 to R257, R284, R285) -/

/-- A RUN entry that its queue has accepted and the scheduler takes: a body that breaks R284 or the flow quota ends
with INVALID_FIELD, a descriptor that fails a check with the check's status, and one that passes, of an unordered
instance with rows, becomes an instance under a number not in use whose cursor is at its first row, with as many
threads as the descriptor, the partition's engines, the rows and the free threads allow; an ordered one joins its
flow's instances and takes its sequence numbers from the flow's next one, and one with no rows has no thread (R230 to
R235, R250, R284). An instance that has come to its end decides its entry with its status (R285). -/
def Sys2Proof.Claims.FlightRuns : Prop :=
  ∀ (s : State) (p : Part) (q : QueueId) (i pick : Nat), s.dev.phase = .run → partFrozen s.dev p = false →
    let run := Instr.flightRun p q i pick
    (∀ a, instOfEntry s.dev p q i = none → openEntryOf s.dev p q i 1 1 = some a →
      let ends := fun (d : Device) st => ∃ t, exec run s = .next t ∧
        t = s.withDev { decideEntry d p q i st (runResults 0 0 0 0) with pager := t.dev.pager, waits := s.dev.waits }
      (lineRead a.raw 8 8 % 64 ≠ 0 ∨ 2 ^ 40 ≤ lineRead a.raw 0x10 8 ∨ 2 ^ 40 ≤ lineRead a.raw 0x18 8 ∨
          lineRead a.raw 0x22 6 ≠ 0 ∨ quotaFlows s.dev p < lineRead a.raw 0x20 2 →
        ends s.dev 3) ∧
      (∀ v d, runBad s.dev p a.raw = false →
        ioRead { s.dev with waits := false } p (lineRead a.raw 8 8) 192 1 = ((some v, false), d) → d.waits = false →
        let g := fun b n => v / 2 ^ (8 * b) % 2 ^ (8 * n)
        let st := admitChecks d p g (lineRead a.raw 0x20 2)
        let rows := lineRead a.raw 0x18 8
        let f := lineRead a.raw 0x20 2
        (st ≠ 0 → ends d st) ∧
        (st = 0 → v < 2 ^ 1536 → lineRead a.raw 0x20 2 = 0 → 0 < rows → heldBits s.dev p false false = [] →
          runsAhead s.dev none true = 1 → runsAhead s.dev (some p) true = 1 → s.dev.sched.sysTable = [] →
          (∀ k x, (k, x) ∈ s.dev.sched.insts → k < 65536) → s.dev.sched.insts.length < 65536 →
          (∀ n t, (n, t) ∈ s.dev.sched.threads → n < 262144 ∧ (instOf s.dev t.inst).isSome = true) →
          keysRise s.dev.sched.threads = true →
          ∃ t k x, exec run s = .next t ∧ instOf s.dev k = none ∧ k < 65536 ∧ instOf t.dev k = some x ∧
            x.part = p ∧ x.queue = q.val ∧ x.index = i ∧ x.firstRow = lineRead a.raw 0x10 8 ∧ x.rows = rows ∧
            x.cursor = x.firstRow ∧ x.cost = g 0x20 4 ∧ x.flow = none ∧ x.stop = none ∧ x.published = 0 ∧
            (∀ j, j ≠ k → instOf t.dev j = instOf s.dev j) ∧
            (x.failed = none → (threadsOf t.dev k).length =
              min (min (if g 0x14 2 = 0 then 256 else g 0x14 2) (partEngines s.dev p).length)
                (min ((rows + g 0x18 4 - 1) / g 0x18 4)
                  (min (262144 - s.dev.sched.threads.length) (quotaThreads s.dev p - partThreads s.dev p)))) ∧
            (∀ n y, sfind s.dev.sched.threads n = some y → sfind t.dev.sched.threads n = some y) ∧
            t.dev.engines = s.dev.engines ∧ t.dev.mem = d.mem) ∧
        (st = 0 → v < 2 ^ 1536 → heldBits s.dev p (rows == 0) false = [] →
          (∀ k x, (k, x) ∈ s.dev.sched.insts → k < 65536) → s.dev.sched.insts.length < 65536 →
          (∀ n t, (n, t) ∈ s.dev.sched.threads → (instOf s.dev t.inst).isSome = true) →
          ∃ t k x, exec run s = .next t ∧ instOf s.dev k = none ∧ instOf t.dev k = some x ∧ x.part = p ∧
            x.queue = q.val ∧ x.index = i ∧ x.firstRow = lineRead a.raw 0x10 8 ∧ x.rows = rows ∧
            x.flow = (if f = 0 then none else some f) ∧ (rows = 0 → threadsOf t.dev k = []) ∧
            (f ≠ 0 → ∃ w, flowOf t.dev p f = some w ∧ k ∈ w.insts ∧ x.seqTo = x.seqFrom ∧
              x.seqFrom = (match flowOf s.dev p f with | some y => y.next | none => 0))))) ∧
    (∀ k x, instOfEntry s.dev p q i = some k → instOf s.dev k = some x → instDone s.dev k x = false →
      exec run s = .next s) ∧
    (∀ k x, instOfEntry s.dev p q i = some k → instOf s.dev k = some x → instDone s.dev k x = true → x.queue = q.val →
      x.index = i → x.part = p → partHeld s.dev p = false →
      ∃ t y, exec run s = .next t ∧ instOf t.dev k = some y ∧ y.decided = true ∧
        ∀ a, openEntryOf s.dev p q i 1 1 = some a → ∃ b o, accFind t.dev p q i = some b ∧ b.outcome = some o ∧
          (x.failed = none → x.stop = none → x.mismatch = none → o.status = 0))

/-- The flow publisher releases the lowest number of a flow once every row of its morsel has completed well: the unit
is published and the flow goes on to the next number; while rows are missing nothing is released (R252). A service
unit that runs no system thread takes the one of best priority that came first (R242). An eligible thread that has
waited PROMO beats is promoted at the tick, on its cycle, and no other is (R240). -/
def Sys2Proof.Claims.FlowsAndService : Prop :=
  ∀ s : State, s.dev.phase = .run →
    (∀ (p : Part) (f k : Nat) (g : Flow) (x : Instance) (u : DoneUnit), partFrozen s.dev p = false → f ≠ 0 →
      servesNow s.dev (flowWork p f) = true → flowOf s.dev p f = some g → g.insts = [k] → instOf s.dev k = some x →
          x.part = p → x.stop = none →
      x.failed = none → x.flow = some f → x.seqFrom ≤ g.low → g.low < x.seqTo → sget g.drawn g.low 0 = u.rows →
      sget (sdel g.drawn g.low) (g.low + 1) 0 ≠ 0 →
      (g.done = [u] → u.seq = g.low → goodStatus u.status.toNat = true →
        ∃ t g' x', exec (.flowRelease p f) s = .next t ∧ flowOf t.dev p f = some g' ∧ g'.low = g.low + 1 ∧
          g'.done = [] ∧ instOf t.dev k = some x' ∧ x'.published = x.published + 1 ∧
          x'.rowsDone = x.rowsDone + u.rows ∧ t.dev.engines = s.dev.engines) ∧
      (g.done = [] → u.rows ≠ 0 → ∃ t g', exec (.flowRelease p f) s = .next t ∧ flowOf t.dev p f = some g' ∧
        g'.low = g.low ∧ g'.done = [] ∧ t.dev.mem = s.dev.mem)) ∧
    (∀ (u : ServiceUnit) (l r : List SystemThread) (w : SystemThread), s.dev.sched.system = l ++ w :: r →
      (∀ v ∈ s.dev.sched.serving, v.unit ≠ u) → w.unit = u → w.prio ≤ 8 → (∀ v ∈ l, v.unit = u → w.prio < v.prio) →
      (∀ v ∈ r, v.unit = u → w.prio ≤ v.prio) →
      exec (.systemThreadDispatch u) s = .next (s.withDev { s.dev with sched := { s.dev.sched with
        system := l ++ r, serving := s.dev.sched.serving ++ [w] } })) ∧
    (∀ (u : ServiceUnit) (v : SystemThread), v ∈ s.dev.sched.serving → v.unit = u →
      exec (.systemThreadDispatch u) s = .next s) ∧
    ∀ (n : Nat) (t : Thread), sfind s.dev.sched.threads n = some t → t.promoted = false →
      (s.dev.cycle = s.dev.beat.lastTick → t.readyBeat + regF s.dev SCH_CTL 0 16 ≤ beatNow s.dev →
        eligible s.dev (beatNow s.dev) t = true →
        exec (.threadPromotion n) s = .next (s.withDev { s.dev with sched := { s.dev.sched with
          threads := sput s.dev.sched.threads n { t with promoted := true, promotedAt := beatNow s.dev } } })) ∧
      (s.dev.beat.lastTick < s.dev.cycle ∨ beatNow s.dev < t.readyBeat + regF s.dev SCH_CTL 0 16 ∨
          eligible s.dev (beatNow s.dev) t = false →
        exec (.threadPromotion n) s = .next s)

/-! ### Queues (R260 to R283, R291) -/

/-- A queue that is due and may read takes the entry at its consumer index: a malformed one is accepted with status
MALFORMED and puts the queue in ERROR, another that nothing holds back is accepted; one that R255 holds back stays
unread, with its causes in SCH_BP; one the A64 does not own leaves the queue not due; a read that faults puts it in
ERROR; an entry that has completed before is passed over. Other queues stay (R263, R264, R267 to R272, R277). -/
def Sys2Proof.Claims.QueueReads : Prop :=
  ∀ (s : State) (p : Part) (q : QueueId) (x : Queue), s.dev.phase = .run → qFind s.dev p q = some x →
    let set := fun (d : Device) (y : Queue) =>
      s.withDev { d with queues := sput s.dev.queues (qKey p q) y, waits := s.dev.waits }
    let used := fun (d : Device) => if x.type = 2 then { d.ledger with used := d.cycle } else d.ledger
    let got := ioRead { s.dev with waits := false } p (x.base + 64 * x.cons) 64 1
    (queueReads s.dev p x = false → exec (.queueEntryRead p q) s = .next s) ∧
    (queueReads s.dev p x = true → x.cons ∈ x.skip → exec (.queueEntryRead p q) s = .next (set s.dev { x with
      cons := (x.cons + 1) % 2 ^ x.log2, skip := x.skip.filter (· != x.cons) })) ∧
    (queueReads s.dev p x = true → x.cons ∉ x.skip →
      (∀ v d, got = ((some v, false), d) → d.waits = false → d.queues = s.dev.queues → v < 2 ^ 512 →
        let raw : BitVec 512 := BitVec.ofNat 512 v
        let fits := v % 2 = 1 ∧ malformed x.type raw = false ∧ waitsOrdered x raw = false ∧
          (x.type = 5 → lineRead raw 1 1 = 1 → allocPends d p = false ∧ allocWaits d p raw = false)
        let idle := x.type = 2 → regF d LDG_ST_STAT 0 2 ≠ 1
        (v % 2 = 0 → exec (.queueEntryRead p q) s = .next (set d { x with due := false })) ∧
        (v % 2 = 1 → malformed x.type raw = true → waitsOrdered x raw = false → idle →
          ∃ t y a, exec (.queueEntryRead p q) s = .next t ∧
            t = set { d with accepted := d.accepted + 1, ledger := used d } y ∧
            y.error = true ∧ y.cause = .malformed ∧ y.errIndex = x.cons ∧ y.entries = x.entries ++ [a] ∧ a.raw = raw ∧
            a.index = x.cons ∧ a.outcome = some ⟨0xd, []⟩ ∧ y.cons = (x.cons + 1) % 2 ^ x.log2) ∧
        (fits → idle → (x.type = 5 → lineRead raw 1 1 ≠ 2) → backPressure d p x raw = [] →
          ∃ t a, exec (.queueEntryRead p q) s = .next t ∧ a.raw = raw ∧ a.index = x.cons ∧ a.outcome = none ∧
            t = set { d with accepted := d.accepted + 1, ledger := used d } { x with
              cons := (x.cons + 1) % 2 ^ x.log2, entries := x.entries ++ [a], heldBack := false }) ∧
        (fits → x.type = 5 → lineRead raw 1 1 = 2 → handleBad raw [] = false →
          ∀ g, segOf d p.val (entHandle raw) = some g → ∃ t y a, exec (.queueEntryRead p q) s = .next t ∧
            qFind t.dev p q = some y ∧ y.entries = x.entries ++ [a] ∧ a.raw = raw ∧ a.outcome = none ∧
            segOf t.dev p.val (entHandle raw) = none) ∧
        (fits → ∀ bit l, backPressure d p x raw = bit :: l →
          ∃ t, exec (.queueEntryRead p q) s = .next t ∧ qFind t.dev p q = some { x with due := false,
                                                                                        heldBack := true } ∧
            ∀ k ∈ bit :: l, regF t.dev SCH_BP k 1 = 1)) ∧
      (∀ d, got = ((none, false), d) → d.waits = false → d.queues = s.dev.queues →
        exec (.queueEntryRead p q) s = .next (set d { x with
          error := true, cause := .readFault, errIndex := x.cons })))

/-- A doorbell makes an enabled queue of a running partition due, and does nothing else; of a queue that is not there,
or not enabled, or is being switched off, it does nothing (R263, R291, R482). The timer of R279 sends the MSI of a
queue that has completions to tell, and is then off; of a queue whose MSI is off, or that has nothing to tell, it only
ends; of a frozen partition it does nothing (R483). -/
def Sys2Proof.Claims.DoorbellsAndTimers : Prop :=
  ∀ (s : State) (p : Part) (q : QueueId),
    (∀ w : RegAccess, s.dev.TakesWrite (PRT_DB p.val q.val) w.agent →
      (∀ x, qFind s.dev p q = some x → x.enabled = true → (q = 0 → x.closing = false) → partRuns s.dev p = true →
        exec (.doorbell p q w) s = .next (s.withDev { s.dev with
          queues := sput s.dev.queues (qKey p q) { x with due := true } })) ∧
      ((∀ x, qFind s.dev p q = some x → x.enabled = false ∨ q = 0 ∧ x.closing = true ∨ partRuns s.dev p = false) →
        exec (.doorbell p q w) s = .next s)) ∧
    (∀ x, s.dev.phase = .run → qFind s.dev p q = some x → x.timerOn = true → partFrozen s.dev p = false →
      (x.msiEn = false ∨ x.n = 0 → exec (.msiTimerExpiry p q) s = .next (s.withDev { s.dev with
        queues := sput s.dev.queues (qKey p q) { x with timerOn := false } })) ∧
      (x.msiEn = true → 1 ≤ x.n → ∃ t y, exec (.msiTimerExpiry p q) s = .next t ∧ qFind t.dev p q = some y ∧
        y = { x with n := 0, timerOn := false, msiDue := false } ∧ t.dev.engines = s.dev.engines)) ∧
    (∀ x, s.dev.phase = .run → qFind s.dev p q = some x → x.timerOn = false ∨ partFrozen s.dev p = true →
      exec (.msiTimerExpiry p q) s = .next s)

/-- A decided entry's completion writes its results and STATUS, then FLAGS with DONE and OWN 1, and last FLAGS with
OWN 0; the entry then leaves the queue, and with IRQ the queue counts it and sends its MSI at COUNT; only then the
queue that a SET_MODERATION names takes its values, and with the entry of a RUN its instance leaves the scheduler's
table; a write that faults puts the queue in ERROR and keeps the entry; an entry that is not decided stays, as does
one of a FLIGHT queue while its partition is frozen (R261, R265, R274, R279, R283, R483). -/
def Sys2Proof.Claims.EntryCompletions : Prop :=
  ∀ (s : State) (p : Part) (q : QueueId) (i : Nat) (x : Queue) (a : Accepted), s.dev.phase = .run →
    qFind s.dev p q = some x → accFind s.dev p q i = some a →
    (a.outcome = none ∨ (x.type = 1 ∧ partFrozen s.dev p = true) → exec (.entryCompletion p q i) s = .next s) ∧
    (∀ o, a.outcome = some o → mayComplete s.dev x a = true → partHeld s.dev p = false →
      (x.type = 1 → partFrozen s.dev p = false) →
      entryWaits s.dev p (x.base + 64 * i) = [] →
      let l := completionWrites x.type a.raw o
      let cmd := x.type = 0 ∧ lineRead a.raw 1 1 = 6 ∧ o.status = 0
      l.getLast? = some (0, 1, (lineRead a.raw 0 1 ||| 3) / 2 * 2) ∧ (0, 1, lineRead a.raw 0 1 ||| 3) ∈ l ∧
      (4, 2, o.status) ∈ l ∧
      (∀ d, writeCompletion s.dev p (x.base + 64 * i) l = (true, d) → d.queues = s.dev.queues →
        ∃ t y, exec (.entryCompletion p q i) s = .next t ∧ qFind t.dev p q = some y ∧
          y.entries = x.entries.filter (fun b => b.index != i) ∧ y.cons = x.cons ∧ y.error = x.error ∧
          (x.type = 1 → ∀ k, instOfEntry d p q i = some k → instOf t.dev k = none) ∧
          (¬ cmd → lineRead a.raw 0 1 / 8 % 2 = 0 → y.n = x.n) ∧
          (¬ cmd → lineRead a.raw 0 1 / 8 % 2 = 1 → x.msiEn = false → y.n = min 65535 (x.n + 1)) ∧
          ∀ z, cmd → namedQ a.raw ≠ q → qFind s.dev p (namedQ a.raw) = some z → z.n = 0 →
            qFind t.dev p (namedQ a.raw) = some { z with
              poll := lineRead a.raw 0xc 1 % 2 == 1, msiEn := lineRead a.raw 0xc 1 / 2 % 2 == 1
              msiAddr := lineRead a.raw 0x18 8, msiData := BitVec.ofNat 32 (lineRead a.raw 0x20 4)
              count := lineRead a.raw 0x24 2, timer := lineRead a.raw 0x26 2 }) ∧
      (∀ d, writeCompletion s.dev p (x.base + 64 * i) l = (false, d) → d.queues = s.dev.queues → x.error = false →
        ∃ y, exec (.entryCompletion p q i) s = .next (s.withDev { d with queues := sput s.dev.queues (qKey p q) y }) ∧
          y.error = true ∧ y.cause = .writeFault ∧ y.errIndex = i ∧ y.entries = x.entries))

/-- A write of PRT_ADMIN_CFG that turns ENABLE on enables the ADMIN queue at index 0 with the parameters of its
registers, one that turns it off disables the queue once nothing accepted is left, and another gives it POLL and
MSI_EN; a write of PRT_ADMIN_MOD, by halves or whole, gives it its COUNT, TIMER and MSI data; PRT_ADMIN_RESET with
mode 2 lets it read on after an error, past a malformed entry, and with mode 1 clears the error and completes with
ABORTED the entries it owns: with none it only clears the error (R275, R283, R291). -/
def Sys2Proof.Claims.AdminRegisters : Prop :=
  ∀ (s : State) (p : Part) (w : RegAccess) (x : Queue), qFind s.dev p 0 = some x →
    let v := w.value.toNat
    let m := regGet (regWrite s.dev.regs (PRT_ADMIN_MOD p.val) w) (PRT_ADMIN_MOD p.val)
    let set := fun (y : Queue) => s.withDev { s.dev with queues := sput s.dev.queues (qKey p 0) y }
    (s.dev.TakesWrite (PRT_ADMIN_MOD p.val) w.agent → x.n = 0 →
      ∃ t y, exec (.prtAdminModWrite p w) s = .next t ∧ qFind t.dev p 0 = some y ∧
        reg t.dev (PRT_ADMIN_MOD p.val) = m ∧ y.msiData = BitVec.ofNat 32 (fieldN m.toNat 0 32) ∧
        y.count = fieldN m.toNat 32 12 ∧ y.timer = fieldN m.toNat 48 11 ∧ y.entries = x.entries ∧ y.cons = x.cons ∧
        t = s.withDev { s.dev with regs := t.dev.regs, queues := t.dev.queues }) ∧
    (s.dev.TakesWrite (PRT_ADMIN_CFG p.val) w.agent → w.part = .high → x.n = 0 →
      ∃ t y, exec (.prtAdminCfgWrite p w) s = .next t ∧ qFind t.dev p 0 = some y ∧ y.enabled = x.enabled ∧
        y.closing = x.closing ∧ y.cons = x.cons ∧ y.entries = x.entries ∧
        t = s.withDev { s.dev with regs := t.dev.regs, queues := t.dev.queues }) ∧
    (s.dev.TakesWrite (PRT_ADMIN_CFG p.val) w.agent → w.part ≠ .high → x.n = 0 →
      (regF s.dev (PRT_ADMIN_CFG p.val) 0 1 = v % 2 → ∃ t y, exec (.prtAdminCfgWrite p w) s = .next t ∧
        qFind t.dev p 0 = some y ∧ y.enabled = x.enabled ∧ y.closing = x.closing ∧ y.cons = x.cons ∧
        y.poll = (v / 2 % 2 == 1) ∧ y.msiEn = (v / 4 % 2 == 1) ∧ y.entries = x.entries ∧
        t = s.withDev { s.dev with regs := t.dev.regs, queues := t.dev.queues }) ∧
      (regF s.dev (PRT_ADMIN_CFG p.val) 0 1 = 1 → v % 2 = 0 → ∃ t y, exec (.prtAdminCfgWrite p w) s = .next t ∧
        qFind t.dev p 0 = some y ∧ regF t.dev (PRT_ADMIN_CFG p.val) 0 1 = 0 ∧ y.entries = x.entries ∧
        (x.entries = [] → y.enabled = false ∧ y.closing = false) ∧
        (x.entries ≠ [] → y.enabled = x.enabled ∧ y.closing = true) ∧
        t = s.withDev { s.dev with regs := t.dev.regs, queues := t.dev.queues })) ∧
    (s.dev.TakesWrite (PRT_ADMIN_CFG p.val) w.agent → w.part ≠ .high → regF s.dev (PRT_ADMIN_CFG p.val) 0 1 = 0 →
      v % 2 = 1 → x.n = 0 →
      ∃ t y, exec (.prtAdminCfgWrite p w) s = .next t ∧ qFind t.dev p 0 = some y ∧ y.enabled = true ∧ y.cons = 0 ∧
        y.closing = false ∧ y.base = regF s.dev (PRT_ADMIN_BASE p.val) 12 40 * 4096 ∧ y.poll = (v / 2 % 2 == 1) ∧
        y.msiEn = (v / 4 % 2 == 1) ∧ y.entries = x.entries ∧
        t = s.withDev { s.dev with regs := t.dev.regs, queues := t.dev.queues } ∧
        ∀ r, r ≠ PRT_ADMIN_CFG p.val → reg t.dev r = reg s.dev r) ∧
    (s.dev.TakesWrite (PRT_ADMIN_MOD p.val) w.agent → w.part = .whole → x.n = 0 → 1 ≤ v / 2 ^ 32 % 2 ^ 12 →
      1 ≤ v / 2 ^ 48 % 2 ^ 11 → v / 2 ^ 48 % 2 ^ 11 ≤ 1024 →
      ∃ t y, exec (.prtAdminModWrite p w) s = .next t ∧ qFind t.dev p 0 = some y ∧
        y.msiData = BitVec.ofNat 32 v ∧ y.count = v / 2 ^ 32 % 2 ^ 12 ∧ y.timer = v / 2 ^ 48 % 2 ^ 11 ∧
        y.entries = x.entries ∧ y.cons = x.cons ∧
        t = s.withDev { s.dev with regs := t.dev.regs, queues := t.dev.queues }) ∧
    (w.part = .high → exec (.adminResetResume p w) s = .next s ∧ exec (.adminResetAbort p w) s = .next s) ∧
    (s.dev.TakesWrite (PRT_ADMIN_RESET p.val) w.agent → w.part ≠ .high → v % 4 = 2 →
      (x.error = true → exec (.adminResetResume p w) s = .next (set { x with
        cons := if x.cause = .malformed then (x.errIndex + 1) % 2 ^ x.log2 else x.errIndex
        error := false, cause := .none, kept := [], due := true })) ∧
      exec (.adminResetAbort p w) s = .next s) ∧
    (s.dev.TakesWrite (PRT_ADMIN_RESET p.val) w.agent → w.part ≠ .high → v % 4 = 1 →
      (x.entries = [] → x.skip = [] → ∀ d,
        let l := sput s.dev.queues (qKey p 0) { x with error := false, cause := .none, kept := [] }
        abortOwned { s.dev with queues := l, waits := false } p 0 x x.cons (2 ^ x.log2) = (false, d) →
        d.waits = false → d.queues = l →
        exec (.adminResetAbort p w) s = .next (s.withDev { d with waits := s.dev.waits,
                                                                  queues := sput s.dev.queues (qKey p 0) {
          x with error := false, cause := .none, kept := [], heldBack := false } })) ∧
      exec (.adminResetResume p w) s = .next s)

/-- The ADMIN entry that is next to execute, its body as its command wants it: CREATE_QUEUE makes the queue it
describes under its number, DELETE_QUEUE of a queue with nothing accepted or waiting removes it, RESET_QUEUE of mode 1
lets it read on and one of mode 0 clears its error and aborts what it owns, ABORT of a tag that an accepted entry
carries ends as the entry could or could not be stopped, and one of a tag that no entry carries ends NOT_FOUND,
GET_QUEUE reports the queue, SET_MODERATION succeeds, and takes effect with its completion (EntryCompletions); each
decides its entry. A queue that does not exist ends NOT_FOUND, one that exists already 0x601, one past the quota
QUOTA, a bad body INVALID_FIELD, with nothing else changed (R275, R276, R282, R283). -/
def Sys2Proof.Claims.AdminCommands : Prop :=
  ∀ (s : State) (p : Part) (i : Nat), s.dev.phase = .run →
    let q := fun (a : Accepted) => namedQ a.raw
    let ends := fun (c : Instr) (d : Device) st res => exec c s = .next (s.withDev (decideEntry d p 0 i st res))
    (∀ a, adminEntry s.dev p i 1 = some a →
      (createBad a.raw = true → ends (.createQueue p i) s.dev 3 []) ∧
      (createBad a.raw = false → (qFind s.dev p (q a)).isSome = true → ends (.createQueue p i) s.dev 0x601 []) ∧
      (createBad a.raw = false → qFind s.dev p (q a) = none → quotaQueues s.dev p ≤ queueCount s.dev p →
        ends (.createQueue p i) s.dev 8 []) ∧
      (createBad a.raw = false → qFind s.dev p (q a) = none → queueCount s.dev p < quotaQueues s.dev p →
        ends (.createQueue p i) { s.dev with queues := sput s.dev.queues (qKey p (q a)) {
          type := lineRead a.raw 0xa 1, base := lineRead a.raw 0x10 8, log2 := lineRead a.raw 0xb 1, cons := 0
          poll := lineRead a.raw 0xc 1 % 2 == 1, msiEn := lineRead a.raw 0xc 1 / 2 % 2 == 1
          msiAddr := lineRead a.raw 0x18 8, msiData := BitVec.ofNat 32 (lineRead a.raw 0x20 4)
          count := lineRead a.raw 0x24 2, timer := lineRead a.raw 0x26 2, enabled := true, closing := false, n := 0
          timerOn := false, error := false, cause := .none, errIndex := 0, due := false, entries := [], skip := []
          kept := [], heldBack := false, msiDue := false } } 0 [])) ∧
    (∀ c ∈ ([(.deleteQueue p i, 2, [(8, 2)]), (.resetQueue p i, 3, [(8, 2), (0xa, 1)]),
        (.abortEntry p i, 4, [(8, 2), (0xa, 2)]),
        (.setModeration p i, 6, [(8, 2), (0xc, 1), (0x18, 8), (0x20, 4), (0x24, 2), (0x26, 2)])] :
          List (Instr × Nat × List (Nat × Nat))),
      ∀ a, adminEntry s.dev p i c.2.1 = some a →
        (lineRead a.raw 8 2 = 0 ∨ 16383 < lineRead a.raw 8 2 ∨ bodyClear a.raw c.2.2 = false → ends c.1 s.dev 3 []) ∧
        (bodyClear a.raw c.2.2 = true → qidBad a.raw = false → (c.2.1 = 3 → lineRead a.raw 0xa 1 ≤ 1) →
          (c.2.1 = 6 → modBad a.raw = false) → qFind s.dev p (q a) = none → ends c.1 s.dev 2 [])) ∧
    (∀ a x, adminEntry s.dev p i 2 = some a → bodyClear a.raw [(8, 2)] = true → qidBad a.raw = false →
      qFind s.dev p (q a) = some x → x.closing = true → (∀ b ∈ x.entries, b.index ∈ x.kept) →
      ends (.deleteQueue p i) { s.dev with queues := sdel s.dev.queues (qKey p (q a)) } 0 []) ∧
    (∀ a x, adminEntry s.dev p i 2 = some a → bodyClear a.raw [(8, 2)] = true → qidBad a.raw = false →
      qFind s.dev p (q a) = some x → x.closing = false → x.entries = [] → x.skip = [] → ∀ d,
      let l := sput s.dev.queues (qKey p (q a)) { x with error := false, cause := .none, kept := [] }
      abortOwned { s.dev with queues := l, waits := false } p (q a) x x.cons (2 ^ x.log2) = (false, d) →
      d.waits = false → d.queues = l →
      ends (.deleteQueue p i) { d with queues := sdel s.dev.queues (qKey p (q a)), waits := s.dev.waits } 0 []) ∧
    (∀ a x, adminEntry s.dev p i 3 = some a → bodyClear a.raw [(8, 2), (0xa, 1)] = true → qidBad a.raw = false →
      lineRead a.raw 0xa 1 = 1 → qFind s.dev p (q a) = some x → x.error = true →
      ends (.resetQueue p i) { s.dev with queues := sput s.dev.queues (qKey p (q a)) { x with
        cons := if x.cause = .malformed then (x.errIndex + 1) % 2 ^ x.log2 else x.errIndex
        error := false, cause := .none, kept := [], due := true } } 0 []) ∧
    (∀ a x, adminEntry s.dev p i 3 = some a → bodyClear a.raw [(8, 2), (0xa, 1)] = true → qidBad a.raw = false →
      lineRead a.raw 0xa 1 = 0 → qFind s.dev p (q a) = some x → x.entries = [] → x.skip = [] → ∀ d,
      let l := sput s.dev.queues (qKey p (q a)) { x with error := false, cause := .none, kept := [] }
      abortOwned { s.dev with queues := l, waits := false } p (q a) x x.cons (2 ^ x.log2) = (false, d) →
      d.waits = false → d.queues = l →
      ends (.resetQueue p i) { d with waits := s.dev.waits, queues := sput s.dev.queues (qKey p (q a)) { x with
        error := false, cause := .none, kept := [], heldBack := false } } 0 []) ∧
    (∀ a x b r, adminEntry s.dev p i 4 = some a → bodyClear a.raw [(8, 2), (0xa, 2)] = true → qidBad a.raw = false →
      qFind s.dev p (q a) = some x →
      takeFirst (fun c : Accepted => lineRead c.raw 2 2 == lineRead a.raw 0xa 2) x.entries = some (b, r) →
      ∃ t c, exec (.abortEntry p i) s = .next t ∧ accFind t.dev p 0 i = some c ∧
        c.outcome = some ⟨if (stopAccepted { s.dev with waits := false } p (q a) x b).1 then 0 else 2, []⟩ ∧
        c.after = some (qKey p (q a), b.index)) ∧
    (∀ a x, adminEntry s.dev p i 4 = some a → bodyClear a.raw [(8, 2), (0xa, 2)] = true → qidBad a.raw = false →
      qFind s.dev p (q a) = some x → (∀ b ∈ x.entries, lineRead b.raw 2 2 ≠ lineRead a.raw 0xa 2) → ∀ d,
      findUnread { s.dev with waits := false } p x (lineRead a.raw 0xa 2) x.cons (2 ^ x.log2) = ((none, false), d) →
      d.waits = false → d.queues = s.dev.queues →
      ∃ t b, exec (.abortEntry p i) s = .next t ∧ accFind t.dev p 0 i = some b ∧ b.outcome = some ⟨2, []⟩ ∧
        t = s.withDev { d with queues := t.dev.queues, waits := s.dev.waits } ∧ qFind t.dev p (q a) = some x) ∧
    (∀ a x, adminEntry s.dev p i 5 = some a → lineRead a.raw 8 2 ≤ 16383 →
      bodyClear a.raw [(8, 2), (0x10, 1), (0x11, 1), (0x12, 2), (0x14, 2), (0x16, 1), (0x17, 1), (0x18, 4),
          (0x1c, 2)] = true →
      qFind s.dev p (q a) = some x →
      ends (.getQueue p i) s.dev 0 [(0x10, 1, if x.error then 2 else 1), (0x11, 1, causeNum x.cause), (0x12, 2, x.cons),
        (0x14, 2, x.errIndex), (0x16, 1, x.type), (0x17, 1, x.log2), (0x18, 4,
            x.entries.countP fun b => !x.skip.contains b.index), (0x1c, 2, x.n)]) ∧
    (∀ a x, adminEntry s.dev p i 6 = some a →
      bodyClear a.raw [(8, 2), (0xc, 1), (0x18, 8), (0x20, 4), (0x24, 2), (0x26, 2)] = true → qidBad a.raw = false →
      modBad a.raw = false → qFind s.dev p (q a) = some x → ends (.setModeration p i) s.dev 0 []) ∧
    (∀ a, adminEntry s.dev p i 7 = some a → lineRead a.raw 8 2 ≤ 255 → lineRead a.raw 0xa 1 ≤ 2 →
        lineRead a.raw 0xb 1 ≤ 1 →
      4 ≤ lineRead a.raw 0xc 1 → lineRead a.raw 0xc 1 ≤ 64 → lineRead a.raw 0xd 1 ≤ 1 →
      bodyClear a.raw [(8, 2), (0xa, 1), (0xb, 1), (0xc, 1), (0xd, 1)] = true →
      let b := namedBank a.raw
      let r := CAM_CFG (b.val / 4) (b.val % 4)
      (bankOf s.dev b.val p.val = false → ends (.camConfig p i) s.dev 0x602 []) ∧
      (bankOf s.dev b.val p.val = true → s.dev.banks[b].retired = true → ends (.camConfig p i) s.dev 0x603 []) ∧
      (bankOf s.dev b.val p.val = true → s.dev.banks[b].retired = false →
        ∃ t, exec (.camConfig p i) s = .next t ∧ regF t.dev r 0 2 = lineRead a.raw 0xa 1 ∧
          regF t.dev r 2 1 = lineRead a.raw 0xb 1 ∧ regF t.dev r 4 7 = lineRead a.raw 0xc 1 ∧
          (lineRead a.raw 0xd 1 = 1 ∨ lineRead a.raw 0xa 1 ≠ bankWidth s.dev b → t.dev.banks[b].ents = []) ∧
          (lineRead a.raw 0xd 1 = 0 → lineRead a.raw 0xa 1 = bankWidth s.dev b → t.dev.banks = s.dev.banks)))

/-! ### Segments (R286, R296 to R304) -/

/-- The commands of a SEGMENT queue on a handle: a body with other bytes, or a handle of more than 40 bits, ends
INVALID_FIELD and a handle that names no segment of the partition NOT_FOUND. UNPIN makes a pinned segment RESIDENT;
PIN pins a resident one within the quota, loses its copy and answers its address; QUERY reports its state, size and
format; PAGE_IN of a resident segment has nothing to do and of a paged one asks the pager. FREE, whose handle has
named nothing for a later request since its acceptance, waits while an instance or a stream holds the segment; then
the segment goes, its index takes its next generation and the entry ends well (R286, R296, R299, R302, R304). -/
def Sys2Proof.Claims.SegmentCommands : Prop :=
  ∀ (s : State) (p : Part) (q : QueueId) (i : Nat), s.dev.phase = .run →
    let ends := fun (c : Instr) (d : Device) st res => exec c s = .next (s.withDev (decideEntry d p q i st res))
    (∀ c ∈ ([(.free p q i, 2, []), (.pin p q i, 3, [(0x18, 8)]), (.unpin p q i, 4, []),
        (.query p q i, 5, [(0x18, 8), (0x20, 1), (0x21, 1), (0x22, 1), (0x23, 1)]), (.pageIn p q i, 6, [])] :
          List (Instr × Nat × List (Nat × Nat))),
      ∀ a, openEntryOf s.dev p q i 5 c.2.1 = some a →
        (2 ^ 40 ≤ lineRead a.raw 0x10 8 ∨ bodyClear a.raw ((0x10, 8) :: c.2.2) = false → ends c.1 s.dev 3 []) ∧
        (lineRead a.raw 0x10 8 < 2 ^ 40 → bodyClear a.raw ((0x10, 8) :: c.2.2) = true →
          (if c.2.1 = 2 then freeHolds s.dev p q a = false else segFor s.dev p a = none) → ends c.1 s.dev 2 [])) ∧
    ∀ (a : Accepted) (g : Segment) (op : Nat), openEntryOf s.dev p q i 5 op = some a →
      let h := lineRead a.raw 0x10 8
      let clear := fun l => h < 2 ^ 40 ∧ bodyClear a.raw ((0x10, 8) :: l) = true ∧ segFor s.dev p a = some g
      let set := fun (y : Segment) => { s.dev with pager := { s.dev.pager with segs := sput s.dev.pager.segs (segKey h) y } }
      (op = 4 → clear [] →
        (g.state = .pinned → ends (.unpin p q i) (set { g with state := .resident }) 0 []) ∧
        (g.state ≠ .pinned → ends (.unpin p q i) s.dev 0x502 [])) ∧
      (op = 3 → clear [(0x18, 8)] → (∀ r ∈ s.dev.pager.ranges, r.reclaiming = false) →
        (g.state = .pinned → ends (.pin p q i) s.dev 0 [(0x18, 8, g.addr)]) ∧
        (g.state ≠ .pinned → pinQ s.dev p < pinnedGran s.dev p + 2 ^ g.sizeK → ends (.pin p q i) s.dev 0x501 []) ∧
        (g.state = .resident ∨ g.state = .movingOut → pinnedGran s.dev p + 2 ^ g.sizeK ≤ pinQ s.dev p →
          ends (.pin p q i) (set { g with state := .pinned, copy := none }) 0 [(0x18, 8, g.addr)])) ∧
      (op = 5 → clear [(0x18, 8), (0x20, 1), (0x21, 1), (0x22, 1), (0x23, 1)] →
        ends (.query p q i) s.dev 0 [(0x18, 8, if g.state = .pinned then g.addr else 0),
          (0x20, 1, match g.state with
            | .resident => 0
            | .paged => 1
            | .movingOut => 2
            | .movingIn => 2
            | .pinned => 3),
          (0x21, 1, g.sizeK), (0x22, 1, g.format), (0x23, 1, g.width)]) ∧
      (op = 6 → clear [] →
        (g.state = .resident ∨ g.state = .pinned → ends (.pageIn p q i) s.dev 0 []) ∧
        (g.state = .paged → s.dev.sched.serving = [] → (∀ t ∈ s.dev.sched.system, t ≠ ⟨.pager, 0, h⟩) →
          ∃ t, exec (.pageIn p q i) s = .next t ∧ t = s.withDev { s.dev with sched := { s.dev.sched with
            system := s.dev.sched.system ++ [⟨.pager, 0, h⟩], sysTable := t.dev.sched.sysTable } })) ∧
      (op = 2 → h < 2 ^ 40 → bodyClear a.raw [(0x10, 8)] = true → segHeld s.dev p.val h = some g → g.freeing = true →
        g.freeBy = some (qKey p q, a.index) →
        (movable s.dev h = false → exec (.free p q i) s = .next s) ∧
        (movable s.dev h = true → ∃ t b, exec (.free p q i) s = .next t ∧ segHeld t.dev p.val h = none ∧
          accFind t.dev p q i = some b ∧ b.outcome = some ⟨0, []⟩ ∧
          sfind t.dev.pager.gens (segKey h) = some ((g.gen + 1) % 2 ^ 14) ∧ t.dev.engines = s.dev.engines ∧
          t.dev.mem = s.dev.mem))

/-- ALLOC that passes its checks and has a free block in its quadrant makes a segment of its size, format and width
there, with a handle that named none, and answers the handle; a check that fails ends it with that check's status
(R286, R298 to R302). -/
def Sys2Proof.Claims.SegmentAllocation : Prop :=
  ∀ (s : State) (p : Part) (q : QueueId) (i pick blk : Nat) (a : Accepted), s.dev.phase = .run →
    openEntryOf s.dev p q i 5 1 = some a →
    (allocStatus s.dev p a.raw ≠ 0 → exec (.alloc p q i pick blk) s = .next (s.withDev
      (decideEntry s.dev p q i (allocStatus s.dev p a.raw) []))) ∧
    (allocStatus s.dev p a.raw = 0 → ∀ dst, choosePlace (allocPlaces s.dev p a.raw) blk = some dst →
      windowWait s.dev dst.2 = [] → (segsOf s.dev p).length < segMax s.dev p →
      (∀ k g, (k, g) ∈ s.dev.pager.segs → g.part.val * 2 ^ 20 < k ∧ k < g.part.val * 2 ^ 20 + 2 ^ 20) →
      ∃ t k g o b, exec (.alloc p q i pick blk) s = .next t ∧ sfind s.dev.pager.segs k = none ∧
        sfind t.dev.pager.segs k = some g ∧ (∀ j, j ≠ k → sfind t.dev.pager.segs j = sfind s.dev.pager.segs j) ∧
        g.part = p ∧ g.sizeK = lineRead a.raw 8 1 ∧ g.format = lineRead a.raw 9 1 ∧ g.width = lineRead a.raw 0xa 1 ∧
        g.granules = dst.2 ∧ g.gen = sget s.dev.pager.gens k 0 ∧
        g.state = (if lineRead a.raw 0xb 1 % 2 = 1 then .pinned else .resident) ∧
        accFind t.dev p q i = some b ∧ b.outcome = some o ∧ o.status = 0 ∧
        (0x10, 8, handleOf p.val g.gen (k - p.val * 2 ^ 20)) ∈ o.results)

/-! ### The pager (R292 to R313) -/

/-- A FREE that waits releases its segment once no instance and no stream holds it: the handle names nothing, the
index takes its next generation, and the entry that waited ends well; while one holds it nothing happens (R159, R296,
R302). A victim that has a copy gives up its granules and becomes PAGED; one without is first marked as moving; a
segment that is no victim stays (R307, R308). -/
def Sys2Proof.Claims.SegmentsLeave : Prop :=
  ∀ (s : State) (h : Nat) (g : Segment), s.dev.phase = .run → segHeld s.dev (hPart h) h = some g →
    (g.freeing = true → movable s.dev h = false → exec (.segmentFreeRelease h) s = .next s) ∧
    (g.freeing = true → movable s.dev h = true →
      ∃ t, exec (.segmentFreeRelease h) s = .next t ∧ segHeld t.dev (hPart h) h = none ∧
        sfind t.dev.pager.gens (segKey h) = some ((g.gen + 1) % 2 ^ 14) ∧ t.dev.mem = s.dev.mem ∧
        t.dev.engines = s.dev.engines ∧ (∀ j, j ≠ segKey h → sfind t.dev.pager.segs j = sfind s.dev.pager.segs j) ∧
        ∀ (p : Part) (q : QueueId) (i : Nat) (a : Accepted), g.freeBy = some (qKey p q, i) →
          accFind s.dev p q i = some a → a.outcome = none →
          ∃ b, accFind t.dev p q i = some b ∧ b.outcome = some ⟨0, []⟩) ∧
    (g.freeing = false → exec (.segmentFreeRelease h) s = .next s) ∧
    (∀ k k2 mis, g.state = .resident → isVictim (markActive s.dev g.part) h g = true →
      inReclaim (markActive s.dev g.part) g = false → inRetired (markActive s.dev g.part) g = false →
      partFrozen s.dev g.part = false → outServed (markActive s.dev g.part) g = true →
      (g.copy.isSome = true → ∃ t y, exec (.pageOut h k k2 mis) s = .next t ∧
        sfind t.dev.pager.segs (segKey h) = some y ∧ y = { g with state := .paged, granules := [], avoid := false } ∧
        (∀ j, j ≠ segKey h → sfind t.dev.pager.segs j = sfind s.dev.pager.segs j) ∧ t.dev.mem = s.dev.mem) ∧
      (g.copy = none → ∃ t, exec (.pageOut h k k2 mis) s = .next t ∧
        sfind t.dev.pager.segs (segKey h) = some { g with state := .movingOut } ∧
        (∀ j, j ≠ segKey h → sfind t.dev.pager.segs j = sfind s.dev.pager.segs j) ∧ t.dev.mem = s.dev.mem)) ∧
    (∀ k k2 mis, g.state = .paged ∨ g.state = .pinned → ∃ t, exec (.pageOut h k k2 mis) s = .next t ∧
      t.dev.pager.segs = s.dev.pager.segs ∧ t.dev.mem = s.dev.mem)

/-- The pager's service of a paged segment takes a free block of its quadrant and marks the segment as moving in, or
asks for space; once its data have come from its copy the segment is RESIDENT, and keeps the copy unless an instance
holds it as its output (R304, R306, R310). The oldest copy of a tier that has no room, or whose range is reclaimed,
leaves it for another range or the ledger; a copy that need not leave stays (R309). -/
def Sys2Proof.Claims.SegmentsReturn : Prop :=
  ∀ (s : State) (h : Nat) (g : Segment), s.dev.phase = .run → segHeld s.dev (hPart h) h = some g →
    (∀ k pick fl, pageInWork h ∉ s.dev.sched.serving → exec (.pagerPageIn h k pick fl) s = .next s) ∧
    (∀ k pick fl, pageInWork h ∈ s.dev.sched.serving → g.state = .paged → partFrozen s.dev g.part = false →
      allocPends s.dev g.part = false →
      let places := placesOf s.dev g.part (kindOf g) (some g.quad) g.sizeK
      (∀ dst, choosePlace places pick = some dst → windowWait s.dev dst.2 = [] →
        ∃ t, exec (.pagerPageIn h k pick fl) s = .next t ∧
          sfind t.dev.pager.segs (segKey h) = some { g with state := .movingIn, granules := dst.2, addr := dst.1 } ∧
          (∀ j, j ≠ segKey h → sfind t.dev.pager.segs j = sfind s.dev.pager.segs j) ∧ t.dev.mem = s.dev.mem) ∧
      (places = [] → ∃ t, exec (.pagerPageIn h k pick fl) s = .next t ∧
        (⟨g.part, kindOf g, g.quad, g.sizeK⟩ : Want) ∈ t.dev.pager.wants ∧ t.dev.pager.segs = s.dev.pager.segs)) ∧
    (∀ k pick fl c, pageInWork h ∈ s.dev.sched.serving → g.state = .movingIn → g.copy = some c →
      (cxlOf g = [] → ldgState s.dev ≠ 3 ∧ (noCodec s.dev = true ∨ codecFree s.dev k = true)) →
      (fillIn { s.dev with waits := false } g k fl).waits = false →
      (∀ x ∈ s.dev.sched.insts, h ∈ x.2.held → x.2.unread = []) →
      ∃ t, exec (.pagerPageIn h k pick fl) s = .next t ∧
        sfind t.dev.pager.segs (segKey h) = some { g with
          state := .resident, copy := if outputOf s.dev h then none else g.copy } ∧
        (s.dev.sched.serving.Nodup → pageInWork h ∉ t.dev.sched.serving)) ∧
    (∀ k k2 mis, cxlNext s.dev h g = false → exec (.cxlTierMove h k k2 mis) s = .next s) ∧
    (∀ k k2 mis dst, cxlNext s.dev h g = true → copyInReclaim s.dev g = true → partFrozen s.dev g.part = false →
      (placesOf s.dev g.part 2 none g.sizeK).head? = some dst →
      (copyGranules { s.dev with waits := false } g.part (cxlOf g) dst.2).waits = false →
      ∃ t, exec (.cxlTierMove h k k2 mis) s = .next t ∧
        sfind t.dev.pager.segs (segKey h) = some { g with copy := some (.cxl dst.2) } ∧
        ∀ j, j ≠ segKey h → sfind t.dev.pager.segs j = sfind s.dev.pager.segs j)

/-- A segment on its way out ends there once its data have been read: in granules of the partition's CXL tier where it
has room, else in the ledger, compressed, where the ledger can take it; a poisoned line, or two codecs that each fail
their check, leave it RESIDENT, to be avoided (R308, R309, R459, R460). A victim whose range is reclaimed, or one of
whose granules is retired, moves to other granules of its quadrant where there are any (R295, R312). A copy that
leaves the CXL tier for the ledger is compressed in the same way, and stays where it cannot be (R309). -/
def Sys2Proof.Claims.PageOuts : Prop :=
  ∀ (s : State) (h : Nat) (g : Segment) (k k2 : CodecId) (mis : Nat), s.dev.phase = .run →
    segHeld s.dev (hPart h) h = some g →
    let d := { s.dev with waits := false }
    let becomes := fun (i : Instr) (x : Segment) => ∃ t, exec i s = .next t ∧
      sfind t.dev.pager.segs (segKey h) = some x ∧
      ∀ j, j ≠ segKey h → sfind t.dev.pager.segs j = sfind s.dev.pager.segs j
    let ledgerTakes := fun (d : Device) (i : Instr) (data : List Nat) (fails : Segment) (kept : SegCopy → Segment) =>
      (∀ bs e, compressOn (pauseTest d) k k2 mis (outWidth g) data = (some bs, e) →
        regionUsed d + bs.foldl (fun n b => n + b.bytes.length) 0 ≤ pagerGib d * 2 ^ 30 →
            becomes i (kept (.ledger bs))) ∧
      (∀ e, compressOn (pauseTest d) k k2 mis (outWidth g) data = (none, e) → becomes i fails)
    (g.state = .movingOut →
      let x := granulesRead (markActive d g.part) g.part g.granules
      x.2.waits = false →
      (x.1.2 = true → becomes (.pageOut h k k2 mis) { g with state := .resident, avoid := true }) ∧
      (x.1.2 = false → ∀ dst, (placesOf x.2 g.part 2 none g.sizeK).head? = some dst →
        (copyGranules x.2 g.part g.granules dst.2).waits = false →
        becomes (.pageOut h k k2 mis)
          { g with state := .paged, granules := [], copy := some (.cxl dst.2), avoid := false }) ∧
      (x.1.2 = false → placesOf x.2 g.part 2 none g.sizeK = [] → ldgWritable x.2 = true →
        noCodec x.2 = true ∨ (codecFree x.2 k = true ∧ codecFree x.2 k2 = true) →
        ledgerTakes x.2 (.pageOut h k k2 mis) x.1.1 { g with state := .resident, avoid := true } fun c =>
          { g with state := .paged, granules := [], copy := some c, avoid := false })) ∧
    (g.state = .resident → isVictim (markActive d g.part) h g = true → partFrozen s.dev g.part = false →
      inReclaim (markActive d g.part) g = true ∨ inRetired (markActive d g.part) g = true →
      allocPends (markActive d g.part) g.part = false →
      ∀ dst, (placesOf (markActive d g.part) g.part (kindOf g) (some g.quad) g.sizeK).head? = some dst →
      windowWait (markActive d g.part) dst.2 = [] →
      (copyGranules (markActive d g.part) g.part g.granules dst.2).waits = false →
      becomes (.pageOut h k k2 mis) { g with granules := dst.2, addr := dst.1 }) ∧
    (cxlNext d h g = true → partFrozen s.dev g.part = false →
      copyInReclaim d g = false ∨ placesOf d g.part 2 none g.sizeK = [] →
      let x := granulesRead d g.part (cxlOf g)
      x.2.waits = false → x.1.2 = false → ldgWritable x.2 = true →
      noCodec x.2 = true ∨ (codecFree x.2 k = true ∧ codecFree x.2 k2 = true) →
      ledgerTakes x.2 (.cxlTierMove h k k2 mis) x.1.1 { g with avoid := true } fun c => { g with copy := some c })

/-- A PGR_DON_CMD write with GO that asks for a donation adds the range to the heap when every check holds and says so
in PGR_DON_STAT; a check that fails gives FAILED with its cause and no range; a reclaim of a range that nothing
occupies takes it out again, and one of a range that is not there fails with cause 7; while an operation runs nothing
starts. The fields are those that PGR_DON_CMD holds after the write, whichever half it carries. A write of PGR_CTL
sets both watermarks, or, out of their ranges, neither (R292 to R295, R313). -/
def Sys2Proof.Claims.Donation : Prop :=
  ∀ (s : State) (w : RegAccess),
    let v := regGet (regWrite s.dev.regs PGR_DON_CMD w) PGR_DON_CMD
    let p : Part := ⟨field v 0 6 % 64, Nat.mod_lt _ (by omega)⟩
    let n := field v 8 24
    let kind := field v 32 2
    let iova := regF s.dev PGR_DON_IOVA 16 48 * 65536
    let reads := fun (t : State) st cause => regF t.dev PGR_DON_STAT 0 2 = st ∧ regF t.dev PGR_DON_STAT 8 8 = cause ∧
      regF t.dev PGR_DON_STAT 16 24 = 0 ∧ ∀ y, y ≠ PGR_DON_STAT → y ≠ PGR_DON_CMD → reg t.dev y = reg s.dev y
    (strobe w 63 = false → exec (.donate w) s = .next s ∧ exec (.reclaim w) s = .next s) ∧
    (s.dev.TakesWrite PGR_DON_CMD w.agent → strobe w 63 = true → regF s.dev PGR_DON_STAT 0 2 = 1 →
      let t := s.withDev { s.dev with regs := regWrite s.dev.regs PGR_DON_CMD w }
      (field v 34 2 = 1 → exec (.donate w) s = .next t) ∧ (field v 34 2 = 2 → exec (.reclaim w) s = .next t)) ∧
    (s.dev.TakesWrite PGR_DON_CMD w.agent → strobe w 63 = true → regF s.dev PGR_DON_STAT 0 2 ≠ 1 → field v 34 2 = 1 →
      exec (.reclaim w) s = .next s ∧
      (n = 0 ∨ kind = 3 ∨ (kind = 1 ∧ n % 2 = 1) → ∃ t, exec (.donate w) s = .next t ∧ reads t 3 11 ∧
        t = s.withDev { s.dev with regs := t.dev.regs }) ∧
      (0 < n → kind ≠ 3 → (kind = 1 → n % 2 = 0) → ∀ c, granList s.dev p iova n = .error c → ∃ t,
        exec (.donate w) s = .next t ∧ regF t.dev PGR_DON_STAT 0 2 = 3 ∧ regF t.dev PGR_DON_STAT 8 8 = c ∧
        t.dev.pager.ranges = s.dev.pager.ranges ∧ (c = 3 → reads t 3 c ∧
            t = s.withDev { s.dev with regs := t.dev.regs })) ∧
      (0 < n → kind ≠ 3 → (kind = 1 → n % 2 = 0) → ∀ gs, granList s.dev p iova n = .ok gs →
        (donChecks s.dev p kind iova n gs ≠ 0 → ∃ t, exec (.donate w) s = .next t ∧
          reads t 3 (donChecks s.dev p kind iova n gs) ∧ t = s.withDev { s.dev with regs := t.dev.regs }) ∧
        (donChecks s.dev p kind iova n gs = 0 → ∃ t, exec (.donate w) s = .next t ∧ reads t 2 0 ∧
          t.dev.pager.ranges = s.dev.pager.ranges ++ [⟨p, kind, iova, gs, false⟩] ∧
          t.dev.pager.segs = s.dev.pager.segs ∧ t.dev.mem = s.dev.mem ∧ t.dev.engines = s.dev.engines ∧
          t.dev.mirrors = s.dev.mirrors ++ if kind = 1 then
            ((gs.take (n / 2)).zip (gs.drop (n / 2))).map fun x => ⟨x.1, x.2⟩ else []))) ∧
    (s.dev.TakesWrite PGR_DON_CMD w.agent → strobe w 63 = true → regF s.dev PGR_DON_STAT 0 2 ≠ 1 → field v 34 2 = 2 →
      exec (.donate w) s = .next s ∧
      ((∀ r ∈ s.dev.pager.ranges, r.part = p → r.iova ≠ iova) → ∃ t, exec (.reclaim w) s = .next t ∧ reads t 3 7 ∧
        t = s.withDev { s.dev with regs := t.dev.regs }) ∧
      (∀ r rest, s.dev.pager.ranges = r :: rest → r.part = p → r.iova = iova →
        (∀ x ∈ rest, x.part ≠ p ∨ x.iova ≠ iova) → (∀ x ∈ rest, x.reclaiming = false) → blocking s.dev r = 0 →
        (sget s.dev.pager.saves p.val []).length = saveGran s.dev p →
        (∀ x ∈ sget s.dev.pager.saves p.val [], x ∉ r.granules) →
        ∃ t, exec (.reclaim w) s = .next t ∧ reads t 2 0 ∧ t.dev.pager.ranges = rest ∧
          t.dev.pager.segs = s.dev.pager.segs ∧ t.dev.mem = s.dev.mem)) ∧
    (s.dev.TakesWrite PGR_CTL w.agent → let m := regGet (regWrite s.dev.regs PGR_CTL w) PGR_CTL
      let lo := field m 0 8
      let hi := field m 8 8
      ∃ t, exec (.pgrCtlWrite w) s = .next t ∧ t = s.withDev { s.dev with regs := t.dev.regs, pager := t.dev.pager } ∧
        (∀ y, y ≠ PGR_CTL → reg t.dev y = reg s.dev y) ∧
            t.dev.pager = { s.dev.pager with active := t.dev.pager.active } ∧
        regF t.dev PGR_CTL 16 4 = field m 16 4 ∧ regF t.dev PGR_CTL 63 1 = field m 63 1 ∧
        (1 ≤ lo ∧ lo ≤ 50 ∧ hi ≤ 60 ∧ lo < hi → regF t.dev PGR_CTL 0 8 = lo ∧ regF t.dev PGR_CTL 8 8 = hi) ∧
        (¬ (1 ≤ lo ∧ lo ≤ 50 ∧ hi ≤ 60 ∧ lo < hi) → regF t.dev PGR_CTL 0 8 = regF s.dev PGR_CTL 0 8 ∧
          regF t.dev PGR_CTL 8 8 = regF s.dev PGR_CTL 8 8))

/-! ### Codecs and the digest engine (R449 to R470, R477, R287 to R289) -/

/-- Every block that the encoder writes decodes to its input and to its own length, whatever follows it, at every
element width (R450 to R454). -/
def Obligations.CodecRoundTrip : Prop :=
  ∀ (e : Nat) (l rest : List Byte), e ∈ [1, 2, 4, 5, 8] → l ≠ [] → l.length ≤ 65536 →
    decodeBlock (blockBytes (encodeBlock e l) ++ rest) = some (l, (blockBytes (encodeBlock e l)).length)

/-- A free codec takes the oldest entry it may run of a waiting partition whose bytes served are least for its weight;
one that is busy or retired takes none. A job whose checks fail ends with the check's status; one that runs writes the
blocks of its input, or the decoded output, into its chain, counts its bytes for the codec and the partition, frees
the codec and decides its entry, with 0x301 where a write of the chain faults; a block that fails its check sends a
COMPRESS to another codec, and a second time ends it with status 7; a DECOMPRESS that stops at a bad block ends with
the status of that block, and the rest of its chain holds unspecified bytes; with no codec in service a job ends
CODEC_UNAVAILABLE (R455 to R460, R477). -/
def Obligations.CodecJobs : Prop :=
  ∀ (s : State) (k : CodecId), s.dev.phase = .run →
    (codecFree s.dev k = false → exec (.codecDispatch k) s = .next s) ∧
    (codecFree s.dev k = true → (∀ p, codecWaiting s.dev p k ≠ [] → 0 < codecWeight s.dev p) →
      (∃ p, codecWaiting s.dev p k ≠ []) →
      ∃ p n j, exec (.codecDispatch k) s = .next (s.withDev { s.dev with codecs := s.dev.codecs.set k.val (some j) }) ∧
        (n, j) ∈ codecWaiting s.dev p k ∧ (∀ x ∈ codecWaiting s.dev p k, n ≤ x.1) ∧
        ∀ o, codecWaiting s.dev o k ≠ [] →
          servedOf s.dev p * codecWeight s.dev o ≤ servedOf s.dev o * codecWeight s.dev p) ∧
    ∀ (p : Part) (q : QueueId) (i : Nat) (a : Accepted) (mis : Bool), ∀ c ∈ ([(.compress p q i mis, 1),
        (.decompress p q i, 2)] :
        List (Instr × Nat)), openEntryOf s.dev p q i 3 c.2 = some a →
      let ends := fun (d : Device) st used out last => exec c.1 s = .next (s.withDev {
        endCodec d ⟨p, q, i⟩ st used out last with waits := s.dev.waits })
      let checks := codecChecks { s.dev with waits := false } p a.raw (c.2 == 1)
      (noCodec s.dev = true → ends s.dev 0x302 0 0 0) ∧
      (noCodec s.dev = false → codecOf s.dev p q i = none → exec c.1 s = .next s) ∧
      (noCodec s.dev = false → codecOf s.dev p q i = some k →
        (∀ st d, checks = (.fails st, d) → d.waits = false → ends d st 0 0 0) ∧
        (∀ caps src d, checks = (.runs caps src, d) → d.waits = false →
          (c.2 = 1 → let r := packInput (lineRead a.raw 8 1) src (caps.map (·.2))
            let b := if r.out.isEmpty then (false, d) else blockMismatch d k mis
            (b.1 = true → a.failedOn.isSome = true → ends (codecMismatch b.2 k) 7 0 0 0) ∧
            (b.1 = true → a.failedOn = none → ∃ t, exec c.1 s = .next t ∧ t.dev.codecs[k] = none ∧
              accFind t.dev p q i = some { a with failedOn := some k }) ∧
            (b.1 = false → ∀ d',
              let w := writeOutput b.2 p (r.out.map fun o => ((caps[o.1]?.getD (0, 0)).1 + o.2.1, o.2.2))
              (w = (true, d') → d'.waits = false → ends (codecBytes d' k (some p) r.used r.size) (if r.done then
                  0 else 5)
                r.used r.size (if r.out.isEmpty then 0 else r.last)) ∧
              (w = (false, d') → d'.waits = false → ends d' 0x301 0 0 0))) ∧
          (c.2 = 2 → let r := unpackInput src (caps.foldl (fun n c => n + c.2) 0)
            let f := fillBuffers r.1 caps
            ∀ d', (writeOutput d p f.1 = (false, d') → d'.waits = false → ends d' 0x301 0 0 0) ∧
              (writeOutput d p f.1 = (true, d') →
                let e := if r.2.2 = 0 then d' else freeBuffers d' p f.2
                e.waits = false →
                ends (codecBytes e k (some p) r.2.1 r.1.length) r.2.2 r.2.1 r.1.length (f.1.length - 1)))))

/-- In register mode a slot page that is assigned and no other requester's, with no permutation running, takes START
from zero or the keyed state, SQUEEZE and DATA, which absorbs a word and at the end of a block starts a permutation,
SAVE, COMPARE and RELEASE; each write makes the page the owner. While a permutation runs a write sets OVERRUN alone; a
page that another requester owns only records the foreign write; a slot that is not assigned takes none, and a write
that does not carry a command's bit is not that command. A permutation ends with the permuted state; a new assignment
clears the slot (R461 to R465, R468, R470). -/
def Sys2Proof.Claims.DigestSlots : Prop :=
  ∀ (s : State) (k : SlotId) (w : RegAccess),
    let x := s.dev.slots[k]
    let v := (carried w 0 16).getD 0
    let cmds : List (Instr × Nat) :=
      [(.dgstStart k w, 0), (.dgstSqueeze k w, 1), (.dgstSave k w, 2), (.dgstCompare k w, 3), (.dgstRelease k w, 4)]
    let own := { x with owner := .page }
    let set := fun (y : Slot) => s.withDev { s.dev with slots := s.dev.slots.set k.val y }
    (∀ c ∈ cmds, v.testBit c.2 = false ∨ (s.dev.TakesWrite (DGST_SCTL k.val) w.agent ∧ slotAssigned s.dev k = false) →
      exec c.1 s = .next s) ∧
    (s.dev.TakesWrite (DGST_SCTL k.val) w.agent → slotAssigned s.dev k = true →
      (∀ c ∈ cmds, v.testBit c.2 = true →
        (x.owner = .queue ∨ x.owner = .warden → ∃ t, exec c.1 s = .next t ∧ s.onlyRegs t [DGST_ERR] ∧
          regF t.dev DGST_ERR 0 1 = 1 ∧ regF t.dev DGST_ERR 1 4 = k.val) ∧
        (x.owner = .none ∨ x.owner = .page → x.busy = true → ∃ t, exec c.1 s = .next t ∧
          s.onlyRegs t [DGST_SSTAT k.val] ∧ regF t.dev (DGST_SSTAT k.val) 1 1 = 1)) ∧
      (x.owner = .none ∨ x.owner = .page → x.busy = false →
        (v % 32 = 1 → ∃ t, exec (.dgstStart k w) s = .next t ∧
          (set { own with
            lanes := if v / 32 % 2 = 1 then x.keyed.getD (Vector.replicate 25 0) else Vector.replicate 25 0
            count := 0, alg := v / 64 % 4 }).onlyRegs t [DGST_CMP_A k.val, DGST_CMP_B k.val, DGST_SSTAT k.val] ∧
          regF t.dev (DGST_CMP_A k.val) 0 8 = 0 ∧ regF t.dev (DGST_CMP_B k.val) 0 8 = 0) ∧
        (v % 32 = 2 → exec (.dgstSqueeze k w) s = .next (set { own with busy := true })) ∧
        (v % 32 = 4 → exec (.dgstSave k w) s = .next (set { own with keyed := some x.lanes })) ∧
        (v % 32 = 8 → v / 256 % 256 < 128 → ∃ t, exec (.dgstCompare k w) s = .next t ∧
          (set own).onlyRegs t [DGST_CMP_A k.val, DGST_CMP_B k.val] ∧
          (let same := (laneBytes x.lanes).take (v / 256 % 256 + 1) = expBytes s.dev k (v / 256 % 256 + 1)
           (same → regF t.dev (DGST_CMP_A k.val) 0 8 = 0xa5 ∧ regF t.dev (DGST_CMP_B k.val) 0 8 = 0x5a) ∧
           (¬ same → regF t.dev (DGST_CMP_A k.val) 0 8 = 0x5a ∧ regF t.dev (DGST_CMP_B k.val) 0 8 = 0xa5))) ∧
        (v % 32 = 16 → exec (.dgstRelease k w) s = .next (set { x with
          lanes := Vector.replicate 25 0, count := 0, keyed := none, owner := .none, busy := false })))) ∧
    (s.dev.TakesWrite (DGST_DATA k.val) w.agent → slotAssigned s.dev k = true → x.owner = .none ∨ x.owner = .page →
      (x.busy = false → w.part = .whole → exec (.dgstDataWrite k w) s = .next (set { own with
        lanes := xorLane x.lanes x.count w.value, count := x.count + 1
        busy := x.count + 1 == (if x.alg = 1 then 72 else 136) / 8 })) ∧
      (x.busy = false → w.part ≠ .whole → exec (.dgstDataWrite k w) s = .next (set own)) ∧
      (x.busy = true → ∃ t, exec (.dgstDataWrite k w) s = .next t ∧ s.onlyRegs t [DGST_SSTAT k.val] ∧
        regF t.dev (DGST_SSTAT k.val) 1 1 = 1)) ∧
    (s.dev.phase = .run → x.busy = true → ∃ t, exec (.permutationComplete k) s = .next t ∧
      (set { x with
        lanes := keccakF x.lanes, busy := false
        count := if x.count = (if x.alg = 1 then 72 else 136) / 8 then 0 else x.count }).onlyRegs t [DGST_EVT] ∧
      regF t.dev DGST_EVT 0 64 = (regF s.dev DGST_EVT 0 64 + 1) % 2 ^ 64) ∧
    (s.dev.phase = .run → x.busy = false → exec (.permutationComplete k) s = .next s) ∧
    (s.dev.TakesWrite (DGST_SLOT k.val) w.agent → (k.val = 15 → exec (.dgstSlotAssign k w) s = .next s) ∧
      (k.val ≠ 15 → regF s.dev (DGST_SLOT k.val) 0 7 = (carried w 0 7).getD (regF s.dev (DGST_SLOT k.val) 0 7) →
        ∃ t, exec (.dgstSlotAssign k w) s = .next t ∧ s.onlyRegs t [DGST_SLOT k.val] ∧
          regF t.dev (DGST_SLOT k.val) 0 7 = regF s.dev (DGST_SLOT k.val) 0 7) ∧
      (∀ y, k.val ≠ 15 → carried w 0 7 = some y → regF s.dev (DGST_SLOT k.val) 0 7 ≠ y →
        ∃ t, exec (.dgstSlotAssign k w) s = .next t ∧ (set ⟨Vector.replicate 25 0, 0, 0, none, .none, false⟩).onlyRegs t
          [DGST_SLOT k.val] ∧ regF t.dev (DGST_SLOT k.val) 0 7 = y))

/-- A HASH starts from zero, or for KMAC256 from the keyed state of its slot, reads its message, counts the
permutations, and with COMPARE holds its digest against the expected one: a match and a mismatch show in the two
flags, and a mismatch ends it with status 7; it then writes its digest where one is asked and ends well. One whose
body breaks R288 ends INVALID_FIELD, and one whose reads fault or meet poison ends with their status. LOAD_KEY leaves
the keyed state of its customization and key in the slot of its partition, and RELEASE clears it; a slot that another
requester owns gives its status and only records that (R288, R289, R463, R466, R467). -/
def Sys2Proof.Claims.DigestQueues : Prop :=
  ∀ (s : State) (p : Part) (q : QueueId) (i : Nat) (a : Accepted), s.dev.phase = .run →
    let ends := fun (c : Instr) (d : Device) st (f : Nat × Nat) => exec c s = .next (s.withDev {
      decideEntry d p q i st [(0x38, 1, f.1), (0x39, 1, f.2)] with waits := s.dev.waits })
    let now := { s.dev with waits := false }
    let k : SlotId := ⟨lineRead a.raw 9 1 % 16, Nat.mod_lt _ (by omega)⟩
    (openEntryOf s.dev p q i 4 2 = some a →
      let ends := ends (.hash p q i)
      let n := lineRead a.raw 0x28 4
      let out := lineRead a.raw 0x20 8
      let alg := lineRead a.raw 8 1
      (hashBad a.raw = true → ends s.dev 3 (0, 0)) ∧
      (hashBad a.raw = false →
        (∀ st d, hashFrom now p a.raw = ((none, st), d) → ends d st (0, 0)) ∧
        (alg < 3 → hashFrom now p a.raw = ((some (Vector.replicate 25 0), 0), now)) ∧
        ∀ x z d, hashFrom now p a.raw = ((some x, z), d) →
          let msg := dgstRead d p (lineRead a.raw 0x10 8) (lineRead a.raw 0x18 8)
          (∀ st e, msg = ((none, st), e) → e.waits = false → ends e st (0, 0)) ∧
          (∀ m z e, msg = ((some m, z), e) →
            let rate := if alg = 1 then 72 else 136
            let len := if alg = 3 then m.length + (rightEncode (8 * n)).length else m.length
            let dig := digestOf alg x m n
            let e := incReg (if alg = 3 then updSlot e k fun y => { y with
              lanes := kmacState x m n, count := 0, alg := 3 } else e) DGST_EVT 0 64 (len / rate + 1 + (n - 1) / rate)
            let writes := fun (d : Device) f => (out = 0 → d.waits = false → ends d 0 f) ∧
              (out ≠ 0 → badPage d p out n = none → ∀ t, ioWrite d p out n (ofBytes dig) = (true, t) → t.waits = false →
                ends t 0 f)
            (lineRead a.raw 0xa 1 = 0 → writes e (0, 0)) ∧
            (lineRead a.raw 0xa 1 = 1 → ∀ y z d, dgstRead e p (lineRead a.raw 0x30 8) n = ((some y, z), d) →
              (y = dig → writes d (0xa5, 0x5a)) ∧ (y ≠ dig → d.waits = false → ends d 7 (0x5a, 0xa5)))))) ∧
    (∀ c ∈ ([(.loadKey p q i, 1), (.release p q i, 3)] : List (Instr × Nat)), openEntryOf s.dev p q i 4 c.2 = some a →
      let good := if c.2 = 1 then bodyClear a.raw [(9, 1), (0x10, 8), (0x18, 8), (0x20, 8), (0x28, 8)] = true ∧
          0 < lineRead a.raw 0x18 8 ∧ lineRead a.raw 0x18 8 ≤ 256 ∧ lineRead a.raw 0x28 8 ≤ 256
        else bodyClear a.raw [(9, 1)] = true
      (¬ good → ends c.1 s.dev 3 (0, 0)) ∧
      (good → 15 < lineRead a.raw 9 1 ∨ slotOf s.dev k p = false → ends c.1 s.dev 3 (0, 0)) ∧
      (good → lineRead a.raw 9 1 ≤ 15 → slotOf s.dev k p = true →
        s.dev.slots[k].owner = .page ∨ s.dev.slots[k].owner = .warden →
        ∃ d, ends c.1 d 0xc (0, 0) ∧ s.onlyRegs (s.withDev d) [DGST_ERR] ∧ regF d DGST_ERR 0 1 = 1) ∧
      (good → lineRead a.raw 9 1 ≤ 15 → slotOf s.dev k p = true →
        s.dev.slots[k].owner = .none ∨ s.dev.slots[k].owner = .queue →
        (c.2 = 3 → ends c.1 { s.dev with slots := s.dev.slots.set k.val { s.dev.slots[k] with
          lanes := Vector.replicate 25 0, count := 0, keyed := none, owner := .none, busy := false } } 0 (0, 0)) ∧
        (c.2 = 1 → let own := s.dev.slots.set k.val { s.dev.slots[k] with owner := .queue }
          let cust := dgstRead { now with slots := own } p (lineRead a.raw 0x20 8) (lineRead a.raw 0x28 8)
          (∀ st d, cust = ((none, st), d) → d.waits = false → ends c.1 d st (0, 0)) ∧
          (∀ x z d, cust = ((some x, z), d) →
            let key := dgstRead d p (lineRead a.raw 0x10 8) (lineRead a.raw 0x18 8)
            (∀ st d, key = ((none, st), d) → d.waits = false → ends c.1 d st (0, 0)) ∧
            (∀ y z d, key = ((some y, z), d) → d.waits = false → d.slots = own →
              ∃ e, ends c.1 e 0 (0, 0) ∧ e.slots[k].keyed = some (kmacKeyed x y) ∧
                e.slots[k].owner = .queue ∧ e = { d with slots := e.slots, regs := e.regs })))))

/-! ### The general cores (R338, R344 to R358, R367, R372 to R385) -/

/-- A hart of a running part that executes instructions. -/
structure Sys2Proof.Machine.HartRuns (s : State) (h : Hart) : Prop where
  run : s.dev.phase = .run
  awake : s.dev.harts[h].held = false ∧ s.dev.harts[h].idle = .running

/-- A core load or store. An aligned store of main memory enters the store buffer; an aligned load of a line the hart
holds returns its bytes with the hart's own waiting stores laid over them. An access that crosses a 16-byte boundary
is made as two pieces, the lower one first; a failed check of either gives its exception, with the address of that
piece, and neither a register nor memory is written; a piece that leaves main memory for I/O is one. A poisoned line
gives a hardware error, and an address that is neither memory nor I/O an access fault; any other line comes from its
slice or the memory behind it first. A device answers a load, and a posted store to one that has failed is recorded by
its port; an interrupt file takes an aligned word as a message and reads as 0. An element of a vector access leaves
vstart at its number when it traps, and the instruction retires with its last element, vstart 0 (R344, R347 to R349,
R351, R357, R372, R373). -/
def Sys2Proof.Claims.CoreLoadsAndStores : Prop :=
  ∀ (s : State) (h : Hart) (acc : CoreAccess), HartRuns s h → acc.size ∈ [1, 2, 4, 8] →
    let n := acc.size
    let k := 16 - acc.va % 16
    let crosses := k < n
    let i := if acc.va % n = 0 then Instr.coreLoadStore h acc else Instr.coreMisalignedAccess h acc
    let d := if crosses then hpmCount s.dev h 6 else s.dev
    let done := fun (f : HartState → HartState) (d : Device) => exec i s = .next (s.withDev { updHart d h fun x =>
      match acc.elem with
      | none => { f x with instret := x.instret + 1 }
      | some v => if v.last then { csrPut (f x) 8 0 with instret := x.instret + 1 } else f x
      with waits := s.dev.waits })
    let trapsIn := fun (d : Device) (c va : Nat) => exec i s = .next (s.withDev { coreTrap (match acc.elem with
      | none => d
      | some v => updHart d h fun x => csrPut x 8 (BitVec.ofNat 64 v.k)) h c va with waits := s.dev.waits })
    let traps := trapsIn d
    let now := { d with waits := false }
    let stores := fun (l : List CoreStore) => done (fun x => { x with sb := x.sb ++ l }) d
    let loads := fun (v : Nat) => done (fun x => { x with loaded := BitVec.ofNat 64 v }) d
    let held := fun a (l : CoreLine) => sfind s.dev.harts[h].lines (lineOf a) = some l ∧ l.l1 = true
    let access := if acc.store.isSome then 7 else 5
    (acc.fault = none → inMain s.dev acc.pa = true → inControl acc.pa = false → acc.drain = 0 → ¬ crosses →
      (∀ v, acc.store = some v → stores [⟨acc.pa, n, BitVec.ofNat 512 (v.toNat % 2 ^ (8 * n))⟩]) ∧
      (∀ l, acc.store = none → acc.ecc = .clean → held acc.pa l →
        (l.poison = false → loads (lineRead (sbOver s.dev h (lineOf acc.pa) l.data) (acc.pa % 64) n)) ∧
        (l.poison = true → traps 19 acc.va))) ∧
    (acc.fault = none → acc.fault2 = none → inMain s.dev acc.pa = true → inMain s.dev acc.pa2 = true →
      inControl acc.pa = false → acc.drain = 0 → crosses →
      (∀ v, acc.store = some v → stores [⟨acc.pa, k, BitVec.ofNat 512 (v.toNat % 2 ^ (8 * k))⟩,
        ⟨acc.pa2, n - k, BitVec.ofNat 512 (v.toNat / 2 ^ (8 * k) % 2 ^ (8 * (n - k)))⟩]) ∧
      (∀ l m, acc.store = none → acc.ecc = .clean → held acc.pa l → held acc.pa2 m → l.poison = false →
        m.poison = false → loads (lineRead (sbOver s.dev h (lineOf acc.pa) l.data) (acc.pa % 64) k +
          2 ^ (8 * k) * lineRead (sbOver s.dev h (lineOf acc.pa2) m.data) (acc.pa2 % 64) (n - k)))) ∧
    (inControl acc.pa = false → inMain s.dev acc.pa = true →
      accessFault s.dev acc.store.isSome (corePieces acc) = none →
      (∀ v e, acc.store = some v → drainSb (updHart now h fun x => { x with
        sb := x.sb ++ storeEntries v.toNat (corePieces acc) }) h acc.drain = e → e.waits = false → done id e) ∧
      (∀ e, acc.store = none → loadPieces (drainSb now h acc.drain) h acc.ecc (corePieces acc) = e → e.2.waits = false →
        (∀ v, e.1 = .ok v → done (fun x => { x with loaded := BitVec.ofNat 64 v }) e.2) ∧
        ∀ p, e.1 = .error p → trapsIn e.2 19 p.va)) ∧
    (∀ c, acc.fault = some c → traps c acc.va) ∧
    (∀ c, acc.fault = none → inMain s.dev acc.pa = true → inControl acc.pa = false → crosses → acc.fault2 = some c →
      traps c (acc.va + k)) ∧
    (acc.fault = none → acc.fault2 = none → inMain s.dev acc.pa = true → inControl acc.pa = false → crosses →
      inMain s.dev acc.pa2 = false → traps access (acc.va + k)) ∧
    (acc.fault = none → inControl acc.pa = false → inMain s.dev acc.pa = false → inMmio acc.pa = false →
      inImsic acc.pa = false → traps access acc.va) ∧
    (acc.fault = none → inControl acc.pa = false → inMain s.dev acc.pa = false → inMmio acc.pa = false →
      inImsic acc.pa = true → ¬ crosses →
      (n = 4 → acc.va % 4 = 0 → (acc.store = none → loads 0) ∧
        ∀ v, acc.store = some v → done id (msiWrite d acc.pa (v.setWidth 32))) ∧
      (n ≠ 4 ∨ acc.va % n ≠ 0 → traps access acc.va)) ∧
    (inControl acc.pa = false → inMain s.dev acc.pa = false → crosses →
      accessFault s.dev acc.store.isSome (corePieces acc) = none → traps access acc.va) ∧
    (acc.fault = none → inControl acc.pa = false → inMain s.dev acc.pa = false → inMmio acc.pa = true →
      inImsic acc.pa = false → ¬ crosses →
      (acc.store = none → loads (acc.dev.toNat % 2 ^ (8 * n))) ∧
      (acc.store.isSome = true → acc.failed = none → done id d) ∧
      (∀ rp, acc.store.isSome = true → acc.failed = some rp → done id { d with pkg := { d.pkg with
        portErr := sput d.pkg.portErr rp.val (sget d.pkg.portErr rp.val 0 + 1) } }))

/-- LR reserves the line and returns the word, sign-extended; SC stores and returns 0 when the reservation holds, and
otherwise returns 1, and clears the reservation either way; it fails with a reservation only so often in a row, a bound
that the model leaves free (log entry 115); a store by SC takes the reservations of the other harts. An
AMO returns the old value and stores the new one. Each first brings the line it needs into the hart's caches, and waits
while an earlier store of the line does. LR and SC must be naturally aligned and an AMO must lie within a
16-byte block; else the address is misaligned (R350, R352, R353). -/
def Sys2Proof.Claims.CoreAtomics : Prop :=
  ∀ (s : State) (h : Hart) (acc : CoreAccess), HartRuns s h → (acc.size = 4 ∨ acc.size = 8) →
    inControl acc.pa = false →
    let x := s.dev.harts[h]
    let a := lineOf acc.pa
    let put := fun (v : Nat) => (⟨acc.pa, acc.size, BitVec.ofNat 512 (v % 2 ^ (8 * acc.size))⟩ : CoreStore)
    let stored := fun (t : State) (l : CoreLine) (v r : Nat) =>
      t.dev.harts[h] = { x with lines := sput x.lines a ⟨storeOver l.data (put v), true, false, true⟩
                                reserve := t.dev.harts[h].reserve, loaded := BitVec.ofNat 64 r
                                scFails := t.dev.harts[h].scFails
                                instret := x.instret + 1 } ∧
      (∀ k : Hart, k ≠ h → t.dev.harts[k] = { s.dev.harts[k] with
        reserve := if s.dev.harts[k].reserve = some a then none else s.dev.harts[k].reserve }) ∧
      t = s.withDev { s.dev with harts := t.dev.harts }
    (∀ v sp op, (acc.va % acc.size ≠ 0 →
        exec (.coreLr h acc) s = .next (s.withDev (coreTrap s.dev h 6 acc.va)) ∧
        exec (.coreSc h acc v sp) s = .next (s.withDev (coreTrap s.dev h 6 acc.va))) ∧
      (16 < acc.va % 16 + acc.size →
        exec (.coreAmo h acc op v) s = .next (s.withDev (coreTrap s.dev h 6 acc.va)))) ∧
    (acc.fault = none → inMain s.dev acc.pa = true → let d := drainSb { s.dev with waits := false } h acc.drain
      let ends := fun (i : Instr) (d : Device) => exec i s = .next (s.withDev { d with waits := s.dev.waits })
      let word := fun (e : Device) => lineRead (heldLine e h a).data (acc.pa % 64) acc.size
      let y := d.harts[h]
      (∀ v sp op, d.waits = false → sbHas d h a = true →
        (acc.va % acc.size = 0 → ends (.coreLr h acc) d ∧ ends (.coreSc h acc v sp) d) ∧
        (acc.va % 16 + acc.size ≤ 16 → ends (.coreAmo h acc op v) d)) ∧
      (sbHas d h a = false → acc.va % acc.size = 0 → ∀ e, coreFetch d h a false acc.ecc = e → e.waits = false →
        ((heldLine e h a).poison = true → ends (.coreLr h acc) (coreTrap e h 19 acc.va)) ∧
        ((heldLine e h a).poison = false → ends (.coreLr h acc) (updHart e h fun x => { x with
          reserve := some a, loaded := BitVec.ofNat 64 (signLoad (word e) acc.size), instret := x.instret + 1 }))) ∧
      (∀ v sp, sbHas d h a = false → acc.va % acc.size = 0 →
        (y.reserve ≠ some a ∨ sp = true ∧ y.scFails < Config.scBound → d.waits = false → ends (.coreSc h acc v sp)
          (updHart (hpmCount d h 7) h fun x => { x with
            reserve := none, loaded := 1, instret := x.instret + 1
            scFails := if y.reserve = some a then x.scFails + 1 else x.scFails })) ∧
        (y.reserve = some a → sp = false ∨ Config.scBound ≤ y.scFails → winHolds d acc.pa = false →
          ∀ e, performStore d h (put v.toNat) acc.ecc = e → e.waits = false → ends (.coreSc h acc v sp)
            (updHart e h fun x => { x with reserve := none, loaded := 0, scFails := 0, instret := x.instret + 1 }))) ∧
      (∀ op v, sbHas d h a = false → acc.va % 16 + acc.size ≤ 16 → winHolds d acc.pa = false →
        ∀ e, coreFetch d h a true acc.ecc = e →
        ((heldLine e h a).poison = true → e.waits = false → ends (.coreAmo h acc op v) (coreTrap e h 19 acc.va)) ∧
        ((heldLine e h a).poison = false → ∀ f, performStore e h
            (put (amoValue op (8 * acc.size) (BitVec.ofNat _ (word e)) (BitVec.ofNat _ v.toNat)).toNat) .clean = f →
          f.waits = false → ends (.coreAmo h acc op v) (updHart f h fun x => { x with
            loaded := BitVec.ofNat 64 (signLoad (word e) acc.size), instret := x.instret + 1 })))) ∧
    (∀ l : CoreLine, acc.fault = none → inMain s.dev acc.pa = true → acc.drain = 0 → acc.ecc = .clean →
      sbHas s.dev h a = false → sfind x.lines a = some l → l.l1 = true → l.poison = false →
      let old := lineRead l.data (acc.pa % 64) acc.size
      (acc.va % acc.size = 0 → exec (.coreLr h acc) s = .next (s.withDev (updHart s.dev h fun x => { x with
        reserve := some a, loaded := BitVec.ofNat 64 (signLoad old acc.size), instret := x.instret + 1 }))) ∧
      (∀ v sp, acc.va % acc.size = 0 →
        (x.reserve ≠ some a ∨ sp = true ∧ x.scFails < Config.scBound → exec (.coreSc h acc v sp) s =
          .next (s.withDev (updHart (hpmCount s.dev h 7) h fun y => { y with
            reserve := none, loaded := 1, instret := y.instret + 1
            scFails := if x.reserve = some a then y.scFails + 1 else y.scFails }))) ∧
        (x.reserve = some a → sp = false ∨ Config.scBound ≤ x.scFails → owns s.dev h a = true →
            winHolds s.dev acc.pa = false →
          ∃ t, exec (.coreSc h acc v sp) s = .next t ∧ stored t l v.toNat 0 ∧ t.dev.harts[h].reserve = none ∧
            t.dev.harts[h].scFails = 0)) ∧
      (∀ op v, acc.va % 16 + acc.size ≤ 16 → owns s.dev h a = true → winHolds s.dev acc.pa = false →
        ∃ t, exec (.coreAmo h acc op v) s = .next t ∧ t.dev.harts[h].reserve = x.reserve ∧
          t.dev.harts[h].scFails = x.scFails ∧
          stored t l (amoValue op (8 * acc.size) (BitVec.ofNat _ old) (BitVec.ofNat _ v.toNat)).toNat
            (signLoad old acc.size)))

/-- A FENCE without w in its predecessor set, or one that no store waits for, retires; one with w performs the stores
of the hart first and waits for writes that are complete only with their page's clean. CBO.ZERO enters 64 zero bytes
as one store. CBO.CLEAN brings the slice up to date with the modified copy and leaves no core with a modified one;
CBO.FLUSH and CBO.INVAL also leave no copy in any core and no directory entry (R345, R346, R441). -/
def Obligations.CoreFencesAndCacheOperations : Prop :=
  ∀ (s : State) (h : Hart), HartRuns s h →
    let x := s.dev.harts[h]
    let retires := updHart s.dev h fun x => { x with instret := x.instret + 1 }
    (∀ p q : FenceSet,
      (p.w = false → exec (.coreFence h p q) s = .next (s.withDev retires)) ∧
      (p.w = true → x.sb = [] → exec (.coreFence h p q) s =
        .next (s.withDev (if s.dev.hup.strict = [] then retires else s.dev))) ∧
      (∀ w l, p.w = true → x.sb = [w] → winHolds s.dev w.pa = false → s.dev.hup.strict = [] →
        owns s.dev h (lineOf w.pa) = true → sfind x.lines (lineOf w.pa) = some l → l.l1 = true → l.poison = false →
        ∃ t, exec (.coreFence h p q) s = .next t ∧ t.dev.harts[h].sb = [] ∧
          sfind t.dev.harts[h].lines (lineOf w.pa) = some ⟨storeOver l.data w, true, false, true⟩ ∧
          t.dev.harts[h].instret = x.instret + 1 ∧ t.dev.mem = s.dev.mem) ∧
      (∀ d, p.w = true → drainSb { s.dev with waits := false } h x.sb.length = d → d.waits = false →
          d.harts[h].sb = [] →
        d.hup.strict = [] → exec (.coreFence h p q) s = .next (s.withDev { updHart d h fun x => { x with
          instret := x.instret + 1 } with waits := s.dev.waits }))) ∧
    (∀ acc : CoreAccess, acc.fault = none → inMain s.dev acc.pa = true →
      let ends := fun (i : Instr) (d : Device) => exec i s = .next (s.withDev { updHart d h fun x => { x with
        instret := x.instret + 1 } with waits := s.dev.waits })
      let a := lineOf acc.pa
      let now := { s.dev with waits := false }
      let d := drainSb now h acc.drain
      (inMain s.dev a = true → sbHas d h a = false →
        ((cleanLine d a).waits = false → ends (.cboClean h acc) (cleanLine d a)) ∧
        (∀ i ∈ [Instr.cboFlush h acc, .cboInval h acc], (recallLine d a).waits = false → ends i (recallLine d a))) ∧
      (∀ e, drainSb (updHart now h fun x => { x with sb := x.sb ++ [⟨a, 64, 0⟩] }) h acc.drain = e → e.waits = false →
        ends (.cboZero h acc) e)) ∧
    (∀ acc : CoreAccess, ∀ i ∈ [Instr.cboClean h acc, .cboFlush h acc, .cboInval h acc, .cboZero h acc],
      (∀ c, acc.fault = some c → exec i s = .next (s.withDev (coreTrap s.dev h c acc.va)))) ∧
    (∀ acc : CoreAccess, acc.fault = none → inMain s.dev acc.pa = true → acc.drain = 0 →
      let a := lineOf acc.pa
      let t0 := homeOf s.dev a
      exec (.cboZero h acc) s = .next (s.withDev (updHart s.dev h fun x => { x with
        sb := x.sb ++ [⟨a, 64, 0⟩], instret := x.instret + 1 })) ∧
      (inMain s.dev a = true → sbHas s.dev h a = false →
        (modified s.dev a = none → exec (.cboClean h acc) s = .next (s.withDev retires)) ∧
        (∀ l p k (g : GalLine), modified s.dev a = some (l, p) → galFind s.dev.gal[t0] a = some (k, g) →
          let fresh := some { g with data := l, poison := p, dirty := true, age := 0 }
          (∃ t, exec (.cboClean h acc) s = .next t ∧ sfind t.dev.gal[t0].lines k = fresh ∧
            (∀ q ∈ holders s.dev a, ∀ y, sfind t.dev.harts[q].lines a = some y → y.dirty = false) ∧
            t.dev.harts[h].instret = x.instret + 1 ∧ t.dev.mem = s.dev.mem) ∧
          (∀ i ∈ [Instr.cboFlush h acc, .cboInval h acc],
            ∃ t, exec i s = .next t ∧ sfind t.dev.gal[t0].lines k = fresh ∧ sfind t.dev.gal[t0].dir a = none ∧
            (∀ q ∈ holders s.dev a, sfind t.dev.harts[q].lines a = none) ∧
            t.dev.harts[h].instret = x.instret + 1 ∧ t.dev.mem = s.dev.mem)) ∧
        (modified s.dev a = none → ∀ i ∈ [Instr.cboFlush h acc, .cboInval h acc],
            ∃ t, exec i s = .next t ∧ sfind t.dev.gal[t0].dir a = none ∧
            (∀ q ∈ holders s.dev a, sfind t.dev.harts[q].lines a = none) ∧ t.dev.mem = s.dev.mem)))

/-- A hart's load of a register returns the register's bytes and its store writes them, as does one of the Warden or
the BMC, which retires nothing; an access of another size or alignment, or outside every region, raises an access
fault and reaches no register. A load by the Warden or the BMC leaves what it read where only such reads do (R354,
R358, R535, R540). -/
def Sys2Proof.Claims.CoreWindowAccesses : Prop :=
  ∀ (s : State) (h : Hart) (ag : Agent) (x n : Nat),
    let bad := noRegion x = true ∨ ¬ (x % n = 0 ∧ if isConfig x then n ∈ [1, 2, 4] else n ∈ [4, 8])
    let now := { s.dev with waits := false }
    let r := fun (d : Device) => windowRead d (x / 8 * 8) ag
    let v := fun (d : Device) => BitVec.ofNat 64 ((r d).1.toNat / 2 ^ (8 * (x % 8)) % 2 ^ (8 * n))
    (HartRuns s h → ag = .manager ∨ (∃ g, ag = .guest g) →
      (bad → exec (.controlWindowLoad h ag x n) s =
        .next (s.withDev (coreTrap s.dev h 5 (0xf000000000000 + x)))) ∧
      (¬ bad → exec (.controlWindowLoad h ag x n) s = .next (s.withDev {
        updHart (r now).2 h fun y => { y with loaded := v now,
                                              instret := y.instret + 1 } with waits := s.dev.waits })) ∧
      (∀ w, (bad → exec (.controlWindowStore h ag x n w) s =
          .next (s.withDev (coreTrap s.dev h 7 (0xf000000000000 + x)))) ∧
        (∀ e, ¬ bad → windowPut now ag x n w = e → e.waits = false →
          exec (.controlWindowStore h ag x n w) s = .next (s.withDev {
            updHart e h fun y => { y with instret := y.instret + 1 } with waits := s.dev.waits })))) ∧
    (∀ w e, ag = .warden ∨ ag = .bmc → windowPut now ag x n w = e → e.waits = false →
      exec (.controlWindowStore h ag x n w) s = .next (s.withDev { e with waits := s.dev.waits })) ∧
    (∀ w d, isConfig x = false → windowPut d ag x n w = windowWrite d (x / 8 * 8)
      ⟨ag, if n = 8 then .whole else if x % 8 = 4 then .high else .low, w⟩) ∧
    (ag = .warden ∨ ag = .bmc → exec (.controlWindowLoad h ag x n) s =
      .next (s.withDev { (r s.dev).2 with readBack := v s.dev })) ∧
    (∀ b i off, blkOf x = some (b, i, off) → x % 8 = 0 → x / 8 * 8 = x → b ≠ .eng →
      (deadBlk s.dev b i = true → (r s.dev).1 = BitVec.allOnes 64) ∧
      (deadBlk s.dev b i = false → ready s.dev = true → accepts b off ag false = false → (r s.dev).1 = 0) ∧
      (s.dev.TakesRead x ag → r s.dev = (regView s.dev x, s.dev)))

/-- WFI enters light idle unless an enabled interrupt is pending. After 400,000 engine cycles of light idle the hart
performs its stores, writes its caches back and powers off, or goes on where an interrupt has come; when every hart is
off, no engine has run a unit for 1,000 beats and no queue holds an entry, the package enters deep idle and its DRAM
self-refresh. An enabled interrupt wakes the hart and, before it, the package (R281, R384, R385). -/
def Sys2Proof.Claims.IdleStates : Prop :=
  ∀ (s : State) (h : Hart), s.dev.phase = .run →
    let x := s.dev.harts[h]
    (x.held = false → x.idle = .running → exec (.wfi h) s = .next (s.withDev (updHart s.dev h fun x =>
      if irqNow s.dev h then { x with instret := x.instret + 1 }
      else { x with
        instret := x.instret + 1, idle := .light, since := s.dev.cycle
        clocked := x.clocked + (s.dev.cycle - x.clockAt) * x.freq, clockAt := s.dev.cycle }))) ∧
    (∀ d, x.held = false → x.idle = .light → x.since + 400000 ≤ s.dev.cycle →
      drainSb { s.dev with waits := false } h x.sb.length = d → d.waits = false → d.harts[h].sb = [] →
      ∃ t, exec (.deepIdleEntry h) s = .next t ∧ t.dev.harts[h].lines = [] ∧ t.dev.harts[h].reserve = none ∧
        t.dev.harts[h].since = s.dev.cycle ∧ t.dev.harts[h].sb = [] ∧
        t.dev.harts[h].idle = if irqNow d h then IdleState.running else .deep) ∧
    (x.held = true ∨ x.idle ≠ .light ∨ s.dev.cycle < x.since + 400000 → exec (.deepIdleEntry h) s = .next s) ∧
    ((∀ k : Hart, s.dev.harts[k].held = true ∨ s.dev.harts[k].idle = .deep) → enginesQuiet s.dev = true →
      (∀ q ∈ s.dev.queues, q.2.entries = []) → exec .packageDeepIdleEntry s = .next (s.withDev { s.dev with
        packageIdle := true, chans := s.dev.chans.map fun c => { c with selfRefresh := true } })) ∧
    ((∃ k : Hart, s.dev.harts[k].held = false ∧ s.dev.harts[k].idle ≠ .deep) → exec .packageDeepIdleEntry s = .next s) ∧
    (x.held = false → x.idle ≠ .running → exec (.hartWake h) s = .next (s.withDev (updHart { s.dev with
      packageIdle := false
      chans := if s.dev.packageIdle then s.dev.chans.map fun c => { c with selfRefresh := false } else s.dev.chans } h
        fun x => { x with idle := .running, since := s.dev.cycle, clockAt := s.dev.cycle }))) ∧
    (x.held = true ∨ x.idle = .running → exec (.hartWake h) s = .next s)

/-- A 4-byte write at offset 0 of an interrupt-file page, or at offset 4 with its bytes reversed, makes the identity it
names pending in the file of that hart, whatever its idle state; an identity of 0 or above 2,047, another offset and a
file of a hart out of service take nothing (R375 to R377). -/
def Sys2Proof.Claims.InterruptFiles : Prop :=
  ∀ (s : State) (h : Hart) (v : BitVec 32), s.dev.phase = .run →
    (∀ o < 4096, let a := 0xe000000000000 + 0x1000 * h.val + o
     let id := if o = 0 then v.toNat else if o = 4 then ofBytes (bytesOf v.toNat 4).reverse else 0
     let takes := s.dev.harts[h].held = false ∧ 0 < id ∧ id ≤ 2047
     (takes → exec (.imsicWrite a v) s = .next (s.withDev (updHart s.dev h fun x =>
        let f := sget x.files 0 ⟨[], [], false⟩
        { x with files := sput x.files 0 { f with pending := insertNat f.pending id } }))) ∧
     (¬ takes → exec (.imsicWrite a v) s = .next s)) ∧
    (∀ g < 8, ∀ o < 4096, let a := 0xe000001000000 + 0x8000 * h.val + 0x1000 * g + o
     let id := if o = 0 then v.toNat else if o = 4 then ofBytes (bytesOf v.toNat 4).reverse else 0
     let takes := s.dev.harts[h].held = false ∧ 0 < id ∧ id ≤ 2047
     (takes → exec (.imsicWrite a v) s = .next (s.withDev (updHart s.dev h fun x =>
        let f := sget x.files (g + 1) ⟨[], [], false⟩
        { x with files := sput x.files (g + 1) { f with pending := insertNat f.pending id } }))) ∧
     (¬ takes → exec (.imsicWrite a v) s = .next s))

/-- A device's read of translated main memory is answered with its bytes, none where a line is poisoned, and its write
is performed; a request that is not translated, or to the control window, changes no memory and a read of it is not
answered with data; a write of an interrupt file is a message; one on a link that is down, or behind a write that
waits for the window, is not served. With ATS enabled an address that has been translated is used as it is, and a
translation request is answered with the page and its permissions, or with none; without it both are refused and a
fault is recorded. A page request enters the page-request queue, and is answered at once, where it is the last of its
group, as invalid by a function without PRI, as failed where the queue is off, and as done where it is full. A load
whose device does not answer in time returns all ones and the port records it (R356, R357, R378, R379; the codes are
the model's, log entry 25). -/
def Sys2Proof.Claims.DeviceRequests : Prop :=
  ∀ (s : State) (rp : RootPort) (req : DeviceReq), s.dev.phase = .run →
    let i := Instr.inboundDeviceRequest rp req
    let ends := fun (d : Device) => exec i s = .next (s.withDev { d with waits := s.dev.waits })
    let now := { s.dev with waits := false }
    let serves := rp.val ∈ s.dev.pkg.up ∧ partHeld s.dev 0 = false
    let fits := serves ∧ 0 < req.size ∧ req.addr % 4096 + req.size ≤ 4096
    let asked := xlatReq now req.rid.toNat (req.pasid.map (·.toNat)) req.addr req.store.isSome
    let reaches := fun (d : Device) (pa : Nat) =>
      (∀ v bad e, req.store = none → memRead d pa req.size ⟨1, 0, false⟩ = ((v, bad), e) → e.waits = false →
        ends { e with pkg := { e.pkg with inbound := if bad then none else some v } }) ∧
      (∀ v, req.store = some v → (cohWrite d pa req.size v 0 1).waits = false → ends (cohWrite d pa req.size v 0 1))
    (∀ pa d, fits → req.kind = .memory → inControl req.addr = false → asked = (some pa, d) → d.waits = false →
      inControl pa = false → inMain d pa = true → inMain d (pa + req.size - 1) = true → reaches d pa) ∧
    (fits → req.kind = .translated → atsOn s.dev req.rid.toNat = true → inControl req.addr = false →
      inMain s.dev req.addr = true → inMain s.dev (req.addr + req.size - 1) = true → reaches now req.addr) ∧
    (fits → req.kind = .memory → (inControl req.addr = true ∨ asked = (none, now)) →
      exec i s = .next (if req.store.isSome then s else s.withDev { s.dev with
        pkg := { s.dev.pkg with inbound := none } })) ∧
    (∀ pa d v, fits → req.store = some v → (req.kind = .memory ∧ inControl req.addr = false ∧ asked = (some pa, d)) ∨
        (req.kind = .translated ∧ atsOn s.dev req.rid.toNat = true ∧ inControl req.addr = false ∧ pa = req.addr ∧
            d = now) →
      d.waits = false → inControl pa = false → inMain d pa = false → inImsic pa = true → req.size = 4 →
      ends (msiWrite d pa (BitVec.ofNat 32 v))) ∧
    (fits → req.kind = .translated → atsOn s.dev req.rid.toNat = false →
      let e := ioFaultAs now req.rid.toNat (req.pasid.map (·.toNat)) req.addr 260 (if req.store.isSome then 7 else 6)
      e.waits = false → ends (if req.store.isSome then e else { e with pkg := { e.pkg with inbound := none } })) ∧
    (∀ ro, serves → req.kind = .translate ro → atsOn s.dev req.rid.toNat = false →
      let e := ioFaultAs now req.rid.toNat (req.pasid.map (·.toNat)) req.addr 260 8
      e.waits = false → ends { e with pkg := { e.pkg with inbound := none } }) ∧
    (∀ ro pa up, serves → req.kind = .translate ro → atsOn s.dev req.rid.toNat = true →
      let x := fun wr => xlatFor now req.rid.toNat (req.pasid.map (·.toNat)) req.addr wr
      let w := if ro then none else x true
      (if w.isSome then w else x false) = some (pa, up) → (leafUpdate now up).waits = false →
      ends { leafUpdate now up with pkg := { (leafUpdate now up).pkg with inbound := some (pa / 4096 * 4096 +
        (if (x false).isSome then 1 else 0) + (if w.isSome then 2 else 0)) } }) ∧
    (∀ rd wr last group, serves → req.kind = .page rd wr last group → priOn s.dev req.rid.toNat = true →
      let size := 2 ^ (regF s.dev IOM_PQB 0 5 + 1)
      let tail := regF s.dev IOM_PQ 32 32
      let off := regF s.dev IOM_PQCSR 16 1 = 0 ∨ regF s.dev IOM_PQCSR 8 1 = 1
      let full := (tail + 1) % size = regF s.dev IOM_PQ 0 32
      let bit := fun (x : Bool) (k : Nat) => if x then 2 ^ k else 0
      let answer := fun (d : Device) (code : Nat) => if last then { d with pkg := { d.pkg with
        devMsg := some ⟨req.rid.toNat, 1, group.toNat * 2 ^ 32 + code * 2 ^ 44 + req.rid.toNat * 2 ^ 48⟩ } } else d
      (off → ends (answer now 0xf)) ∧ (¬ off → full → ends (answer (setReg now IOM_PQCSR 9 1 1) 0)) ∧
      (¬ off → ¬ full →
        let pid := match req.pasid with | some k => k.toNat * 2 ^ 12 + 2 ^ 32 | none => 0
        let e := setReg (cohWrite now (regF s.dev IOM_PQB 10 44 * 4096 + 16 * tail) 16 (pid + req.rid.toNat * 2 ^ 40 +
          (bit rd 0 + bit wr 1 + bit last 2 + group.toNat * 2 ^ 3 + req.addr / 4096 * 4096) * 2 ^ 64) 0 1)
          IOM_PQ 32 32 ((tail + 1) % size)
        regF s.dev IOM_PQCSR 1 1 = 0 → e.waits = false → ends e)) ∧
    (∀ ro, serves → req.kind = .translate ro → atsOn s.dev req.rid.toNat = true →
      (∀ wr, xlatFor now req.rid.toNat (req.pasid.map (·.toNat)) req.addr wr = none) →
      exec i s = .next (s.withDev { s.dev with pkg := { s.dev.pkg with inbound := some 0 } })) ∧
    (∀ rd wr group, serves → req.kind = .page rd wr false group → priOn s.dev req.rid.toNat = false →
      exec i s = .next s) ∧
    (∀ rd wr group, serves → req.kind = .page rd wr true group → priOn s.dev req.rid.toNat = false →
      exec i s = .next (s.withDev { s.dev with pkg := { s.dev.pkg with devMsg := some ⟨req.rid.toNat, 1,
        group.toNat * 2 ^ 32 + 2 ^ 44 + req.rid.toNat * 2 ^ 48⟩ } })) ∧
    (¬ serves → exec i s = .next s) ∧
    (∀ h : Hart, HartRuns s h → ∃ t, exec (.deviceCompletionTimeout rp h) s = .next t ∧
      t.dev.harts[h] = { s.dev.harts[h] with
        loaded := BitVec.allOnes 64, instret := s.dev.harts[h].instret + 1 } ∧
      sfind t.dev.pkg.portErr rp.val = some (sget s.dev.pkg.portErr rp.val 0 + 1) ∧
      (∀ k : Hart, k ≠ h → t.dev.harts[k] = s.dev.harts[k]) ∧ t.dev.mem = s.dev.mem)

/-- The IOMMU takes the command at the head of its queue while the queue is on, without an error, and not empty: an
invalidation changes no translation, a fence writes its data where it asks for that, an ATS command sends its message to
the function, and the head moves on; a command it does not know stops the queue with cmd_ill, and a queue outside main
memory with cqmf, each with the interrupt that fctl and cqcsr allow (R379, R381, in the layout of the
RISC-V IOMMU specification: the model's choice, log entry 25). -/
def Sys2Proof.Claims.IommuCommands : Prop :=
  ∀ s : State, s.dev.phase = .run →
    let head := regF s.dev IOM_CQ 0 32
    let size := 2 ^ (regF s.dev IOM_CQB 0 5 + 1)
    let a := regF s.dev IOM_CQB 10 44 * 4096 + 16 * head
    let takes := regF s.dev IOM_CSR 16 1 = 1 ∧ regF s.dev IOM_CSR 8 3 = 0 ∧ head ≠ regF s.dev IOM_CQ 32 32 % size
    let stops := fun (d : Device) bit => let e := setReg d IOM_CSR bit 1 1
      let f := if regF e IOM_CSR 1 1 = 1 then iommuMsi (setReg e IOM_PQCSR 32 1 1) 0 else e
      f.waits = false → exec .iommuCommand s = .next (s.withDev { f with waits := s.dev.waits })
    (¬ takes → exec .iommuCommand s = .next s) ∧
    (takes → inMain s.dev a = true → ∀ v bad d, memRead { s.dev with waits := false } a 16 ⟨1, 0, false⟩ = ((v, bad),
        d) →
      d.waits = false →
      let next := fun (d : Device) => exec .iommuCommand s = .next (s.withDev {
        setReg d IOM_CQ 0 32 ((head + 1) % size) with waits := s.dev.waits })
      (v % 128 ∈ [1, 3] → v / 128 % 8 ≤ 1 → next d) ∧
      (v % 128 = 4 → v / 128 % 8 ≤ 1 → next { d with pkg := { d.pkg with
        devMsg := some ⟨v / 2 ^ 40 % 2 ^ 16, v / 128 % 8, v / 2 ^ 64⟩ } }) ∧
      (v % 128 = 2 → v / 128 % 8 = 0 → v.testBit 11 = false →
        (v.testBit 10 = false → next d) ∧
        (v.testBit 10 = true → let e := busWrite4 d (v / 2 ^ 64 % 2 ^ 62 * 4) (BitVec.ofNat 32 (v / 2 ^ 32 % 2 ^ 32)) 0
          e.waits = false → next e)) ∧
      (v % 128 ∉ [1, 2, 3, 4] ∨ 1 < v / 128 % 8 ∨ (v % 128 = 2 ∧ (v / 128 % 8 = 1 ∨ v.testBit 11 = true)) →
          stops d 10)) ∧
    (takes → inMain s.dev a = false → stops { s.dev with waits := false } 8)
/-! ### DRAM channels (R43, R311, R312, R393 to R408, R437, R476, R524) -/

/-- A channel of a running part that can send commands, with no injection waiting for it. -/
structure Sys2Proof.Machine.ChanServes (s : State) (c : Chan) : Prop where
  run : s.dev.phase = .run
  ready : chanReady s.dev c = true
  working : chanFailed s.dev c = false
  quiet : s.dev.ras.armed = [] ∧ s.dev.ras.marks = []

/-- The state of a channel after a command for a local address: rows and the activations of R403 apart, one more command
since the subchannel's last alert. -/
structure Sys2Proof.Machine.Commanded (x y : Channel) (l : Nat) (rd : List ReadReq) (wr : List WriteReq) : Prop where
  rdq : y.rdq = rd
  wrq : y.wrq = wr
  since : y.since = supd x.since (subOf l) (· + 1)
  kept : y.replayFails = x.replayFails ∧ y.scrub = x.scrub ∧ y.slow = x.slow ∧ y.ceRows = x.ceRows ∧
    y.suspect = x.suspect ∧ y.quiet = x.quiet

/-- With no burst and no urgent write a channel takes a promoted read before every other, then one of the partition
with the largest balance, a row hit before a miss and the older before the younger; the line is read, every write that
waits for it laid over it, and goes to the slice that asked, with no error where its bits are good or a write of the
whole line waits. While a burst drains or an urgent write waits it takes no read (R393 to R395, R476). A read older
than the age limit is promoted (R394). -/
def Sys2Proof.Claims.DramReads : Prop :=
  ∀ (s : State) (c : Chan), ChanServes s c →
    let x := s.dev.chans[c]
    (burst s.dev c = true ∨ (urgentWrite s.dev c).isSome = true ∨ x.rdq = [] →
      ∀ o, exec (.dramReadIssue c o) s = .next s) ∧
    (burst s.dev c = false → urgentWrite s.dev c = none → ∀ r bal, pickRead s.dev c = some (r, bal) →
      chanOf s.dev r.req.addr = c → (mediaRaw s.dev r.req.addr).2 = false → ∀ o,
      o = .clean ∧ sget s.dev.flips r.req.addr 0 = 0 ∨ lineQueued s.dev r.req.addr = true →
      ∃ t, exec (.dramReadIssue c o) s = .next t ∧
        Commanded x t.dev.chans[c] (localOf s.dev r.req.addr) (x.rdq.erase r) x.wrq ∧
        t.dev.chans[c].balance = bal ∧ t.dev.mem = s.dev.mem ∧
        (galFind s.dev.gal[r.home] r.req.addr = none → ∃ d, t.dev = answerMez (galInstall d
          (wayMask d r.home r.req.part.val) ⟨r.req.addr, (mediaRaw s.dev r.req.addr).1, false, false, 0, 2⟩ 2) r.req
          (some (mediaRaw s.dev r.req.addr).1) ∧ d.gal = s.dev.gal ∧ d.mez = s.dev.mez)) ∧
    (∀ r bal, pickRead s.dev c = some (r, bal) → r ∈ x.rdq.take 128 ∧
      (∀ q ∈ x.rdq.take 128, q.promoted = true → r.promoted = true ∧ bal = x.balance) ∧
      ((∀ q ∈ x.rdq.take 128, q.promoted = false) → ∀ q ∈ x.rdq.take 128,
        sget x.balance q.req.part.val 0 ≤ sget x.balance r.req.part.val 0 ∧
        (q.req.part = r.req.part → rowHit s.dev c q = true → rowHit s.dev c r = true))) ∧
    (∀ i, exec (.dramRequestPromotion c i) s = .next (s.withDev (updChan s.dev c fun x => { x with
      rdq := updAt x.rdq i fun r => if ageLimit s.dev c < s.dev.cycle - r.arrived then
      { r with promoted := true } else r })))

/-- Whatever the check of a line finds, a read that a ready channel takes leaves its queue, and the slice that asked
is answered with the line or with none; the scrubber reads its line and moves on, to the first line after the last,
with a pass counted; a write that the channel drains leaves its queue, never past an earlier write of its line. A
channel that may not send commands does none of these (R393 to R399, R402, R408). -/
def Sys2Proof.Claims.DramServices : Prop :=
  ∀ (s : State) (c : Chan) (o : EccOutcome), s.dev.phase = .run →
    let x := s.dev.chans[c]
    (chanReady s.dev c = false → exec (.dramReadIssue c o) s = .next s ∧ exec (.writeQueueDrain c) s = .next s ∧
      exec (.patrolScrubRead c o) s = .next s) ∧
    (mayRead s.dev c ⟨3, 0, false⟩ = false ∨ chanCap s.dev = 0 → exec (.patrolScrubRead c o) s = .next s) ∧
    (mayRead s.dev c ⟨3, 0, false⟩ = true → 0 < chanCap s.dev →
      let wraps := chanCap s.dev ≤ x.scrub + 64
      ∃ t, exec (.patrolScrubRead c o) s = .next t ∧ t.dev.chans[c].scrub = (if wraps then 0 else x.scrub + 64) ∧
        regF t.dev (DRC_STAT c.val) 48 16 = (regF s.dev (DRC_STAT c.val) 48 16 + if wraps then 1 else 0) % 2 ^ 16 ∧
        regF t.dev (DRC_STAT c.val) 32 16 = t.dev.chans[c].scrub * 65536 / chanCap s.dev % 2 ^ 16) ∧
    (chanReady s.dev c = true → burst s.dev c = false → urgentWrite s.dev c = none → ∀ r bal,
      pickRead s.dev c = some (r, bal) →
      let d := updChan s.dev c fun x => { x with rdq := x.rdq.erase r, balance := bal }
      let y := readDram (command d c (localOf d r.req.addr)) r.req.addr o
      ∃ t, exec (.dramReadIssue c o) s = .next t ∧ t.dev.chans[c].rdq = x.rdq.erase r ∧ t.dev.chans[c].balance = bal ∧
        (galFind s.dev.gal[r.home] r.req.addr = none →
          t.dev.mez[r.req.tile].answers = s.dev.mez[r.req.tile].answers ++ [(r.req.addr, y.1)])) ∧
    (chanReady s.dev c = true → writesGo s.dev c = true → x.wrq ≠ [] →
      ∃ t w pre post, exec (.writeQueueDrain c) s = .next t ∧ x.wrq = pre ++ w :: post ∧
        t.dev.chans[c].wrq = pre ++ post ∧ ∀ y ∈ pre, y.line ≠ w.line)

/-- What the check of a line finds: a corrected error returns the line, is counted with its row and has the line
rewritten in class 3; a read that succeeded when it was repeated is also counted as a retry; a line that fails and has
no second copy is marked poisoned, counted, named in DRC_ERR_ADDR, and its row becomes suspect (R397 to R400, R437).
-/
def Sys2Proof.Claims.DramErrors : Prop :=
  ∀ (s : State) (c : Chan), ChanServes s c → 0 < chanCap s.dev →
    let x := s.dev.chans[c]
    let a := globalOf s.dev c x.scrub
    let k := rowKey s.dev x.scrub
    chanOf s.dev a = c → localOf s.dev a = x.scrub → inDram s.dev a = true → (mediaRaw s.dev a).2 = false →
        x.wrq = [] → x.rdq = [] →
      sget s.dev.flips a 0 = 0 →
      x.scrub + 64 < chanCap s.dev → sget x.ceRows k 0 + 1 < regF s.dev (DRC_CTL c.val) 22 8 →
      (∀ o, o = .corrected ∨ o = .retryOk → ∃ t, exec (.patrolScrubRead c o) s = .next t ∧ t.dev.mem = s.dev.mem ∧
        regF t.dev (DRC_ECC c.val) 0 32 = (regF s.dev (DRC_ECC c.val) 0 32 + 1) % 2 ^ 32 ∧
        regF t.dev (DRC_ECC c.val) 32 16 =
          (if o = .retryOk then satInc (regF s.dev (DRC_ECC c.val) 32 16) 16 else regF s.dev (DRC_ECC c.val) 32 16) ∧
        sfind t.dev.chans[c].ceRows k = some (sget x.ceRows k 0 + 1) ∧ t.dev.chans[c].suspect = x.suspect ∧
        t.dev.chans[c].scrub = x.scrub + 64 ∧
        ∃ w ∈ t.dev.chans[c].wrq, w.line = a ∧ w.data = (mediaRaw s.dev a).1 ∧ w.poison = false ∧ w.cls = 3) ∧
      (healSource s.dev a = none → partnerOf s.dev a = none → s.dev.pager.ranges = [] → k ∉ x.suspect →
        ∃ t, exec (.patrolScrubRead c .bad) s = .next t ∧
        regF t.dev (DRC_ERR c.val) 0 2 = 3 ∧ k ∈ t.dev.chans[c].suspect ∧
        regF t.dev (DRC_ECC c.val) 48 16 = satInc (regF s.dev (DRC_ECC c.val) 48 16) 16 ∧
        regF t.dev (DRC_ERR_ADDR c.val) 63 1 = 1 ∧ regF t.dev (DRC_ERR_ADDR c.val) 0 52 = a % 2 ^ 52 ∧
        (∃ w ∈ t.dev.chans[c].wrq, w.line = a ∧ w.poison = true ∧ fullLine w.bytes = true) ∧
        (∃ e ∈ t.dev.ras.raised, e.cls = 0x15 ∧ e.inst = c.val ∧ e.addr = a))

/-- The write that a channel drains is the oldest of its line: an urgent line's first, else the oldest of all; it
reaches memory byte by byte as its enables say, and nothing else changes there. Writes wait while reads wait, unless a
burst drains or one is urgent. A failed channel discards its writes (R393, R395, R399, R408). -/
def Sys2Proof.Claims.DramWrites : Prop :=
  ∀ (s : State) (c : Chan), s.dev.phase = .run → chanReady s.dev c = true → s.dev.ras.armed = [] →
    let x := s.dev.chans[c]
    (writesGo s.dev c = false ∨ x.wrq = [] → exec (.writeQueueDrain c) s = .next s) ∧
    (∀ w rest, writesGo s.dev c = true → urgentWrite s.dev c = none → x.wrq = w :: rest →
      ∃ t, exec (.writeQueueDrain c) s = .next t ∧ Commanded x t.dev.chans[c] (localOf s.dev w.line) x.rdq rest ∧
        t.dev.chans[c].bursting = (burst s.dev c && decide (16 < (rest.take 64).length)) ∧
        (chanFailed s.dev c = true → t.dev.mem = s.dev.mem ∧ t.dev.poison = s.dev.poison) ∧
        (chanFailed s.dev c = false → w.line % 64 = 0 →
          (∀ k < 64, mget t.dev.mem (w.line + k) =
            if w.bytes.getLsbD k then lineByte w.data k else mget s.dev.mem (w.line + k)) ∧
          (∀ b, b < w.line ∨ w.line + 64 ≤ b → mget t.dev.mem b = mget s.dev.mem b) ∧
          (w.line ∈ t.dev.poison ↔ w.poison = true ∨ fullLine w.bytes = false ∧ w.line ∈ s.dev.poison))) ∧
    (∀ u w, urgentWrite s.dev c = some u → x.wrq.find? (fun y => y.line == u.line) = some w →
      ∃ t, exec (.writeQueueDrain c) s = .next t ∧
        ∃ pre post, x.wrq = pre ++ w :: post ∧ t.dev.chans[c].wrq = pre ++ post ∧ ∀ y ∈ pre, y.line ≠ u.line)

/-- The refresh window clears the activation tables and the 24-hour window the counts and suspicions of rows. A
refresh in a quiet window or while the link retrains is postponed; another is issued and closes the rows (R43, R400,
R403). -/
def Sys2Proof.Claims.DramRefresh : Prop :=
  ∀ (s : State) (c : Chan), s.dev.phase = .run →
    exec (.refreshWindowStart c) s = .next (s.withDev (updChan (setReg s.dev (DRC_RH c.val) 32 14 0) c fun x =>
      { x with acts := [] })) ∧
    exec (.ceWindowExpiry c) s = .next (s.withDev (updChan s.dev c fun x => { x with ceRows := [], suspect := [] })) ∧
    (let waits := inQuiet s.dev c = true ∨ regF s.dev (DRC_STAT c.val) 0 2 = 1
     (waits → exec (.dramRefreshCommand c) s = .next (s.withDev (updChan s.dev c fun x =>
       { x with postponed := x.postponed + 1 }))) ∧
     (¬ waits → exec (.dramRefreshCommand c) s = .next (s.withDev (updChan s.dev c fun x =>
       { x with postponed := 0, openRow := [] }))))

/-- The activate table of a bank: a row in it is counted; another takes a free place with count 1, or the place of the
row with the smallest count with one more than that (R403). -/
def Sys2Proof.Claims.ActivationTable : Prop :=
  ∀ (l : List RowCount) (r : Nat), l.length ≤ 32 → (l.map (·.row)).Nodup →
    (countRow l r).length ≤ 32 ∧ ((countRow l r).map (·.row)).Nodup ∧
    (∀ x ∈ l, x.row = r → (⟨r, x.count + 1⟩ : RowCount) ∈ countRow l r) ∧
    (∀ x ∈ l, x.row ≠ r → (∃ y ∈ l, y.row = r) ∨ l.length < 32 → x ∈ countRow l r) ∧
    ((∀ x ∈ l, x.row ≠ r) → l.length < 32 → (⟨r, 1⟩ : RowCount) ∈ countRow l r) ∧
    ((∀ x ∈ l, x.row ≠ r) → l.length = 32 →
      ∃ y ∈ l, (∀ x ∈ l, y.count ≤ x.count) ∧ (⟨r, y.count + 1⟩ : RowCount) ∈ countRow l r)

/-- The oscillator's drift at a tick whose beat is a multiple of 1,024: up to the threshold nothing follows; above it
a quiet window is asked for, unless fewer than 256 beats have passed since the last; above four times it the link
retrains. A quiet window's step records the drift, counts the window and ends it (R43, R404 to R406). -/
def Sys2Proof.Claims.DramDrift : Prop :=
  ∀ (s : State) (c : Chan) (v : BitVec 16), s.dev.phase = .run →
    let th := regF s.dev (DRC_TRAIN c.val) 0 8
    let d := setReg s.dev (DRC_TRAIN c.val) 8 16 v.toNat
    let ends := fun d => exec (.dqsOscillatorRead c v) s = .next (s.withDev d)
    (beatNow s.dev % 1024 ≠ 0 ∨ chanFailed s.dev c = true → exec (.dqsOscillatorRead c v) s = .next s) ∧
    (beatNow s.dev % 1024 = 0 → chanFailed s.dev c = false →
      (v.toNat ≤ th → ends d) ∧
      (th < v.toNat → v.toNat ≤ 4 * th → windowAgo s.dev c = false → ends d) ∧
      (th < v.toNat → v.toNat ≤ 4 * th → windowAgo s.dev c = true →
        ∃ t, exec (.dqsOscillatorRead c v) s = .next t ∧ regF t.dev (BEAT_QW_NEXT c.val) 63 1 = 1 ∧
          (regF s.dev (BEAT_QW_NEXT c.val) 63 1 = 0 → regF t.dev BEAT_QW_PEND c.val 1 = 1 ∧
            regF t.dev (BEAT_QW_NEXT c.val) 0 48 = (beatNow s.dev + 31) / 16 * 16 % 2 ^ 48)) ∧
      (4 * th < v.toNat → ends (setReg d (DRC_STAT c.val) 0 2 1))) ∧
    (inQuiet s.dev c = false → exec (.quietWindowStep c v) s = .next s) ∧
    (inQuiet s.dev c = true → exec (.quietWindowStep c v) s = .next (s.withDev
      (updChan (incReg d (DRC_LINK c.val) 48 16 1) c fun x => { x with
        quiet := false, lastWindow := some (beatNow s.dev) })))

/-- Retraining ends well, or at DDR5-6400, or with the channel failed: DRC_STAT shows which, DRC_LINK counts it once or
twice, and the events follow. An alert is counted; the third failed replay in a row makes the link retrain (R406 to
R408). -/
def Sys2Proof.Claims.DramLink : Prop :=
  ∀ (s : State) (c : Chan), s.dev.phase = .run →
    let st := fun (t : State) => regF t.dev (DRC_STAT c.val) 0 2
    let counts := fun (t : State) => regF t.dev (DRC_LINK c.val) 40 8
    let n := regF s.dev (DRC_LINK c.val) 40 8
    (st s ≠ 1 → ∀ o, exec (.linkRetraining c o) s = .next s) ∧
    (st s = 1 →
      (∃ t, exec (.linkRetraining c .good) s = .next t ∧ st t = (if s.dev.chans[c].slow then 2 else 0) ∧
        counts t = satInc n 8 ∧ regF t.dev (DRC_ERR c.val) 2 1 = 1 ∧ t.dev.chans = s.dev.chans) ∧
      (∃ t, exec (.linkRetraining c .slower) s = .next t ∧ st t = 2 ∧ counts t = satInc (satInc n 8) 8 ∧
        regF t.dev (DRC_ERR c.val) 2 2 = 3 ∧ t.dev.chans[c] = { s.dev.chans[c] with slow := true }) ∧
      (∃ t, exec (.linkRetraining c .failed) s = .next t ∧ st t = 3 ∧ counts t = satInc (satInc n 8) 8 ∧
        regF t.dev (DRC_ERR c.val) 4 1 = 1 ∧ regF t.dev (DRC_ERR c.val) 2 1 = 1 ∧ chanFailed t.dev c = true)) ∧
    (∀ sub k, chanFailed s.dev c = true → exec (.dramAlert c sub k) s = .next s) ∧
    (∀ (sub : Bool) k, chanFailed s.dev c = false →
      let u := if sub then 1 else 0
      let x := s.dev.chans[c]
      let again := ∃ m, sfind x.since u = some m ∧ m ≤ 32
      let bit := match k with | AlertKind.caParity => 0 | .writeCrc => 16
      let third := again ∧ sget x.replayFails u 0 + 1 = 3
      ∃ t, exec (.dramAlert c sub k) s = .next t ∧
        regF t.dev (DRC_LINK c.val) bit 16 = satInc (regF s.dev (DRC_LINK c.val) bit 16) 16 ∧
        sfind t.dev.chans[c].since u = some 0 ∧
        (¬ again → sfind t.dev.chans[c].replayFails u = some 0 ∧ st t = st s) ∧
        (again → ¬ third → sfind t.dev.chans[c].replayFails u = some (sget x.replayFails u 0 + 1) ∧ st t = st s) ∧
        (third → sfind t.dev.chans[c].replayFails u = some 0 ∧ st t = 1))

/-! ### The ledger (R411 to R433) -/

/-- A LEDGER command that a ledger not FAILED runs now: earlier commands of its namespace do not hold it, and the first
checks pass. -/
structure Sys2Proof.Machine.LedgerRuns (s : State) (p : Part) (q : QueueId) (i op : Nat) (a : Accepted) : Prop where
  run : s.dev.phase = .run
  entry : openEntryOf s.dev p q i 2 op = some a
  state : ldgState s.dev ≠ 3
  order : ldgOrdered s.dev p a = false
  checks : ldgChecks s.dev p op a.raw = 0

/-- A LEDGER command. A FAILED ledger ends it MEDIA_ERROR with its range; ORDERED waits for every earlier command of
the namespace; a bad body ends INVALID_FIELD, a namespace that is not the partition's NOT_FOUND, and a range past its
end 0x201, with nothing else changed. FLUSH ends once nothing that it covers waits in the buffer. ABORT of a queue
that does not exist ends NOT_FOUND, of one of another type INVALID_FIELD, and of a LEDGER queue, its own where it
names none, as R276 says of the entry with its tag (R276, R414, R421, R425, R426, R430). -/
def Sys2Proof.Claims.LedgerCommands : Prop :=
  ∀ (s : State) (p : Part) (q : QueueId) (i : Nat) (fl : List MemberFail), s.dev.phase = .run →
    (∀ c ∈ ([(.ledgerRead p q i fl, 1), (.ledgerWrite p q i, 2), (.ledgerFlush p q i, 3), (.deallocate p q i, 4),
        (.writeZeroes p q i, 5)] : List (Instr × Nat)), ∀ a, openEntryOf s.dev p q i 2 c.2 = some a →
      let ends := fun st lba n => exec c.1 s = .next (s.withDev
        (decideEntry (if st = 0xa then incRegSat s.dev LDG_ERR 16 16 else s.dev) p q i st [(0x28, 8, lba),
            (0x30, 4, n)]))
      let lba := lineRead a.raw 0x10 8
      let n := lineRead a.raw 0xc 4
      (ldgState s.dev = 3 → ends 0xa lba n) ∧
      (ldgState s.dev ≠ 3 → ldgOrdered s.dev p a = true → exec c.1 s = .next s) ∧
      (ldgState s.dev ≠ 3 → ldgOrdered s.dev p a = false →
        (ldgBad c.2 a.raw = true → ends 3 0 0) ∧
        (ldgBad c.2 a.raw = false → nsOf s.dev p (lineRead a.raw 8 1) = none → ends 2 0 0) ∧
        (∀ x, ldgBad c.2 a.raw = false → nsOf s.dev p (lineRead a.raw 8 1) = some x → c.2 ≠ 3 →
          x.size * 262144 < lba + n → ends 0x201 0 0))) ∧
    (∀ a, LedgerRuns s p q i 3 a →
      (s.dev.ledger.staged.any (flushCovers a) = true → exec (.ledgerFlush p q i) s = .next s) ∧
      (s.dev.ledger.staged.any (flushCovers a) = false → exec (.ledgerFlush p q i) s = .next (s.withDev
        (decideEntry s.dev p q i 0 [(0x28, 8, 0), (0x30, 4, 0)])))) ∧
    (∀ a, openEntryOf s.dev p q i 2 6 = some a →
      let t : QueueId := if lineRead a.raw 8 2 = 0 then q else ⟨lineRead a.raw 8 2 % 16384, Nat.mod_lt _ (by omega)⟩
      let ends := fun st => exec (.ledgerAbort p q i) s = .next (s.withDev
        (decideEntry s.dev p q i st [(0x28, 8, 0), (0x30, 4, 0)]))
      let good := bodyClear a.raw [(8, 2), (0xa, 2), (0x28, 8), (0x30, 4)] = true ∧
        lineRead a.raw 8 2 ≤ 16383 ∧ fieldN (lineRead a.raw 0 1) 2 1 = 0
      (¬ good → ends 3) ∧
      (∀ x, good → qFind s.dev p t = some x → x.type = 2 →
        let r := resolveAbort { s.dev with waits := false } p t (lineRead a.raw 0xa 2)
        (endAbort r.2 p q i r.1).waits = false →
        exec (.ledgerAbort p q i) s = .next (s.withDev { endAbort r.2 p q i r.1 with waits := s.dev.waits })) ∧
      (good → qFind s.dev p t = none → ends 2) ∧
      (∀ x, good → qFind s.dev p t = some x → x.type ≠ 2 → ends 3) ∧
      (∀ x d, good → qFind s.dev p t = some x → x.type = 2 →
        (∀ b ∈ x.entries, lineRead b.raw 2 2 ≠ lineRead a.raw 0xa 2) →
        findUnread { s.dev with waits := false } p x (lineRead a.raw 0xa 2) x.cons (2 ^ x.log2) = ((none, false), d) →
        d.waits = false → d.queues = s.dev.queues →
        ∃ u b o, exec (.ledgerAbort p q i) s = .next u ∧ accFind u.dev p q i = some b ∧ b.outcome = some o ∧
          o.status = 2 ∧ u = s.withDev { d with queues := u.dev.queues, waits := s.dev.waits }))

/-- A READ with its list read and its buffers writable, of blocks none of which is lost, writes its blocks over the
list in order and completes with status 0; a block that a later command of its queue has replaced reads as it stood
before. With a lost block it ends MEDIA_ERROR with the first lost block and how many there are; members that fail are
rebuilt, or their blocks lost, before. A list that cannot be read, or buffers that cannot be written, end it with
their status. A READ waits while an earlier write of its queue that overlaps it has not executed (R413, R419, R421 to
R423). -/
def Sys2Proof.Claims.LedgerReads : Prop :=
  ∀ (s : State) (p : Part) (q : QueueId) (i : Nat) (a : Accepted) (fl : List MemberFail), LedgerRuns s p q i 1 a →
    let key := 2 ^ 40 * lineRead a.raw 8 1 + lineRead a.raw 0x10 8
    let n := lineRead a.raw 0xc 4
    let ends := fun (d : Device) st lba n => exec (.ledgerRead p q i fl) s = .next (s.withDev {
      decideEntry d p q i st [(0x28, 8, lba), (0x30, 4, n)] with waits := s.dev.waits })
    (readWaits s.dev p q a = true → exec (.ledgerRead p q i fl) s = .next s) ∧
    (∀ st sgl d, readWaits s.dev p q a = false → sglRead { s.dev with waits := false } p a.raw = ((st, sgl), d) →
      st ≠ 0 → d.waits = false → ends d st 0 0) ∧
    (∀ sgl d, readWaits s.dev p q a = false → sglRead { s.dev with waits := false } p a.raw = ((0, sgl), d) →
      d.waits = false →
      let d := if (List.range n).any fun j => fromMedia d (key + j) then memberArmed d key else d
      let e := memberFails d key n (some p) (fl.filter fun f =>
        fromMedia d (key + f.off) && (sfind a.saved (key + f.off)).isNone)
      let block := fun j => match sfind a.saved (key + j) with | some b => b | none => blockNow e (key + j)
      (∀ vs : List Nat, vs.length = n → (∀ j (h : j < vs.length), block j = some vs[j]) →
        ∀ u, let w := writeOutput e p (scatter (vs.map fun v => bytesOf v 4096).flatten sgl)
          (w = (true, u) → u.waits = false → ends (incReg u LDG_EVT_RD 0 64 n) 0 0 0) ∧
          (w = (false, u) → u.waits = false → ends u 0x203 0 0)) ∧
      (∀ j, j < n → block j = none → (∀ k < j, block k ≠ none) →
        (freeBuffers e p sgl).waits = false → ∃ m, 0 < m ∧ m ≤ n - j ∧
          ends (incRegSat (freeBuffers e p sgl) LDG_ERR 16 16) 0xa (lineRead a.raw 0x10 8 + j) m))

/-- The blocks a command that executes now finds after a write-type command: its data or zeros in its range, but where
a later command of its queue has replaced them, and what was there everywhere else. A write staged while the write
buffer may keep it is decided at once; with write-through, or FUA, only when its blocks are on media. A READ_ONLY
ledger ends a write-type command 0x202 after every other check, and a WRITE that the buffer has no room for waits
(R415, R419, R421, R422, R427, R431). -/
def Sys2Proof.Claims.LedgerWrites : Prop :=
  ∀ (s : State) (p : Part) (q : QueueId) (i op : Nat) (a : Accepted), LedgerRuns s p q i op a →
    ∀ c ∈ ([(.ledgerWrite p q i, 2), (.deallocate p q i, 4), (.writeZeroes p q i, 5)] : List (Instr × Nat)), c.2 = op →
    let key := 2 ^ 40 * lineRead a.raw 8 1 + lineRead a.raw 0x10 8
    let n := lineRead a.raw 0xc 4
    let ends := fun (d : Device) st => exec c.1 s = .next (s.withDev {
      decideEntry d p q i st [(0x28, 8, 0), (0x30, 4, 0)] with waits := s.dev.waits })
    let good := fun (t : State) => ∃ b, accFind t.dev p q i = some b ∧
        b.outcome = some ⟨0, [(0x28, 8, 0), (0x30, 4, 0)]⟩
    (a.progress = 0 → ldgState s.dev = 2 → op ≠ 2 → ends s.dev 0x202) ∧
    let kept := fun k => k < key ∨ key + n ≤ k ∨ ∃ c ∈ a.covered, c.2.1 ≤ k ∧ k < c.2.1 + c.2.2
    let waits := fun (t : State) => ∃ b, accFind t.dev p q i = some b ∧ b.outcome = none ∧ b.progress = n
    let through := fun (d : Device) => regF d LDG_STAT 10 1 = 1 ∨ ldgFua a.raw = true
    (a.progress = 0 → ldgState s.dev ≠ 2 → op ≠ 2 → ∃ t, exec c.1 s = .next t ∧
      t.dev.ledger.media = s.dev.ledger.media ∧ (∀ k, ¬ kept k → blockNow t.dev k = some 0) ∧
      (∀ k, kept k → blockNow t.dev k = blockNow s.dev k) ∧
      (¬ through s.dev → good t) ∧ (through s.dev → a.covered = [] → 0 < n → waits t)) ∧
    (a.progress = 0 → op = 2 → ∀ st sgl d, sglRead { s.dev with waits := false } p a.raw = ((st, sgl), d) →
      d.waits = false → st ≠ 0 → ends d st) ∧
    (a.progress = 0 → op = 2 → ∀ sgl d, sglRead { s.dev with waits := false } p a.raw = ((0, sgl), d) →
        d.waits = false →
      (ldgState d = 2 → ends d 0x202) ∧
      (ldgState d ≠ 2 → 8192 < bufferBlocks s.dev + n → exec c.1 s = .next s) ∧
      (ldgState d ≠ 2 → bufferBlocks s.dev + n ≤ 8192 → ∀ st e, gather d p sgl = ((none, st), e) → e.waits = false →
        ends e st) ∧
      (ldgState d ≠ 2 → bufferBlocks s.dev + n ≤ 8192 → ∀ l e, gather d p sgl = ((some l, 0), e) →
        l.length = 4096 * n → e.waits = false → e.ledger = s.dev.ledger → e.queues = s.dev.queues →
        ∃ t, exec c.1 s = .next t ∧ t.dev.ledger.media = s.dev.ledger.media ∧
          (∀ j < n, ¬ kept (key + j) → blockNow t.dev (key + j) = some (ofBytes ((l.drop (4096 * j)).take 4096))) ∧
          (∀ k, kept k → blockNow t.dev k = blockNow s.dev k) ∧
          (¬ through e → good t) ∧ (through e → a.covered = [] → 0 < n → waits t))) ∧
    (a.progress ≠ 0 → (∀ x ∈ s.dev.ledger.staged, x.cmd ≠ a.num) ∨ ¬ through s.dev → ends s.dev 0) ∧
    (a.progress ≠ 0 → (∃ x ∈ s.dev.ledger.staged, x.cmd = a.num) → through s.dev → exec c.1 s = .next s)

/-- The oldest staged blocks reach media: a block that a staged write names is no longer lost, and what any command
finds stays the same. The spare blocks of a stack, where they change, show in its health register, and a stack whose
spare blocks are exhausted makes the ledger READ_ONLY. A FAILED ledger drains nothing (R411, R415, R427). -/
def Sys2Proof.Claims.LedgerWriteBuffer : Prop :=
  ∀ s : State, s.dev.phase = .run →
    (ldgState s.dev = 3 → ∀ sp, exec (.writeBufferDrain sp) s = .next s) ∧
    (ldgState s.dev ≠ 3 → s.dev.ledger.staged = [] → exec (.writeBufferDrain none) s = .next s) ∧
    (∀ w rest sp, ldgState s.dev ≠ 3 → s.dev.ledger.staged = w :: rest → (w.data = [] ∨ w.zeros = 0) →
      ∃ t, exec (.writeBufferDrain sp) s = .next t ∧ t.dev.ledger.staged = rest ∧
        (∀ k, blockNow t.dev k = blockNow s.dev k) ∧
        (∀ k, w.key ≤ k → k < w.key + max w.data.length w.zeros → k ∉ t.dev.ledger.lost)) ∧
    (∀ (k : StackId) n, ldgState s.dev ≠ 3 → ∃ t, exec (.writeBufferDrain (some (k, n))) s = .next t ∧
      regF t.dev (LDG_HEALTH k.val) 8 8 = min 100 n ∧
      (s.dev.ledger.staged = [] → t.dev.ledger = s.dev.ledger) ∧
      (n = 0 → ldgState s.dev < 2 → ldgState t.dev = 2 ∧ regF t.dev LDG_ERR 3 1 = 1) ∧
      (n ≠ 0 ∨ ldgState s.dev = 2 → ldgState t.dev = ldgState s.dev))

/-- The first stack to fail makes the ledger DEGRADED and the second FAILED; a stack fails when it stops answering or
has lost more than 1 percent of its members (R414). READ_ONLY stays with one failed stack (the model's choice, log
entry 43). -/
def Sys2Proof.Claims.StackFailures : Prop :=
  ∀ (s : State) (k : StackId),
    let fails := fun o => ∃ t, exec (.stackFailure k o) s = .next t ∧ regF t.dev LDG_STAT (2 * k.val) 2 = 1 ∧
      regF t.dev LDG_ERR 2 1 = 1 ∧
      ((∀ j : StackId, j ≠ k → regF s.dev LDG_STAT (2 * j.val) 2 ≠ 1) → ldgState s.dev ≠ 2 → ldgState t.dev = 1) ∧
      ((∀ j : StackId, j ≠ k → regF s.dev LDG_STAT (2 * j.val) 2 ≠ 1) → ldgState s.dev = 2 → ldgState t.dev = 2) ∧
      ((∃ j : StackId, j ≠ k ∧ regF s.dev LDG_STAT (2 * j.val) 2 = 1) → ldgState t.dev = 3) ∧
      t = s.withDev { s.dev with regs := t.dev.regs, ras := t.dev.ras }
    (regF s.dev LDG_STAT (2 * k.val) 2 ≠ 1 → fails .silent ∧ ∀ n, 8388608 < 100 * n → fails (.members n)) ∧
    (∀ n, 100 * n ≤ 8388608 → exec (.stackFailure k (.members n)) s = .next s) ∧
    (regF s.dev LDG_STAT (2 * k.val) 2 = 1 → ∀ o, exec (.stackFailure k o) s = .next s)

/-- Self-tests. A write of LDG_ST_CTL starts a SHORT or EXTENDED test unless one runs, and an abort ends the running
one with result 3; a write with another command starts nothing. A suspended test goes on when no command has been
pending for 5 ms; a running one ends PASSED, or FAILED with its stack (R432). -/
def Sys2Proof.Claims.SelfTests : Prop :=
  ∀ (s : State) (w : RegAccess),
    let st := fun (t : State) => regF t.dev LDG_ST_STAT 0 2
    let takes := s.dev.TakesWrite LDG_ST_CTL w.agent
    let starts := fun c ty => ∃ t, exec c s = .next t ∧ st t = 1 ∧ regF t.dev LDG_ST_STAT 2 1 = ty ∧
      regF t.dev LDG_ST_STAT 3 5 = 0 ∧ regF t.dev LDG_ST_STAT 32 32 = 0 ∧ t.dev.ledger.from_ = some s.dev.cycle ∧
      t.dev.ledger.ran = 0
    let ended := fun (t : State) res k => st t = 0 ∧ regF t.dev LDG_ST_STAT 3 3 = res ∧
      regF t.dev LDG_ST_STAT 6 2 = k ∧ regF t.dev LDG_ST_STAT 2 1 = regF s.dev LDG_ST_STAT 2 1 ∧
      regF t.dev LDG_ST_STAT 32 32 = testCycles s.dev / 2000000000 % 2 ^ 32 ∧ t.dev.ledger.from_ = none
    (carried w 0 2 = some 1 → takes → st s = 0 → starts (.selftestShortStart w) 0) ∧
    (carried w 0 2 = some 2 → takes → st s = 0 → starts (.selftestExtendedStart w) 1) ∧
    (carried w 0 2 = some 3 → takes → st s ≠ 0 → ∃ t, exec (.selftestAbort w) s = .next t ∧ ended t 3 0) ∧
    (takes → st s ≠ 0 → exec (.selftestShortStart w) s = .next s ∧ exec (.selftestExtendedStart w) s = .next s) ∧
    (takes → st s = 0 → exec (.selftestAbort w) s = .next s) ∧
    (s.dev.phase = .run → st s = 2 → (∀ p, ldgEntries s.dev p = []) → s.dev.ledger.used + 10000000 ≤ s.dev.cycle →
        ∃ t, exec .selftestResume s = .next t ∧ st t = 1 ∧
      t.dev.ledger = { s.dev.ledger with from_ := some s.dev.cycle }) ∧
    (s.dev.phase = .run → st s ≠ 2 ∨ s.dev.cycle < s.dev.ledger.used + 10000000 → exec .selftestResume s = .next s) ∧
    (s.dev.phase = .run → st s = 1 →
      ∀ fl, (∃ t, exec (.selftestComplete none fl) s = .next t ∧ ended t 1 0) ∧
      (∀ k, ∃ t, exec (.selftestComplete (some k) fl) s = .next t ∧ ended t 2 k.val)) ∧
    (s.dev.phase = .run → st s ≠ 1 → ∀ f l, exec (.selftestComplete f l) s = .next s)

/-! ### The hold-up store and the persistent window (R434 to R447) -/

/-- A sample of the store's ADC: the voltage in microvolts, the current in microamperes with its sign, the temperature
in thousandths of a degree, and the charge, which never leaves 0 to q_cap. Outside a drain and what follows it the
charger follows: it charges while enabled, within the temperature limits and below the full voltage, at half its duty
within 5 degrees of the upper limit (R438, R439, R553). -/
def Sys2Proof.Claims.HoldupSamples : Prop :=
  ∀ (s : State) (v i c : BitVec 16), ∃ t, exec (.adcSample v i c) s = .next t ∧
    let x := s.dev.hup
    let y := t.dev.hup
    let amps := ((i.toNat % 4096 : Nat) - 2048 : Int) * (regF s.dev HUP_SCALE 16 16 : Int)
    let hot := sfield (regF s.dev HUP_SCALE 48 16) 16
    let full := regF s.dev HUP_STORE 40 16 * 1000 ≤ y.volts ∧
      (regF s.dev HUP_CFG 1 1 = 1 → amps < ((regF s.dev HUP_STORE 0 24 * 50 : Nat) : Int))
    let wanted := regF s.dev HUP_CFG 0 1 = 1 ∧ sfield (regF s.dev HUP_CHG 8 8) 8 * 1000 ≤ y.temp ∧
      y.temp ≤ ((regF s.dev HUP_CHG 16 8 * 1000 : Nat) : Int) ∧ ¬ full
    y.volts = v.toNat % 4096 * regF s.dev HUP_SCALE 0 16 ∧ y.amps = amps ∧
    y.temp = ((c.toNat % 4096 * regF s.dev HUP_SCALE 32 16 : Nat) : Int) + hot * 1000 ∧
    (y.coulombs : Int) = max 0 (min (x.coulombs + amps) ((x.qcap * 10 ^ 11 : Nat) : Int)) ∧
    (s.dev.phase = .draining ∨ s.dev.phase = .persisted → y.chgEn = x.chgEn ∧ t.dev.regs = s.dev.regs) ∧
    (s.dev.phase ≠ .draining → s.dev.phase ≠ .persisted → (y.chgEn = true ↔ wanted) ∧
        regF t.dev HUP_STAT 2 1 = (if y.chgEn then 1 else 0) ∧
      y.iset = (if ((regF s.dev HUP_CHG 16 8 * 1000 : Nat) : Int) - 5000 ≤ y.temp then regF s.dev HUP_CHG 0 8 / 2
        else regF s.dev HUP_CHG 0 8)) ∧
    t = s.withDev { s.dev with hup := y, regs := t.dev.regs }

/-- Every 1,000 beats the loop computes the energy, the window limit of R440, and from them write-through: it is on
with no store fitted or less than 1.5 times the fixed energy, off from 1.65 times, and stays between. A limit of 0
with no store fitted. The end of a charge sets the coulomb counter to q_cap, which moves an eighth of the way to the
measured charge where the charge began below half (R428, R439 to R441). -/
def Sys2Proof.Claims.HoldupLoop : Prop :=
  ∀ s : State,
    (s.dev.phase = .run ∨ s.dev.phase = .recovery → beatNow s.dev % 1000 = 0 → ∃ t, exec .holdupLoop s = .next t ∧
      let e2 := energy2 s.dev
      let ef := energyFixed s.dev
      let fitted := regF s.dev HUP_CFG 0 1 = 1
      let wt := regF s.dev LDG_STAT 10 1
      regF t.dev HUP_LIMIT 21 19 = (if fitted then limitOf e2 ef (regF s.dev HUP_DRAIN 0 8) (regF s.dev HUP_DRAIN 8 16)
        (winPages s.dev) % 2 ^ 19 else 0) ∧
      regF t.dev HUP_ENERGY 0 32 = e2 / (2 * 10 ^ 12) % 2 ^ 32 ∧
      regF t.dev HUP_STAT 3 1 = (if e2 < 3 * ef then 1 else 0) ∧
      regF t.dev LDG_STAT 10 1 = (if ¬ fitted ∨ e2 < 3 * ef then 1 else if 33 * ef ≤ 10 * e2 then 0 else wt) ∧
      t.dev.mem = s.dev.mem ∧ t.dev.engines = s.dev.engines) ∧
    (beatNow s.dev % 1000 ≠ 0 ∨ (s.dev.phase ≠ .run ∧ s.dev.phase ≠ .recovery) → exec .holdupLoop s = .next s) ∧
    (s.dev.hup.chargeFrom = none ∨ storeFull s.dev = false ∨ regF s.dev HUP_CFG 0 2 ≠ 3 ∨ s.dev.hup.chgEn = true →
        exec .chargeTermination s = .next s) ∧
    (∀ start, s.dev.hup.chargeFrom = some start → regF s.dev HUP_CFG 0 2 = 3 → storeFull s.dev = true →
      s.dev.hup.chgEn = false → ∃ t, exec .chargeTermination s = .next t ∧
      let cap := s.dev.hup.qcap
      let meas := ((start : Int) + s.dev.hup.charged) / 10 ^ 11
      t.dev.hup.qcap = (if 2 * start ≤ cap * 10 ^ 11 then
        min (ratedCap s.dev) ((cap : Int) + (meas - (cap : Int)) / 8).toNat else cap) ∧
      t.dev.hup.coulombs = t.dev.hup.qcap * 10 ^ 11 ∧ t.dev.hup.chargeFrom = none ∧
      regF t.dev HUP_ENERGY 32 32 = t.dev.hup.qcap * 5 / 18 % 2 ^ 32) ∧
    exec .dischargeDisable s = .next (if s.dev.hup.persistDone then
      s.withDev { s.dev with hup := { s.dev.hup with dischEn := false } } else s)

/-- The window limit rises with the energy and the rate, never passes the window, and leaves energy for the fixed part
and the pages of the limit: what they need is at most two thirds of the energy, and no greater limit leaves that
(R440). -/
def Sys2Proof.Claims.WindowLimitIsAffordable : Prop :=
  ∀ e2 ef p rate pages : Nat, 0 < p →
    let l := limitOf e2 ef p rate pages
    l ≤ pages ∧ (3 * ef ≤ e2 → 3 * (ef * rate + l * 65536 * p * 10 ^ 9) ≤ e2 * rate) ∧
    (∀ m ≤ pages, 3 * (ef * rate + m * 65536 * p * 10 ^ 9) ≤ e2 * rate → m ≤ l) ∧
    (e2 ≤ 3 * ef → l = 0) ∧ (∀ e2', e2 ≤ e2' → l ≤ limitOf e2' ef p rate pages)

/-- A clean page that a write wants becomes dirty when the limit leaves room for one more, or while the window is
unprotected, and its record starts; with no room it waits. When the record completes, the page's writes go on (R435,
R441). A write held for its page proceeds once the page is dirty, its record complete and no earlier write of its line
waits (R435). -/
def Sys2Proof.Claims.WindowPages : Prop :=
  ∀ (s : State) (pg : Nat), s.dev.phase = .run →
    let x := s.dev.hup
    (pg ∉ x.clean ∨ pageWanted s.dev pg = false → exec (.pageDirty pg) s = .next s) ∧
    (pg ∈ x.clean → pageWanted s.dev pg = true →
      (unprotected s.dev = false → winLimit s.dev < dirtyPages s.dev + 1 →
        exec (.pageDirty pg) s = .next (s.withDev (setReg s.dev HUP_STAT 4 1 1))) ∧
      (unprotected s.dev = true ∨ dirtyPages s.dev + 1 ≤ winLimit s.dev → ∃ t, exec (.pageDirty pg) s = .next t ∧
        pg ∉ t.dev.hup.clean ∧ pg ∈ t.dev.hup.records ∧ pg ∉ t.dev.hup.wants ∧ pg ∈ t.dev.hup.order ∧
        (∀ y, y ≠ pg → (y ∈ t.dev.hup.clean ↔ y ∈ x.clean)) ∧ t.dev.hup.image = x.image ∧ t.dev.mem = s.dev.mem)) ∧
    (ldgState s.dev ≠ 3 → pg ∈ x.records → ∃ t, exec (.dirtyMapRecordComplete pg) s = .next t ∧
      pg ∉ t.dev.hup.records ∧ pg ∉ t.dev.hup.mapClean ∧ (∀ y, y ≠ pg → (y ∈ t.dev.hup.records ↔ y ∈ x.records)) ∧
      (unprotected s.dev = true → pg ∈ t.dev.hup.strict) ∧ (unprotected s.dev = false → t.dev.hup.strict = x.strict)) ∧
    (ldgState s.dev = 3 ∨ pg ∉ x.records → exec (.dirtyMapRecordComplete pg) s = .next s) ∧
    (∀ i, (∀ w, x.held[i]? = some w → releasable s.dev i w = false) → exec (.heldWriteRelease i) s = .next s) ∧
    (∀ i w, x.held[i]? = some w → (∀ y ∈ x.held.take i, y.line ≠ w.line) →
      winPage s.dev w.line = none ∨ (winPage s.dev w.line = some pg ∧ pg ∉ x.clean ∧ pg ∉ x.records) →
          exec (.heldWriteRelease i) s = .next (s.withDev (sliceWrite
        { s.dev with hup := { x with held := x.held.take i ++ x.held.drop (i + 1) } } w 1)))

/-- A memory whose reads in class 3 are served and meet no error: no bit is flipped, no injection waits, no channel has
failed or holds such a read back, and no dirty victim waits in a slice. -/
structure Sys2Proof.Machine.MemoryQuiet (d : Device) : Prop where
  bits : d.flips = [] ∧ d.galFlips = []
  marks : d.ras.marks = [] ∧ d.ras.armed = []
  chans : ∀ c : Chan, chanFailed d c = false ∧ mayRead d c ⟨3, 0, false⟩ = true
  victims : ∀ t : Tile, d.gal[t].victims = []

/-- The cleaner takes a page that has to be cleaned at once first, copies each of its lines to the image, and the page
is clean in the map; other pages' image bytes stay (R436, R441). Where its reads meet no error, the image then holds
each line as the coherent memory does, poisoned ones as poisoned. It does nothing while it has nothing to do, while
the image is kept, or with a FAILED ledger. -/
def Sys2Proof.Claims.WindowCleaner : Prop :=
  ∀ s : State, s.dev.phase = .run →
    (cleanerRuns s.dev = false ∨ nextDirty s.dev = none → exec .cleanerPageClean s = .next s) ∧
    (∀ pg, cleanerRuns s.dev = true → nextDirty s.dev = some pg →
      (cleanPage { s.dev with waits := false } pg).waits = false →
      ∃ t, exec .cleanerPageClean s = .next t ∧ pg ∈ t.dev.hup.clean ∧ pg ∈ t.dev.hup.mapClean ∧ pg ∉ t.dev.hup.strict ∧
        pg ∉ t.dev.hup.order ∧
        (∀ b, b < pg * 65536 ∨ pg * 65536 + 65536 ≤ b → mget t.dev.hup.image b = mget s.dev.hup.image b)) ∧
    (∀ pg, cleanerRuns s.dev = true → nextDirty s.dev = some pg → MemoryQuiet s.dev → (∀ k < 1024,
        (∀ h : Hart, sfind s.dev.harts[h].lines (winBase s.dev + pg * 65536 + 64 * k) = none) ∧
        sfind s.dev.gal[homeOf s.dev (winBase s.dev + pg * 65536 + 64 * k)].dir
          (winBase s.dev + pg * 65536 + 64 * k) = none) →
      ∃ t, exec .cleanerPageClean s = .next t ∧ pg ∈ t.dev.hup.clean ∧ pg ∈ t.dev.hup.mapClean ∧ pg ∉ t.dev.hup.strict ∧
        pg ∉ t.dev.hup.order ∧ t.dev.mem = s.dev.mem ∧
        (∀ k < 1024, let l := cohLine s.dev (winBase s.dev + pg * 65536 + 64 * k)
          mline t.dev.hup.image (pg * 65536 + 64 * k) = l.1 ∧
          (pg * 65536 + 64 * k ∈ t.dev.hup.imagePoison ↔ l.2 = true)) ∧
        (∀ b, b < pg * 65536 ∨ pg * 65536 + 65536 ≤ b → mget t.dev.hup.image b = mget s.dev.hup.image b)) ∧
    (∀ pg rest, s.dev.hup.strict = pg :: rest → nextDirty s.dev = some pg)

/-- A power failure ends the part's work: no engine runs, a quiet window that has begun ends and one that has not is
cancelled, and no store waits in a core. With a store fitted and the image not kept the write buffer and the records
reach media and the pages are copied: a COMPLETE drain raises PERSIST_DONE and leaves its duration in its outcome
record, as does one that lost the pages of failed channels; one that runs out of energy does not, and stays DRAINING
in HUP_STAT. With no store fitted nothing is saved. A part that drains or has drained ignores it (R442 to R445, R447,
R557). -/
def Sys2Proof.Claims.PowerFailure : Prop :=
  ∀ (s : State) (o : DrainEnv),
    (s.dev.phase = .draining ∨ s.dev.phase = .persisted → exec (.pwrfailAccept o) s = .next s) ∧
    (s.dev.phase ≠ .draining → s.dev.phase ≠ .persisted → ∃ t, exec (.pwrfailAccept o) s = .next t ∧
      t.dev.phase = .persisted ∧ t.dev.hup.chgEn = false ∧ t.dev.hup.cleaning = false ∧
      (∀ e : Eng, t.dev.engines[e].run ≠ .running) ∧ (∀ h : Hart, t.dev.harts[h].sb = []) ∧
      (∀ c : Chan, inQuiet t.dev c = false ∧ (inQuiet s.dev c = false → regF s.dev BEAT_QW_PEND c.val 1 = 1 →
        regF t.dev (BEAT_QW_NEXT c.val) 63 1 = 0 ∧ regF t.dev BEAT_QW_PEND c.val 1 = 0)) ∧
      (regF s.dev HUP_CFG 0 1 = 0 → regF t.dev HUP_STAT 0 2 = 0 ∧ t.dev.hup.image = s.dev.hup.image ∧
        t.dev.hup.dischEn = false) ∧
      (regF s.dev HUP_CFG 0 1 = 1 → s.dev.hup.kept = true ∨ s.dev.pkg.bootDone = false ∨ ldgState s.dev = 3 →
        t.dev.hup.image = s.dev.hup.image ∧ t.dev.hup.persistDone = true) ∧
      (regF s.dev HUP_CFG 0 1 = 1 → s.dev.hup.kept = false → s.dev.pkg.bootDone = true → ldgState s.dev ≠ 3 →
        let code := field t.dev.hup.outcome 0 2
        t.dev.hup.records = [] ∧ t.dev.ledger.staged = [] ∧ code ∈ [1, 2, 3] ∧
        (t.dev.hup.persistDone = true ↔ code ≠ 2) ∧ regF t.dev HUP_STAT 0 2 = (if code = 2 then 1 else 2) ∧
        (code ≠ 2 → field t.dev.hup.outcome 40 16 = o.ms % 2 ^ 16 ∧ (code = 3 ↔ t.dev.hup.lost ≠ [])) ∧
        (o.copied = none → code ≠ 2) ∧ (o.lost = [] → t.dev.hup.lost = [])) ∧
      (regF s.dev HUP_CFG 0 1 = 1 → s.dev.hup.kept = false → s.dev.pkg.bootDone = true → ldgState s.dev ≠ 3 →
        o.lost = [] → o.copied = none → t.dev.hup.persistDone = true ∧ regF t.dev HUP_STAT 0 2 = 2 ∧
        field t.dev.hup.outcome 0 2 = 1 ∧ field t.dev.hup.outcome 40 16 = o.ms % 2 ^ 16 ∧ t.dev.hup.records = [] ∧
        t.dev.ledger.staged = []))

/-! ### The Warden's mailbox and partitions (R416 to R418, R471 to R498) -/

/-- A mailbox command that executes: the part is past its start-up, the doorbell has been accepted, and the command area
names the opcode (R490, R492). -/
structure Sys2Proof.Machine.BoxExecutes (s : State) (op : Nat) : Prop where
  isReady : s.dev.phase = .run ∨ s.dev.phase = .recovery
  busy : regF s.dev WRD_STAT 0 1 = 1
  named : cmdOp s.dev = op

/-- A device with one more long command pending, as the areas describe it. -/
def Sys2Proof.Machine.withLong (d : Device) (data : Nat) : Device :=
  { d with warden := { d.warden with longs := d.warden.longs ++ [{
      tag := cmdTag d, op := cmdOp d, params := cmdParams d, dmaAddr := regF d WRD_DMA_ADDR 6 46 * 64
      dmaLen := regF d WRD_DMA_LEN 0 32, data := data }] } }

/-- A doorbell while a command executes, or in a pause, is ignored and counted. Another is accepted: a command that the
mailbox turns away is answered at once with the status of its check, and one that it takes shows BUSY. The response area
holds opcode, tag, status, the number of result bytes and the bytes; BUSY falls and DONE rises (R490 to R494). -/
def Sys2Proof.Claims.MailboxDoorbell : Prop :=
  (∀ (s : State) (w : RegAccess), s.dev.TakesWrite WRD_DOORBELL w.agent → strobe w 0 = true →
    (regF s.dev WRD_STAT 0 1 = 1 ∨ regF s.dev WRD_STAT 2 2 = 1 → ∃ t, exec (.mailboxDoorbell w) s = .next t ∧
      s.onlyRegs t [WRD_ERR] ∧ regF t.dev WRD_ERR 0 1 = 1 ∧
      regF t.dev WRD_ERR 16 16 = satInc (regF s.dev WRD_ERR 16 16) 16) ∧
    (regF s.dev WRD_STAT 0 1 = 0 → regF s.dev WRD_STAT 2 2 ≠ 1 →
      let st := boxStatus s.dev (w.agent == .bmc)
      ∃ t, exec (.mailboxDoorbell w) s = .next t ∧ regF t.dev WRD_STAT 5 1 = (if w.agent = .bmc then 1 else 0) ∧
        (st = 0 → s.onlyRegs t [WRD_STAT] ∧ regF t.dev WRD_STAT 0 1 = 1 ∧ regF t.dev WRD_STAT 1 1 = 0) ∧
        (st ≠ 0 → ∃ d, t.dev = respond d st 0 0 ∧ cmdArea d = cmdArea s.dev ∧ d.warden = s.dev.warden) ∧
        (cmdRow (cmdOp s.dev) = none → st = 0x622) ∧
        (∀ r, cmdRow (cmdOp s.dev) = some r → regF s.dev WRD_STAT 2 2 ≠ 2 → recoveryOp (cmdOp s.dev) = false →
          w.agent = .bmc → r.i3c = false → st = 0x613))) ∧
  (∀ (s : State) (w : RegAccess), s.dev.TakesWrite WRD_DOORBELL w.agent → strobe w 0 = false →
    exec (.mailboxDoorbell w) s = .next s) ∧
  ∀ (d : Device) (st n result : Nat), n ≤ 244 → let t := respond d st n result
    (∀ k < 32, reg t (WRD_RSP k) = BitVec.ofNat 64 ((cmdOp d + cmdTag d * 2 ^ 16 + st * 2 ^ 32 + n * 2 ^ 64 +
      result % 2 ^ (8 * n) * 2 ^ 96) / 2 ^ (64 * k))) ∧
    regF t WRD_STAT 0 1 = 0 ∧ regF t WRD_STAT 1 1 = 1 ∧ t = { d with regs := t.regs } ∧
    ∀ y, y ≠ WRD_STAT → (∀ k < 32, y ≠ WRD_RSP k) → reg t y = reg d y

/-- POP removes the oldest event, and an event that waited enters the FIFO and sends its MSI. RESULT_GET answers the
result of the oldest ended command with the tag, and NOT_FOUND for another tag. A long command that is not there does
not end (R492, R495, R496). -/
def Sys2Proof.Claims.MailboxEvents : Prop :=
  ∀ s : State,
    (∀ w : RegAccess, s.dev.TakesWrite WRD_EVENT_CTL w.agent →
      (strobe w 0 = false → exec (.eventPop w) s = .next s) ∧
      (strobe w 0 = true →
        let d := { s.dev with warden := { s.dev.warden with ended := s.dev.warden.ended.tail } }
        exec (.eventPop w) s = .next (s.withDev (if 8 < s.dev.warden.ended.length then eventMsi d else d)))) ∧
    (BoxExecutes s 0xb00 →
      (∀ e, s.dev.warden.ended.find? (fun e => e.tag == param s.dev 0 2) = some e →
        exec .resultGet s = .next (s.withDev (respond s.dev 0 244 e.result))) ∧
      ((∀ e ∈ s.dev.warden.ended, e.tag ≠ param s.dev 0 2) →
          exec .resultGet s = .next (s.withDev (respond s.dev 2 0 0)))) ∧
    (∀ i o, s.dev.warden.longs[i]? = none → exec (.longCommandEnd i o) s = .next s)

/-- Each long command ends with its status, its result and its effect: the event, with tag and opcode, enters the
FIFO, and an entry that finds room there sends the MSI. A destroyed partition's resources return once its entries have
completed and nothing uses its segments; engines leave once their units are over; a partition is frozen once its work
has ended; a saved image reaches its buffers with its seal, and a restored one makes its partition; a stage programs
the slot that is not active; settings take the copy that was not current; a namespace goes once it is idle; a window's
setting takes effect with every page dirty; snapshot and lifetime log reach their buffer. A command whose condition
does not hold yet stays, as does any but REC_BOOT in a pause or in recovery (R416, R417, R434, R475, R478, R482, R485,
R486, R488, R492, R494, R495, R502, R503, R509 to R511, R525, R530). -/
def Sys2Proof.Claims.LongCommandEnds : Prop :=
  ∀ (s : State) (i : Nat) (o : EndEnv) (c : LongCmd), s.dev.phase = .run ∨ s.dev.phase = .recovery →
    s.dev.warden.longs[i]? = some c →
    let d := s.dev
    let stays := exec (.longCommandEnd i o) s = .next s
    let event := fun st res => d.warden.ended ++ [(⟨c.tag, c.op, st, res⟩ : EndedCmd)]
    let ends := fun (f : Device → Device) st res => exec (.longCommandEnd i o) s = .next (s.withDev (
      let e := { f d with warden := { (f d).warden with
        longs := d.warden.longs.take i ++ d.warden.longs.drop (i + 1), ended := event st res } }
      if e.warden.ended.length ≤ 8 then eventMsi e else e))
    let key := paramF c.params 0 1
    let p := partNo key
    (paused d = true → c.op ≠ 0xa02 → stays) ∧
    (paused d = false →
      (c.op = 0x101 →
        let settled := ((partQueues d p).all fun q => q.2.entries.all fun a => q.2.kept.contains a.index) = true ∧
          (partHandles d p).all (movable d) = true
        (settled → ends (destroyPart · p) 0 0) ∧ (¬ settled → stays)) ∧
      (c.op = 0x102 → let p := partNo (rdF c.data 3 1)
        (sfind d.parts p.val = none → ends id 0x611 0) ∧
        ((sfind d.parts p.val).isSome = true →
          (key = 0 → ends (fun d => setEngines d p fun m => Nat.lor m (rdF c.data 8 32)) 0 0) ∧
          (key ≠ 0 → (∀ e ∈ rdEngines c.data, unitOver d e = true) → ends (fun d => (rdEngines c.data).foldl (fun d e =>
            updEng d e fun x => { x with owner := none }) d) 0 0) ∧
          (key ≠ 0 → (∃ e ∈ rdEngines c.data, unitOver d e = false) → stays))) ∧
      (c.op = 0x103 → (sfind d.parts p.val = none → ends id 0x611 0) ∧ ∀ x, sfind d.parts p.val = some x →
        (x.destroying = true ∨ x.state ≠ .freezing → ends id 0x613 0) ∧
        (x.destroying = false → x.state = .freezing →
          (x.freezeAt ≠ none ∨ freezeDone d p = false → stays) ∧
          (x.freezeAt = none → freezeDone d p = true → ends (fun d => { d with
            parts := sput d.parts p.val { x with state := .frozen } }) 0 0))) ∧
      (c.op = 0x105 → let inc := paramF c.params 1 1
        let st := saveStatus d key inc
        let waits := inc = 1 ∧ ∃ x ∈ d.ledger.staged, ∃ n ∈ d.ledger.nss, n.2.owner = some p ∧ n.1 = x.key / 2 ^ 40
        (st ≠ 0 → ends id st 0) ∧ (st = 0 → waits → stays) ∧
        (st = 0 → ¬ waits → (bufferList d c.dmaAddr (c.dmaLen / 16) = none → ends id 3 0) ∧
          ∀ l, bufferList d c.dmaAddr (c.dmaLen / 16) = some l →
            let img := imageBytes d p (savePart d p (inc == 1)) (paramF c.params 8 32)
            let room := l.foldl (fun n b => n + b.2) 0
            (room < img.length → ends (sealDone · img.length) 0x618 0) ∧
            (img.length ≤ room → ends (fun d => sealDone ((fillBuffers img l).1.foldl (fun d w =>
              bulkWrite d w.1 w.2) d) img.length) 0 img.length))) ∧
      (c.op = 0x106 → let n := (c.dmaLen - 128) / 16
        let st := bulkStatus d c.dmaAddr c.dmaLen (128 + 16 * n)
        (st ≠ 0 → ends id st 0) ∧ (st = 0 → bufferList d (c.dmaAddr + 128) n = none → ends id 3 0) ∧
        ∀ l, st = 0 → bufferList d (c.dmaAddr + 128) n = some l →
          let all := l.flatMap fun b => bytesOf (cohRead d b.1 b.2).1 b.2
          let img := all.take (ofBytes ((all.drop 0x10).take 8))
          let st := restoreStatus d c.data img (paramF c.params 8 32)
          (st ≠ 0 → ends (sealDone · img.length) st 0) ∧
          (st = 0 → ends (fun d => putPart (sealDone d img.length) c.data (Config.readImage img)) 0 0)) ∧
      (c.op = 0x201 → let n := idleSlot d
        let off := paramF c.params 0 4
        (o.flash = true → ends (fun d =>
          let d := setSlotData d n (program (slotData d n) off (bytesOf c.data c.dmaLen))
          let d := if off = 0 then putRec d fun r => setSlotState r n 0 else d
          if paramF c.params 4 1 = 1 then putRec d fun r => setSlotState r n 1 else d) 0 0) ∧
        (o.flash = false → ∃ t, exec (.longCommandEnd i o) s = .next t ∧ t.dev.warden.ended = event 0x626 0)) ∧
      (c.op = 0x202 → (o.flash = false → ends id 0x626 0) ∧ (o.flash = true → stays)) ∧
      (c.op = 0x204 → let l := parseSettings (bytesOf c.data (16 + 12 * fieldN c.data 32 32))
        (∀ x, l = some x → ends (putSettings · x o.flash) (if o.flash then 0 else 0x626) 0) ∧
            (l = none → ends id 3 0)) ∧
      (c.op = 0x301 → ((sfind d.ledger.nss key).isNone = true → ends id 2 0) ∧
        ((sfind d.ledger.nss key).isSome = true → nsBusy d key = true → stays) ∧
        ((sfind d.ledger.nss key).isSome = true → nsBusy d key = false →
            ends (fun d => { d with ledger := { d.ledger with
          nss := sdel d.ledger.nss key, media := d.ledger.media.filter fun m => m.1 / 2 ^ 40 != key
          lost := d.ledger.lost.filter fun m => m / 2 ^ 40 != key
          staged := d.ledger.staged.filter fun s => s.key / 2 ^ 40 != key } }) 0 0)) ∧
      (c.op = 0x501 → let base := paramF c.params 0 8
        let pages := paramF c.params 8 4
        let st := windowStatus d base pages
        (st ≠ 0 → ends id st 0) ∧ (st = 0 → base = winBase d → pages = winPages d → ends id 0 0) ∧
        (st = 0 → base ≠ winBase d ∨ pages ≠ winPages d → ∃ t, exec (.longCommandEnd i o) s = .next t ∧
          t.dev.warden.ended = event 0 0 ∧ regF t.dev HUP_WIN 16 36 = base / 65536 % 2 ^ 36 ∧
          regF t.dev HUP_LIMIT 0 19 = pages ∧ t.dev.hup.clean = [] ∧ t.dev.hup.mapClean = [] ∧ t.dev.hup.image = [] ∧
          (sget t.dev.hup.saved HUP_WIN 0).toNat = base / 65536 % 2 ^ 36 * 65536 ∧
          (sget t.dev.hup.saved HUP_LIMIT 0).toNat = pages)) ∧
      (∀ l f, (c.op = 0x601 ∧ f = formShadow ∧ regF (formShadow d) SNAP_STAT 0 2 ≠ 0 ∧
            l = Config.snapBytes (reg (formShadow d) SNAP_STAT) (reg (formShadow d) SNAP_WHEN) (formShadow d).ras.shadow) ∨
          (c.op = 0x700 ∧ f = id ∧ l = Config.lifeBytes d.life.work) →
        let st := bulkStatus (f d) c.dmaAddr c.dmaLen l.length
        (st ≠ 0 → ends f st 0) ∧ (st = 0 → ends (fun d => bulkWrite (f d) c.dmaAddr l) 0 l.length)) ∧
      (c.op = 0x601 → regF (formShadow d) SNAP_STAT 0 2 = 0 → ends formShadow 0x613 0) ∧
      (c.op = 0x701 → ends (mirrorLog · o.flash) (if o.flash then 0 else 0x626) 0)) ∧
    (c.op = 0xa02 → (inRecovery d = false → ends id 0x613 0) ∧
      (inRecovery d = true → imageFault d 0 ≠ 0 → ends id 0x624 (imageFault d 0 * 2 ^ 64)) ∧
      (inRecovery d = true → imageFault d 0 = 0 → d.phase = .run → ∃ t, exec (.longCommandEnd i o) s = .next t ∧
        (bootRec t.dev).active = 0 ∧ (bootRec t.dev).trial = true ∧ regF t.dev WRD_STAT 2 2 = 0 ∧
        t.dev.warden.image.version = imgField (slotData d 0) 8 8 ∧
        ∃ e ∈ t.dev.warden.ended, e.tag = c.tag ∧ e.op = 0xa02 ∧ e.status = 0))

/-- Namespaces: NS_CREATE takes the lowest free number, attached to the partition, when space and quota allow;
NS_ATTACH gives a free namespace to a partition; NS_DELETE of one that exists is long. Each check that fails answers
its status and changes nothing. LDG_SELFTEST starts and aborts as LDG_ST_CTL does (R417, R418, R432). -/
def Sys2Proof.Claims.NamespaceCommands : Prop :=
  ∀ s : State,
    let d := s.dev
    let answers := fun c d' st n r => exec c s = .next (s.withDev (respond d' st n r))
    let a := param d 0 1
    let b := param d 1 1
    (BoxExecutes s 0x300 →
      (63 < a ∨ b = 0 ∨ 95 < b → answers .nsCreate d 3 0 0) ∧
      (a ≤ 63 → 0 < b → b ≤ 95 → sfind d.parts a = none → answers .nsCreate d 0x611 0 0) ∧
      (a ≤ 63 → 0 < b → b ≤ 95 → (sfind d.parts a).isSome = true → freeNsid d = none → answers .nsCreate d 0x628 0 0) ∧
      (∀ k, a ≤ 63 → 0 < b → b ≤ 95 → (sfind d.parts a).isSome = true → freeNsid d = some k →
        (freeGib d < b ∨ ledgerQuota d a < attachedGib d a + b → answers .nsCreate d 0x627 0 0) ∧
        (b ≤ freeGib d → attachedGib d a + b ≤ ledgerQuota d a → answers .nsCreate { d with ledger := { d.ledger with
          nss := sput d.ledger.nss k ⟨b, some (partNo a), a⟩ } } 0 1 k))) ∧
    (BoxExecutes s 0x303 →
      (sfind d.ledger.nss a = none → answers .nsAttach d 2 0 0) ∧
      (∀ n, sfind d.ledger.nss a = some n →
        (sfind d.parts b = none → answers .nsAttach d 0x611 0 0) ∧
        ((sfind d.parts b).isSome = true → n.owner ≠ none → answers .nsAttach d 0x613 0 0) ∧
        ((sfind d.parts b).isSome = true → n.owner = none → ledgerQuota d b < attachedGib d b + n.size →
          answers .nsAttach d 0x627 0 0) ∧
        ((sfind d.parts b).isSome = true → n.owner = none → attachedGib d b + n.size ≤ ledgerQuota d b →
          answers .nsAttach { d with ledger := { d.ledger with
            nss := sput d.ledger.nss a ⟨n.size, some (partNo b), b⟩ } } 0 0 0))) ∧
    (BoxExecutes s 0x301 →
      (a = 0 ∨ 64 < a → answers .nsDelete d 3 0 0) ∧
      (0 < a → a ≤ 64 → sfind d.ledger.nss a = none → answers .nsDelete d 2 0 0) ∧
      (0 < a → a ≤ 64 → (sfind d.ledger.nss a).isSome = true → answers .nsDelete (withLong d 0) 0x620 0 0)) ∧
    (BoxExecutes s 0x302 →
      (a = 0 → answers .ldgSelftest d 0 0 0) ∧ (a = 1 → answers .ldgSelftest (startTest d 0) 0 0 0) ∧
      (a = 2 → answers .ldgSelftest (startTest d 1) 0 0 0) ∧ (a = 3 → answers .ldgSelftest (endTest d 3 0) 0 0 0) ∧
      (3 < a → answers .ldgSelftest d 3 0 0))

/-- Partitions. PART_CREATE with a descriptor that is well formed, of a number that is free, whose resources are free,
makes the partition with its engines, banks and quota; PART_DESTROY, PART_ENGINES, PART_FREEZE, PART_SAVE and
PART_RESTORE are long; PART_RESUME resumes a frozen partition at the next tick; PART_LOG sets the granule log. Each
check that fails answers its status and changes nothing else (R472 to R475, R478, R482, R484, R485, R488, R489). -/
def Sys2Proof.Claims.PartitionCommands : Prop :=
  ∀ s : State,
    let d := s.dev
    let answers := fun c d' st => exec c s = .next (s.withDev (respond d' st 0 0))
    let a := param d 0 1
    let long := fun (c : Instr) (f : Device → Device) data => ∃ t e, exec c s = .next t ∧
      t.dev = respond (withLong e data) 0x620 0 0 ∧ e = f d
    let bulk := bulkStatus d (dmaAddr d) (dmaLen d) 128
    let v := (cohRead d (dmaAddr d) 128).1
    let p := rdF v 3 1
    (∀ c ∈ ([(.partCreate, 0x100), (.partEngines, 0x102), (.partRestore, 0x106)] : List (Instr × Nat)),
      BoxExecutes s c.2 → bulk ≠ 0 → answers c.1 d bulk) ∧
    (BoxExecutes s 0x100 → bulk = 0 →
      (rdStatus d v ≠ 0 → answers .partCreate d (rdStatus d v)) ∧
      (rdBad v = true → rdStatus d v = 3) ∧
      (rdBad v = false → (sfind d.parts p).isSome = true → rdStatus d v = 0x610) ∧
      (rdBad v = false → sfind d.parts p = none → rdAvailable d v = false → rdStatus d v = 0x612) ∧
      (rdStatus d v = 0 → ∃ t e, exec .partCreate s = .next t ∧ t.dev = respond e 0 0 0 ∧
        sfind e.parts p = some { newPart v with desc := BitVec.ofNat 1024 v } ∧
        (∀ j, j ≠ p → sfind e.parts j = sfind d.parts j) ∧
        (∀ x : Eng, e.engines[x].owner = if v.testBit (64 + x.val) then some (partNo p) else d.engines[x].owner) ∧
        sfind e.pager.quota p = some (BitVec.ofNat 64 (rdF v 0x58 8)))) ∧
    (∀ c ∈ ([(.partDestroy, 0x101), (.partFreeze, 0x103), (.partResume, 0x104),
        (.partLog, 0x107)] : List (Instr × Nat)),
      BoxExecutes s c.2 → (c.2 = 0x101 → a ≠ 0) →
        (63 < a → answers c.1 d 3) ∧ (a ≤ 63 → sfind d.parts a = none → answers c.1 d 0x611) ∧
        (∀ x, a ≤ 63 → sfind d.parts a = some x → x.destroying = true → answers c.1 d 0x613)) ∧
    (BoxExecutes s 0x101 → a = 0 → answers .partDestroy d 3) ∧
    (∀ x, a ≤ 63 → sfind d.parts a = some x → x.destroying = false →
      (BoxExecutes s 0x101 → a ≠ 0 → let e := destroyStart { d with waits := false } (partNo a)
        sfind e.parts a = some { x with destroying := true, freezeAt := none, resumeAt := none } ∧
        (e.waits = false → exec .partDestroy s = .next (s.withDev {
          respond (withLong e 0) 0x620 0 0 with waits := d.waits }))) ∧
      (BoxExecutes s 0x103 → x.state = .running → long .partFreeze (fun d => { d with
        parts := sput d.parts a { x with
          state := .freezing, freezeAt := some (freezeTick d), freezeBeat := freezeTick d } }) 0) ∧
      (BoxExecutes s 0x103 → x.state ≠ .running → answers .partFreeze d 0x613) ∧
      (BoxExecutes s 0x104 → x.state ≠ .frozen → answers .partResume d 0x613) ∧
      (BoxExecutes s 0x104 → x.state = .frozen → x.restored = true → rangesMet d (partNo a) x = false →
        answers .partResume d 0x617) ∧
      (BoxExecutes s 0x104 → x.state = .frozen → (x.restored = true → rangesMet d (partNo a) x = true) →
        ∃ t e, exec .partResume s = .next t ∧ t.dev = respond e 0 0 0 ∧ sfind e.parts a = some { x with
          resumeAt := some (beatNow d + 1), restored := false, needs := [], places := [] }) ∧
      (BoxExecutes s 0x104 → x.state = .frozen → x.restored = false → x.places = [] →
        (∀ i ∈ d.sched.insts, i.2.part ≠ partNo a) → answers .partResume { d with
          parts := sput d.parts a { x with
            resumeAt := some (beatNow d + 1), restored := false, needs := [], places := [] }
          queues := d.queues.map fun q => if q.1 / 16384 = a then (q.1, { q.2 with due := true }) else q } 0) ∧
      (BoxExecutes s 0x107 → answers .partLog { d with parts := sput d.parts a { x with
        logAddr := param d 8 8, logBase := param d 0x10 8, logGranules := param d 0x18 4 } } 0) ∧
      (BoxExecutes s 0x105 → param d 1 1 ≤ 1 → x.state = .frozen →
        let st := bulkStatus d (dmaAddr d) (dmaLen d) (dmaLen d / 16 * 16)
        let own := ∃ n ∈ d.ledger.nss, n.2.owner = some (partNo a)
        (param d 1 1 = 0 → own → answers .partSave d 0x614) ∧
        (param d 1 1 = 1 ∨ ¬ own → (st ≠ 0 → answers .partSave d st) ∧ (st = 0 → long .partSave id 0))) ∧
      (BoxExecutes s 0x105 → param d 1 1 ≤ 1 → x.state ≠ .frozen → answers .partSave d 0x613)) ∧
    (BoxExecutes s 0x105 → 1 < param d 1 1 ∨ 63 < a → answers .partSave d 3) ∧
    (BoxExecutes s 0x105 → param d 1 1 ≤ 1 → a ≤ 63 → (sfind d.parts a = none → answers .partSave d 0x611) ∧
      ∀ x, sfind d.parts a = some x → x.destroying = true → answers .partSave d 0x613) ∧
    (BoxExecutes s 0x102 → bulk = 0 → (1 < a ∨ p = 0 → answers .partEngines d 3) ∧
      (a ≤ 1 → 63 < p → answers .partEngines d 3) ∧
      (a ≤ 1 → 0 < p → p ≤ 63 → (sfind d.parts p = none → answers .partEngines d 0x611) ∧
        ∀ x, sfind d.parts p = some x → x.destroying = true → answers .partEngines d 0x613)) ∧
    (BoxExecutes s 0x106 → bulk = 0 → long .partRestore id v) ∧
    (∀ x, BoxExecutes s 0x102 → bulk = 0 → 0 < p → sfind d.parts p = some x → x.destroying = false → p ≤ 63 →
      (1 < a → answers .partEngines d 3) ∧
      (a = 0 → (∀ e ∈ rdEngines v, engInPool d e = true) → ∃ t e, exec .partEngines s = .next t ∧
        t.dev = respond (withLong e v) 0x620 0 0 ∧ e = { d with engines := e.engines } ∧
        ∀ y : Eng, e.engines[y] = { d.engines[y] with
          owner := if v.testBit (64 + y.val) then some (partNo p) else d.engines[y].owner }) ∧
      (a = 0 → (∃ e ∈ rdEngines v, engInPool d e = false) → answers .partEngines d 0x612) ∧
      (a = 1 → (∀ e ∈ rdEngines v, d.engines[e].owner = some (partNo p)) → long .partEngines (fun d => { d with
        parts := sput d.parts p { x with desc := BitVec.ofNat 1024 (withEngines x.desc.toNat
          (rdF x.desc.toNat 8 32 - Nat.land (rdF x.desc.toNat 8 32) (rdF v 8 32))) } }) v) ∧
      (a = 1 → (∃ e ∈ rdEngines v, d.engines[e].owner ≠ some (partNo p)) → answers .partEngines d 3))

/-- GET_PARTITION writes the report of its partition to the page it names and ends with status 0; a page that is not
aligned ends INVALID_FIELD and one that cannot be written 0xf, with bytes that the spec leaves open (R282, R283,
R481). -/
def Sys2Proof.Claims.PartitionReport : Prop :=
  ∀ (s : State) (p : Part) (i : Nat) (a : Accepted), s.dev.phase = .run → adminEntry s.dev p i 8 = some a →
    let buf := lineRead a.raw 0x10 8
    (bodyClear a.raw [(0x10, 8)] = false ∨ buf % 4096 ≠ 0 →
      exec (.getPartition p i) s = .next (s.withDev (decideEntry s.dev p 0 i 3 []))) ∧
    (bodyClear a.raw [(0x10, 8)] = true → buf % 4096 = 0 →
      (∀ d, ioWrite s.dev p buf 4096 (partReport s.dev p) = (true, d) →
        exec (.getPartition p i) s = .next (s.withDev (decideEntry d p 0 i 0 []))) ∧
      (∀ d, ioWrite s.dev p buf 4096 (partReport s.dev p) = (false, d) →
        exec (.getPartition p i) s = .next (s.withDev (decideEntry (openReport d p buf) p 0 i 0xf [])))) ∧
    partReport s.dev p % 2 ^ 1024 = partDesc s.dev p

/-! ### Firmware, settings, identity and the Warden's other commands (R27, R383, R434, R447, R496, R499 to R513, R524)
-/

/-- FW_INFO, REC_INFO, SETTINGS_GET and PWR_INFO answer what the boot record, the settings and the registers hold. A
command for what is not there answers INVALID_FIELD (R496, R509). -/
def Sys2Proof.Claims.WardenReports : Prop :=
  ∀ s : State,
    let d := s.dev
    let answers := fun c n r => exec c s = .next (s.withDev (respond d 0 n r))
    let r := bootRec d
    let w := d.warden
    (BoxExecutes s 0x200 → ∀ v, (slotState r (1 - r.active) = 1 → v = imgField (slotData d (1 - r.active)) 8 8) →
      (slotState r (1 - r.active) ≠ 1 → v = 0) →
      answers .fwInfo 32 (w.image.version + w.image.svn * 2 ^ 64 + w.fuses * 2 ^ 72 + r.active * 2 ^ 80 +
        (if r.trial then 1 else 0) * 2 ^ 88 + r.stateA * 2 ^ 96 + r.stateB * 2 ^ 104 + v * 2 ^ 128 +
        Config.romVersion % 2 ^ 64 * 2 ^ 192)) ∧
    (BoxExecutes s 0xa00 → answers .recInfo 12 (w.recCause + r.stateA * 2 ^ 32 + r.stateB * 2 ^ 40 + w.recBytes * 2 ^ 64)) ∧
    (BoxExecutes s 0x401 → answers .pwrInfo 12 (regF d PWR_STAT 0 10 + regF d PWR_HALL 0 16 * 2 ^ 32 +
      (regF d PWR_HALL 16 12 + regF d PWR_HALL 28 12 * 2 ^ 16) * 2 ^ 64)) ∧
    (∀ x, BoxExecutes s 0x203 → settingsNow d = some x →
      (∀ p, x.pairs[param d 0 2]? = some p → answers .settingsGet 24
        (x.schema + x.pairs.length * 2 ^ 32 + p.1 * 2 ^ 64 + p.2.toNat * 2 ^ 128)) ∧
      (x.pairs[param d 0 2]? = none → exec .settingsGet s = .next (s.withDev (respond d 3 0 0))))

/-- FW_STAGE, FW_ACTIVATE and SETTINGS_SET are long; each is turned away where the spec says so. A SETTINGS_SET that
ends well makes its list current, in the copy that was not; with the flash failed that copy is lost and the list in
force stays the one that was (R500, R502, R503, R510, R511). -/
def Sys2Proof.Claims.FirmwareCommands : Prop :=
  ∀ s : State,
    let d := s.dev
    let answers := fun c st => exec c s = .next (s.withDev (respond d st 0 0))
    let long := fun c data => exec c s = .next (s.withDev (respond (withLong d data) 0x620 0 0))
    let bulk := bulkStatus d (dmaAddr d) (dmaLen d)
    let bytes := fun n => (cohRead d (dmaAddr d) n).1
    (BoxExecutes s 0x201 →
      ((bootRec d).trial = true → answers .fwStage 0x613) ∧
      ((bootRec d).trial = false → 1 < param d 4 1 ∨ 2 ^ 23 < param d 0 4 + dmaLen d → answers .fwStage 3) ∧
      ((bootRec d).trial = false → param d 4 1 ≤ 1 → param d 0 4 + dmaLen d ≤ 2 ^ 23 →
        (bulk (dmaLen d) ≠ 0 → answers .fwStage (bulk (dmaLen d))) ∧
        (bulk (dmaLen d) = 0 → long .fwStage (bytes (dmaLen d))))) ∧
    (BoxExecutes s 0x202 →
      ((bootRec d).trial = true ∨ pendingCmds d ≠ 0 → answers .fwActivate 0x613) ∧
      ((bootRec d).trial = false → pendingCmds d = 0 → slotState (bootRec d) (idleSlot d) ≠ 1 →
          answers .fwActivate 0x623) ∧
      ((bootRec d).trial = false → pendingCmds d = 0 → slotState (bootRec d) (idleSlot d) = 1 → long .fwActivate 0)) ∧
    (BoxExecutes s 0x204 → bulk 16 ≠ 0 → answers .settingsSet (bulk 16)) ∧
    (BoxExecutes s 0x204 → bulk 16 = 0 →
      let n := bytes 16 / 2 ^ 32 % 2 ^ 32
      (512 < n → answers .settingsSet 3) ∧
      (n ≤ 512 → bulk (16 + 12 * n) ≠ 0 → answers .settingsSet (bulk (16 + 12 * n))) ∧
      (n ≤ 512 → bulk (16 + 12 * n) = 0 →
        (parseSettings (bytesOf (bytes (16 + 12 * n)) (16 + 12 * n)) = none → answers .settingsSet 3) ∧
        ((parseSettings (bytesOf (bytes (16 + 12 * n)) (16 + 12 * n))).isSome = true →
          long .settingsSet (bytes (16 + 12 * n))))) ∧
    (∀ i c o x, d.phase = .run → paused d = false → d.warden.longs[i]? = some c → c.op = 0x204 →
      parseSettings (bytesOf c.data (16 + 12 * fieldN c.data 32 32)) = some x →
      ∃ t, exec (.longCommandEnd i o) s = .next t ∧
        t.dev.warden.ended = d.warden.ended ++ [⟨c.tag, 0x204, if o.flash then 0 else 0x626, 0⟩] ∧
        (o.flash = true → settingsNow t.dev = some x) ∧
        (o.flash = false → ∀ y, (if d.warden.set1Cur then d.warden.set1 else d.warden.set0) = some y →
          settingsNow t.dev = some y))

/-- The activation: after the copy phase the pause begins, with the other slot active and on trial and every engine
held; once all engines rest, the firmware of the active slot resumes service, or a slot that fails a check, or whose
pause has another cause, is castled back first: the other slot is active again, and the part enters recovery where
that slot does not hold what was measured at its boot. In a trial the timer's end begins a pause that castles back;
the health confirmation, once the image's health flights have run, makes the active slot CONFIRMED and ends the trial
(R503 to R508). -/
def Sys2Proof.Claims.FirmwareActivation : Prop :=
  ∀ s : State, s.dev.phase = .run →
    let d := s.dev
    let r := bootRec d
    let pausesWith := fun (c : Instr) cause => ∃ t, exec c s = .next t ∧ regF t.dev WRD_STAT 2 2 = 1 ∧
      t.dev.warden.pause = some cause ∧ t.dev.warden.trialOn = false ∧ t.dev.life.saved = t.dev.life.work ∧
      (∀ e : Eng, d.engines[e].run ≠ .retired → regF t.dev (ENG_CTL e.val) 0 1 = 1) ∧ t.dev.engines = d.engines
    (d.warden.pause = none → (activateAt d).isSome = true → paused d = false → r.active ≤ 1 →
      pausesWith .activationPause 0 ∧
      ∃ t, exec .activationPause s = .next t ∧ (bootRec t.dev).active = 1 - r.active ∧
        (bootRec t.dev).trial = true ∧ (bootRec t.dev).attempts = 0 ∧ regF t.dev WRD_STAT 4 1 = 1) ∧
    (d.warden.pause = none → activateAt d = none → exec .activationPause s = .next s) ∧
    (∀ c, d.warden.pause = some c → enginesHeld d = false → exec .activationPause s = .next s) ∧
    (∀ cause, d.warden.pause = some cause → enginesHeld d = true → r.active ≤ 1 →
      let check := if cause = 0 then imageFault d r.active else 0
      let back := castleBack d (if cause = 0 then 1 else cause)
      let serves := fun (t : State) n => regF t.dev WRD_STAT 2 2 = 0 ∧ t.dev.warden.pause = none ∧
        (bootRec t.dev).active = n ∧ t.dev.warden.image.version = imgField (slotData d n) 8 8 ∧
        (∀ e : Eng, d.engines[e].run ≠ .retired → regF t.dev (ENG_CTL e.val) 0 1 = 0) ∧
        (∀ i c, activateAt d = some i → d.warden.longs[i]? = some c → ∃ e ∈ t.dev.warden.ended,
          e.tag = c.tag ∧ e.op = c.op ∧ e.status = if check = 0 then 0 else 0x624)
      ∃ t, exec .activationPause s = .next t ∧
        (cause = 0 → check = 0 → serves t r.active ∧ (bootRec t.dev).trial = r.trial) ∧
        (cause ≠ 0 ∨ check ≠ 0 → (bootRec t.dev).active = 1 - r.active ∧ (bootRec t.dev).trial = false ∧
          slotState (bootRec t.dev) r.active = 3 ∧ (bootRec t.dev).revert = (if cause = 0 then 1 else cause) ∧
          (measuredOk back (1 - r.active) = true → serves t (1 - r.active)) ∧
          (measuredOk back (1 - r.active) = false → regF t.dev WRD_STAT 2 2 = 2 ∧ t.dev.warden.pause = none))) ∧
    (d.warden.trialOn = true → paused d = false → pausesWith .trialTimerExpiry 2) ∧
    (d.warden.trialOn = false ∨ paused d = true → exec .trialTimerExpiry s = .next s) ∧
    (∀ ok, r.trial = false ∨ paused d = true ∨ flightsDue d = true → exec (.healthConfirmation ok) s = .next s) ∧
    (∀ ok, r.trial = true → paused d = false → flightsDue d = false → (d.warden.image.svn ≤ d.warden.fuses ∨
        ok = true) →
      ∃ t, exec (.healthConfirmation ok) s = .next t ∧ (bootRec t.dev).trial = false ∧
        (bootRec t.dev).active = r.active ∧ (r.active ≤ 1 → slotState (bootRec t.dev) r.active = 2) ∧
        t.dev.warden.fuses = max d.warden.fuses d.warden.image.svn ∧ t.dev.warden.trialOn = false ∧
        regF t.dev WRD_STAT 4 1 = 0) ∧
    (r.trial = true → paused d = false → flightsDue d = false → d.warden.fuses < d.warden.image.svn →
      ∃ t e, exec (.healthConfirmation false) s = .next t ∧
        t.dev.warden.ended = d.warden.ended ++ [e] ∧ e.status = 0x625 ∧ t.dev.warden.fuses = d.warden.fuses ∧
        (bootRec t.dev).trial = true)

/-- A changed boot record goes to the copy that is not in force, with the next sequence number, and is in force from
then on (R499). -/
def Sys2Proof.Claims.BootRecordUpdates : Prop :=
  ∀ (d : Device) (f : BootRecord → BootRecord),
    bootRec (putRec d f) = { f (bootRec d) with seq := ((bootRec d).seq + 1) % 2 ^ 32 } ∧
    regF (putRec d f) WRD_STAT 4 1 = (if (f (bootRec d)).trial then 1 else 0) ∧
    (recSecond d.warden = true → (putRec d f).warden.rec1 = d.warden.rec1) ∧
    (recSecond d.warden = false → d.warden.rec0.isSome = true → (putRec d f).warden.rec0 = d.warden.rec0)

/-- REC_LOAD programs its bytes into slot A, which its first chunk erases, and counts them; REC_BOOT is long. INJECT
arms its class, or marks the units of a CAM bank or the lines of DRAM that it names, while injection is enabled, and
is turned away else. ID_CERTS and ATTEST answer their bytes in the bulk buffer, or 0x618 where it is too small (R494,
R509, R513, R524). -/
def Sys2Proof.Claims.RecoveryInjectionIdentity : Prop :=
  ∀ s : State,
    let d := s.dev
    let answers := fun c d' st => exec c s = .next (s.withDev (respond d' st 0 0))
    let off := param d 0 4
    let n := param d 4 4
    (BoxExecutes s 0xa01 →
      (n = 0 ∨ 240 < n ∨ 2 ^ 23 < off + n → ∀ f, answers (.recLoad f) d 3) ∧
      (0 < n → n ≤ 240 → off + n ≤ 2 ^ 23 →
        (∃ t e, exec (.recLoad true) s = .next t ∧ t.dev = respond e 0 0 0 ∧
          (∀ k < n, flashByte e.warden.slotA (off + k) = BitVec.ofNat 8 (param d 8 n / 2 ^ (8 * k))) ∧
          (off = 0 → ∀ k, n ≤ k → flashByte e.warden.slotA k = 0xff) ∧
          e.warden.recBytes = (if off = 0 then n else d.warden.recBytes + n) ∧ e.warden.slotB = d.warden.slotB) ∧
        (∃ t e, exec (.recLoad false) s = .next t ∧ t.dev = respond e 0x626 0 0 ∧
          e.warden.recBytes = d.warden.recBytes ∧ e.warden.slotB = d.warden.slotB))) ∧
    (BoxExecutes s 0xa02 → answers .recBoot (withLong d 0) 0x620) ∧
    (BoxExecutes s 0x800 →
      let cls := param d 0 1
      let inst := param d 2 2
      let k := param d 0x10 2
      (regF d LIFE_CTL 0 1 = 0 → answers .inject d 0x613) ∧
      (regF d LIFE_CTL 0 1 ≠ 0 → injectable cls = none → answers .inject d 3) ∧
      (∀ m, regF d LIFE_CTL 0 1 ≠ 0 → injectable cls = some m → m ≤ inst ∨ k = 0 ∨ 256 < k → answers .inject d 3) ∧
      (∀ m, regF d LIFE_CTL 0 1 ≠ 0 → injectable cls = some m → inst < m → 0 < k → k ≤ 256 →
        (cls ∉ [0x03, 0x06, 0x15] → answers .inject { d with ras := { d.ras with
          armed := d.ras.armed ++ [⟨cls, inst, param d 8 8, k⟩] } } 0) ∧
        (cls = 3 → ∃ t e, exec .inject s = .next t ∧ t.dev = respond e 0 0 0 ∧
          (∀ j < k, let u := (param d 8 8 + j) % 1024
            (⟨3, inst, inst * 1024 + u, 1⟩ : Injection) ∈ e.ras.marks ∧
                (sfind e.banks[bankNo inst].bad u).isSome = true) ∧
          (∀ b : Bank, b.val ≠ inst → e.banks[b] = d.banks[b]) ∧ e.mem = d.mem) ∧
        (cls = 0x06 ∨ cls = 0x15 → ∃ t e, exec .inject s = .next t ∧ t.dev = respond e 0 0 0 ∧
          e = { d with ras := { d.ras with marks := e.ras.marks } } ∧
          (∀ j < k, let a := param d 8 8 + 64 * j
            inDram d a = true → (⟨cls, (chanOf d a).val, lineOf a, 1⟩ : Injection) ∈ e.ras.marks) ∧
          (∀ m ∈ e.ras.marks, m ∈ d.ras.marks ∨ m.cls = cls)))) ∧
    (BoxExecutes s 0x900 → dmaLen d < 8192 → answers .idCerts d 0x618) ∧
    (∀ l, BoxExecutes s 0x900 → 8192 ≤ dmaLen d →
      l = (Config.certChain ++ [Config.aliasCert d.warden.image.measure d.warden.image.svn d.warden.image.version]).flatMap
        (fun c => bytesOf c.length 4 ++ c) → bulkStatus d (dmaAddr d) (dmaLen d) l.length = 0 →
      exec .idCerts s = .next (s.withDev (respond (cohWrite d (dmaAddr d) l.length (ofBytes l) 0 1) 0 8 l.length))) ∧
    (BoxExecutes s 0x901 → dmaLen d < 150 → answers .attest d 0x618) ∧
    (∀ c l, (c = Instr.idCerts ∧ BoxExecutes s 0x900 ∧ 8192 ≤ dmaLen d ∧
          l = (Config.certChain ++ [Config.aliasCert d.warden.image.measure d.warden.image.svn d.warden.image.version]).flatMap
            (fun c => bytesOf c.length 4 ++ c)) ∨
        (c = Instr.attest ∧ BoxExecutes s 0x901 ∧
          l = attestReport d ++ edSign false (asciiBytes "OLV-A64-ATT") (aliasSeed d) (attestReport d)) →
      bulkStatus d (dmaAddr d) (dmaLen d) l.length ≠ 0 → answers c d (bulkStatus d (dmaAddr d) (dmaLen d) l.length)) ∧
    (∀ l, BoxExecutes s 0x901 → l = attestReport d ++
        edSign false (asciiBytes "OLV-A64-ATT") (aliasSeed d) (attestReport d) →
      bulkStatus d (dmaAddr d) (dmaLen d) l.length = 0 →
      exec .attest s = .next (s.withDev (respond (cohWrite d (dmaAddr d) l.length (ofBytes l) 0 1) 0 8 l.length)))

/-- BEAT_SET sets period, source, output and phase, and a LOCK that stands keeps all but the output; HUP_CONFIG sets
the five registers, as far as a LOCK that stands lets it, and they are stored; PWR_CEILING gives the harts of its mask
their ceiling; HUP_WINDOW is long; HUP_DISCARD drops a kept image and its window's pages are all dirty. A value
outside its range answers INVALID_FIELD (R27, R383, R434, R447, R496). -/
def Sys2Proof.Claims.WardenControl : Prop :=
  ∀ s : State,
    let d := s.dev
    let answers := fun c st => exec c s = .next (s.withDev (respond d st 0 0))
    let k := param d 0 2
    (BoxExecutes s 0x402 → d.phase = .run →
      (k < 10 ∨ 400 < k ∨ 1 < param d 2 1 ∨ 1 < param d 6 1 ∨ 15 < param d 7 1 → answers .beatSet 3) ∧
      (10 ≤ k → k ≤ 400 → param d 2 1 ≤ 1 → param d 6 1 ≤ 1 → param d 7 1 ≤ 15 → regF d BEAT_CTL 63 1 = 0 →
        ∃ t e, exec .beatSet s = .next t ∧ t.dev = respond e 0 0 0 ∧ regF e BEAT_PERIOD 0 9 = k ∧
          regF e BEAT_PHASE 0 16 = param d 4 2 ∧ regF e BEAT_CTL 0 1 = param d 2 1 ∧
          regF e BEAT_CTL 1 1 = param d 6 1 ∧ regF e BEAT_CTL 2 4 = param d 7 1 ∧ regF e BEAT_CTL 63 1 = 0) ∧
      (10 ≤ k → k ≤ 400 → param d 2 1 ≤ 1 → param d 6 1 ≤ 1 → param d 7 1 ≤ 15 → regF d BEAT_CTL 63 1 = 1 →
        ∃ t e, exec .beatSet s = .next t ∧ t.dev = respond e 0 0 0 ∧ regF e BEAT_PERIOD 0 9 = regF d BEAT_PERIOD 0 9 ∧
          regF e BEAT_PHASE 0 16 = regF d BEAT_PHASE 0 16 ∧ regF e BEAT_CTL 0 1 = regF d BEAT_CTL 0 1 ∧
          regF e BEAT_CTL 1 1 = param d 6 1 ∧ regF e BEAT_CTL 2 4 = param d 7 1 ∧ regF e BEAT_CTL 63 1 = 1)) ∧
    (BoxExecutes s 0x500 → d.phase = .run → regF d HUP_CFG 63 1 = 1 →
      ∃ t e, exec .hupConfig s = .next t ∧ t.dev = respond e 0 0 0 ∧
        (∀ x ∈ [HUP_CFG, HUP_STORE, HUP_SCALE], reg e x = reg d x) ∧ regF e HUP_CHG 8 16 = regF d HUP_CHG 8 16 ∧
        regF e HUP_DRAIN 24 16 = regF d HUP_DRAIN 24 16 ∧
        ∀ x ∈ [HUP_CFG, HUP_STORE, HUP_SCALE, HUP_CHG, HUP_DRAIN], sfind e.hup.saved x = some (reg e x)) ∧
    (BoxExecutes s 0x500 → d.phase = .run → regF d HUP_CFG 63 1 = 0 →
      ¬ (param d 0 8 / 2 % 2 = 1 ∧ param d 0 8 / 4 % 4 = 0) →
      ∃ t e, exec .hupConfig s = .next t ∧ t.dev = respond e 0 0 0 ∧
        (∀ x ∈ [HUP_CFG, HUP_STORE, HUP_SCALE, HUP_CHG, HUP_DRAIN], sfind e.hup.saved x = some (reg e x)) ∧
        regF e HUP_CFG 0 2 = param d 0 8 % 4 ∧ regF e HUP_SCALE 0 16 = param d 16 8 % 2 ^ 16) ∧
    (BoxExecutes s 0x400 → let f := param d 0x10 2
      (f < 800 ∨ 3000 < f ∨ f % 100 ≠ 0 → answers .pwrCeiling 3) ∧
      (800 ≤ f → f ≤ 3000 → f % 100 = 0 → ∃ t, exec .pwrCeiling s = .next t ∧
        (∀ h : Hart, t.dev.harts[h].ceiling = if (param d 0 16).testBit h.val then f else d.harts[h].ceiling) ∧
        t.dev.mem = d.mem ∧ t.dev.engines = d.engines)) ∧
    (BoxExecutes s 0x501 → let st := windowStatus d (param d 0 8) (param d 8 4)
      (st ≠ 0 → answers .hupWindow st) ∧
      (st = 0 → exec .hupWindow s = .next (s.withDev (respond (withLong d 0) 0x620 0 0)))) ∧
    (BoxExecutes s 0x502 →
      (d.hup.kept = false → answers .hupDiscard 0x613) ∧
      (d.hup.kept = true → ∃ t, exec .hupDiscard s = .next t ∧ t.dev.hup.kept = false ∧ t.dev.hup.image = [] ∧
        t.dev.hup.clean = [] ∧ t.dev.hup.mapClean = [] ∧ regF t.dev HUP_STAT 5 3 = 0 ∧ t.dev.mem = d.mem)) ∧
    (BoxExecutes s 0x700 → exec .lifeRead s = .next (s.withDev (respond (withLong d 0) 0x620 0 0))) ∧
    (BoxExecutes s 0x701 → exec .lifeMirror s = .next (s.withDev (respond (withLong d 0) 0x620 0 0))) ∧
    (BoxExecutes s 0x601 → (regF d SNAP_STAT 0 2 = 0 → answers .snapRead 0x613) ∧
      (regF d SNAP_STAT 0 2 ≠ 0 → exec .snapRead s = .next (s.withDev (respond (withLong d 0) 0x620 0 0))))

/-! ### Records, snapshots and the lifetime log (R516 to R533) -/

/-- The oldest event is handled: it is counted, and one of a class that is not coalesced, or whose window is not open,
becomes a record of 32 bytes at the ring's producer index, which moves on; a full ring counts it as lost, and with the
ring off nothing is recorded; a record whose page of the persistent window is clean waits. An occurrence in an open
window joins it; the window ends 1,000 beats after its record, with a record of what occurred in it (R519 to R521). -/
def Sys2Proof.Claims.EventRecords : Prop :=
  ∀ s : State, s.dev.phase = .run ∨ s.dev.phase = .recovery →
    let d := s.dev
    let n := 2 ^ regF d LIFE_EVQ_CFG 2 5
    let prod := regF d LIFE_EVQ_IDX 0 16
    (d.ras.raised = [] → exec .eventRecordWrite s = .next s) ∧
    (eventWrites d = true → recordWaits d = true → ∃ t, exec .eventRecordWrite s = .next t ∧
      t.dev.ras.raised = d.ras.raised ∧ t.dev.mem = d.mem ∧ t.dev.regs = d.regs) ∧
    (∀ e rest, d.ras.raised = e :: rest → (eventWrites d = true → recordWaits d = false) →
      ∃ t more, exec .eventRecordWrite s = .next t ∧ t.dev.ras.raised = rest ++ more ∧
        (coalesced e.cls = true → (∀ w ∈ d.ras.windows, ¬ (w.cls = e.cls ∧ w.inst = e.inst)) →
          ⟨e.cls, e.inst, beatNow d, none⟩ ∈ t.dev.ras.windows)) ∧
    (∀ e rest, d.ras.raised = e :: rest → e.cls ≠ 0x1f → e.part = none → regF d SNAP_CTL 2 1 = 0 →
      (eventWrites d = true → recordWaits d = false) → ∃ t, exec .eventRecordWrite s = .next t ∧
          (∃ more, t.dev.ras.raised = rest ++ more) ∧
        (coalesced e.cls = true → (∃ w ∈ d.ras.windows, w.cls = e.cls ∧ w.inst = e.inst) →
          t = s.withDev { d with ras := t.dev.ras, life := t.dev.life } ∧
          ∀ w ∈ d.ras.windows, w.cls = e.cls → w.inst = e.inst → ∃ v ∈ t.dev.ras.windows, ∃ o, v.cls = w.cls ∧
            v.inst = w.inst ∧ v.since = some o ∧
            o.count = (match w.since with | some x => x.count + 1 | none => e.count)) ∧
        (eventWrites d = true →
          (regF d LIFE_EVQ_CFG 0 1 = 0 → t.dev.regs = d.regs ∧ t.dev.mem = d.mem ∧ t.dev.ras.seq = d.ras.seq) ∧
          (regF d LIFE_EVQ_CFG 0 1 = 1 → (prod + 1) % n = regF d LIFE_EVQ_IDX 16 16 →
            s.onlyRegs (s.withDev { t.dev with ras := d.ras, life := d.life }) [LIFE_EVQ_IDX] ∧
            regF t.dev LIFE_EVQ_IDX 32 32 = (regF d LIFE_EVQ_IDX 32 32 + 1) % 2 ^ 32 ∧
            regF t.dev LIFE_EVQ_IDX 0 16 = prod) ∧
          (regF d LIFE_EVQ_CFG 0 1 = 1 → (prod + 1) % n ≠ regF d LIFE_EVQ_IDX 16 16 →
            (prod + 1) % n < 2 ^ 16 → regF t.dev LIFE_EVQ_IDX 0 16 = (prod + 1) % n ∧
            t.dev.ras.seq = (if d.ras.seq + 1 = 2 ^ 32 then 1 else d.ras.seq + 1) ∧
            (regF d LIFE_EVQ_CFG 1 1 = 1 → t.dev.ras.msiSent = true ∧ t.dev.ras.msiWaits = d.ras.msiSent) ∧
            (regF d LIFE_EVQ_CFG 1 1 = 0 → ∃ u,
                t.dev.mem = (cohWrite u (regF d LIFE_EVQ_BASE 12 40 * 4096 + 32 * prod) 32 (recordBytes e d.ras.seq) 0 1).mem ∧
              u.mem = d.mem)))) ∧
    (∀ (c : BitVec 8) (i : BitVec 16),
      ((∀ w ∈ d.ras.windows, ¬ (w.cls = c.toNat ∧ w.inst = i.toNat)) →
        exec (.coalesceWindowExpiry c i) s = .next s) ∧
      (∀ w rest, takeFirst (fun w : Coalesce => w.cls == c.toNat && w.inst == i.toNat) d.ras.windows = some (w, rest) →
        (beatNow d < w.opened + 1000 → exec (.coalesceWindowExpiry c i) s = .next s) ∧
        (w.opened + 1000 ≤ beatNow d → w.since = none → exec (.coalesceWindowExpiry c i) s = .next (s.withDev { d with
          ras := { d.ras with windows := rest } })) ∧
        (∀ e, w.opened + 1000 ≤ beatNow d → w.since = some e → recordWaits d = false →
            ∃ t, exec (.coalesceWindowExpiry c i) s = .next t ∧
          ⟨w.cls, w.inst, beatNow d, none⟩ ∈ t.dev.ras.windows) ∧
        (∀ e, w.opened + 1000 ≤ beatNow d → w.since = some e → recordWaits d = true →
          ∃ t, exec (.coalesceWindowExpiry c i) s = .next t ∧ t.dev.ras = d.ras ∧ t.dev.mem = d.mem))) ∧
    (d.ras.msiWaits = false ∨ regF d LIFE_EVQ_CFG 1 1 = 0 → exec .eventRingMsiTimer s = .next (s.withDev { d with
      ras := { d.ras with msiSent := false, msiWaits := false } })) ∧
    (d.ras.msiWaits = true → regF d LIFE_EVQ_CFG 1 1 = 1 → ∃ t, exec .eventRingMsiTimer s = .next t ∧
      t.dev.ras.msiSent = true ∧ t.dev.ras.msiWaits = false)

/-- A fatal event sets fatal, writes the log and tells every hart in service. A link that has failed leaves service
for both of its squares at the next tick, its retries counted by both; a router leaves service at the next tick, and a
second failure of its square cuts its local port and is fatal. A Foyer port leaves service so too (R22, R516, R518,
R523). -/
def Sys2Proof.Claims.FatalAndMeshFailures : Prop :=
  ∀ s : State,
    let d := s.dev
    (d.phase = .run ∨ d.phase = .recovery → ∀ t v, ∃ u, exec (.fatalEvent t v) s = .next u ∧
      u.dev.ras.fatal = true ∧ u.dev.life.saved = u.dev.life.work ∧
      (d.ras.marks = [] → (⟨0x1f, t.val, 0, v.toNat, none, false, beatNow d, 1⟩ : RasEvent) ∈ u.dev.ras.raised) ∧
      (∀ h : Hart, d.harts[h].held = false →
        1 ∈ (sget u.dev.harts[h].files 0 ⟨[], [], false⟩).pending)) ∧
    (d.phase = .run → ∀ t,
      (foyerUp d t.val = true → (t.val, 5) ∉ d.mesh.pend → ∃ u, exec (.meshLinkFailure t .foyer) s = .next u ∧
        u.dev.mesh.pend = d.mesh.pend ++ [(t.val, 5)] ∧ u.dev.life.saved = u.dev.life.work) ∧
      (foyerUp d t.val = false ∨ (t.val, 5) ∈ d.mesh.pend → exec (.meshLinkFailure t .foyer) s = .next s)) ∧
    (d.phase = .run → ∀ t l, l ≠ .foyer →
      let b := linkBit l
      (linkPeer t.val b = none → exec (.meshLinkFailure t l) s = .next s) ∧
      (∀ p, linkPeer t.val b = some p → regF d (MSH_STAT t.val) b 1 = 1 → (t.val, b) ∉ d.mesh.pend →
        ∃ u, exec (.meshLinkFailure t l) s = .next u ∧
          u.dev.mesh.pend = d.mesh.pend ++ [(t.val, b), (p, peerBit b)] ∧
          regF u.dev (MSH_RETRY t.val) (16 * (b - 1)) 16 = min 65535 (regF d (MSH_RETRY t.val) (16 * (b - 1)) 16 + 3) ∧
          linkPeer p (peerBit b) = some t.val) ∧
      (∀ p, linkPeer t.val b = some p → regF d (MSH_STAT t.val) b 1 = 0 ∨ (t.val, b) ∈ d.mesh.pend →
        ∃ u, exec (.meshLinkFailure t l) s = .next u ∧ u = s.withDev { d with regs := u.dev.regs })) ∧
    (d.phase = .run → ∀ t : Tile,
      (regF d (MSH_STAT t.val) 0 1 = 1 → (t.val, 0) ∉ d.mesh.pend → ∃ u, exec (.routerFailure t) s = .next u ∧
        (t.val, 0) ∈ u.dev.mesh.pend ∧ u.dev.life.saved = u.dev.life.work) ∧
      (regF d (MSH_STAT t.val) 0 1 = 0 → t.val ∈ d.mesh.cut → exec (.routerFailure t) s = .next s) ∧
      (regF d (MSH_STAT t.val) 0 1 = 0 → t.val ∉ d.mesh.cut → ∃ u, exec (.routerFailure t) s = .next u ∧
        t.val ∈ u.dev.mesh.cut ∧ u.dev.ras.fatal = true))

/-- A trigger while a snapshot is held is counted as missed. An edge of SNAP_N, where enabled, and SNAP_TRIGGER wait
for the tick; RELEASE empties the snapshot. Every minute the log counts, and is written; every day it is copied to the
half of the mirror that is not the newest, with the next number, and with the flash failed that half is lost (R525,
R528 to R530). -/
def Sys2Proof.Claims.SnapshotsAndLog : Prop :=
  ∀ s : State,
    let d := s.dev
    let missed := setReg d SNAP_STAT 16 16 (satInc (regF d SNAP_STAT 16 16) 16)
    let waits := fun src => { d with ras := { d.ras with snapWait := some src } }
    (d.phase = .run ∨ d.phase = .recovery →
      (regF d SNAP_CTL 0 1 = 0 → exec .snapNEdge s = .next s) ∧
      (regF d SNAP_CTL 0 1 = 1 → regF d SNAP_STAT 0 2 ≠ 0 → exec .snapNEdge s = .next (s.withDev missed)) ∧
      (regF d SNAP_CTL 0 1 = 1 → regF d SNAP_STAT 0 2 = 0 → d.ras.snapWait = none →
        exec .snapNEdge s = .next (s.withDev (waits 1))) ∧
      (regF d SNAP_CTL 0 1 = 1 → regF d SNAP_STAT 0 2 = 0 → d.ras.snapWait.isSome = true →
          exec .snapNEdge s = .next s) ∧
      (∃ t, exec .lifetimeLogWrite s = .next t ∧ t.dev.life.saved = t.dev.life.work ∧
        sget t.dev.life.work.counts (lifeKey 0 0) 0 = sget d.life.work.counts (lifeKey 0 0) 0 + 1 ∧
        t.dev.life.half0 = d.life.half0 ∧ t.dev.life.half1 = d.life.half1 ∧ t.dev.mem = d.mem) ∧
      (∀ ok, ∃ t, exec (.lifetimeLogMirror ok) s = .next t ∧ regF t.dev LIFE_STAT 0 1 = (if ok then 1 else 0) ∧
        let n := max (halfSeq d.life.half0) (halfSeq d.life.half1) + 1
        (halfSeq d.life.half0 ≤ halfSeq d.life.half1 → t.dev.life.half1 = d.life.half1 ∧
          halfSeq t.dev.life.half0 = if ok then n else 0) ∧
        (halfSeq d.life.half1 < halfSeq d.life.half0 → t.dev.life.half0 = d.life.half0 ∧
          halfSeq t.dev.life.half1 = if ok then n else 0))) ∧
    (BoxExecutes s 0x600 →
      (regF d SNAP_STAT 0 2 ≠ 0 → exec .snapTrigger s = .next (s.withDev (respond missed 0 0 0))) ∧
      (regF d SNAP_STAT 0 2 = 0 → d.ras.snapWait = none →
        exec .snapTrigger s = .next (s.withDev (respond (waits 2) 0 0 0))) ∧
      (regF d SNAP_STAT 0 2 = 0 → d.ras.snapWait.isSome = true →
        exec .snapTrigger s = .next (s.withDev (respond d 0 0 0)))) ∧
    (∀ w, s.dev.TakesWrite SNAP_CTL w.agent → strobe w 3 = true → ∃ t, exec (.snapRelease w) s = .next t ∧
      regF t.dev SNAP_STAT 0 2 = 0 ∧
      t = s.withDev { d with regs := t.dev.regs, ras := { d.ras with snapRegs := none } }) ∧
    (∀ w, strobe w 3 = false → exec (.snapRelease w) s = .next s)

/-! ### Register writes (R4, R7, R10, R541, R544, R545) -/

/-- A write by the low half, the high half or the whole changes the fields that it covers by their access codes: RW
takes the value, RO keeps it, RW1C clears where a 1 is written; a register of the blocks whose writes have no other
effect alone changes so. A write of any register is made as a hart's store makes it. A dead block discards a write and
records it; an agent that the block does not accept is refused and counted; a register that is not there takes none
(R4, R7, R10, R541, R544, R545). -/
def Sys2Proof.Claims.RegisterWrites : Prop :=
  ∀ (s : State) (w : RegAccess),
    let d := s.dev
    (s.dev.TakesWrite PGR_PART_SEL w.agent → w.part ≠ .high → ∃ t, exec (.registerWrite PGR_PART_SEL w) s = .next t ∧
      s.onlyRegs t [PGR_PART_SEL] ∧ regF t.dev PGR_PART_SEL 0 6 = w.value.toNat % 64) ∧
    (∀ c : Chan, s.dev.TakesWrite (DRC_ERR c.val) w.agent → w.part ≠ .high →
      ∃ t, exec (.registerWrite (DRC_ERR c.val) w) s = .next t ∧ s.onlyRegs t [DRC_ERR c.val] ∧
      ∀ b < 5, regF t.dev (DRC_ERR c.val) b 1 = if w.value.getLsbD b then 0 else regF d (DRC_ERR c.val) b 1) ∧
    (∀ x, x ∈ [BEAT_COUNT, HUP_ENERGY, PWR_HALL, LDG_STAT] → s.dev.TakesWrite x w.agent →
      ∃ t, exec (.registerWrite x w) s = .next t ∧ s.onlyRegs t [x] ∧ reg t.dev x = reg d x) ∧
    (∀ x, (windowWrite { d with waits := false } (x / 8 * 8) w).waits = false →
        exec (.registerWrite x w) s = .next (s.withDev
      { windowWrite { d with waits := false } (x / 8 * 8) w with waits := d.waits })) ∧
    (∀ x b i off, x % 8 = 0 → blkOf x = some (b, i, off) → b ∈ [.id, .tile, .mez, .gal, .msh, .drc, .sieve, .sch,
        .rle] →
      s.dev.TakesWrite x w.agent → ∃ t, exec (.registerWrite x w) s = .next t ∧ s.onlyRegs t [x] ∧
        reg t.dev x = regGet (regWrite d.regs x w) x) ∧
    (∀ x b i off, x % 8 = 0 → blkOf x = some (b, i, off) → b = .gal ∨ b = .drc →
      (deadBlk d b i = true → exec (.registerWrite x w) s = .next (s.withDev (raiseEvent d 0x18 i x 0 none))) ∧
      (deadBlk d b i = false → ready d = true → accepts b off w.agent true = false →
        ∃ t, exec (.registerWrite x w) s = .next t ∧ s.onlyRegs t [HDR_ERR b i] ∧ regF t.dev (HDR_ERR b i) 1 1 = 1 ∧
        regF t.dev (HDR_ERR b i) 16 16 = satInc (regF d (HDR_ERR b i) 16 16) 16)) ∧
    (∀ x, blkOf (x / 8 * 8) = none → exec (.registerWrite x w) s = .next s)

/-! ### Power, temperature, clock and sideband (R12, R24, R67, R221, R312, R334, R383, R460, R550 to R574) -/

/-- The frequency of a hart never passes its ceiling, its hall's limit or the table's; a report of the power loop
shows the watts; a hall at 100 degrees is throttled to 1,200 MHz, and one over its own limit loses 300 MHz down to
800; PROCHOT_N held low limits both halls to 1,200 MHz (R383, R564 to R569). -/
def Sys2Proof.Claims.PowerControl : Prop :=
  ∀ s : State,
    let d := s.dev
    let live := d.phase = .run ∨ d.phase = .recovery
    let capped := fun (e : Device) (h : Hall) => ∀ k ∈ hallHarts h, e.harts[k].freq ≤ hartTarget e h k
    let side := fun (h : Hall) => if h = .east then (1, 28, 8, 12) else (0, 16, 0, 11)
    (d.phase = .run → ∀ w, (beatNow d % 1000 ≠ 0 → exec (.powerLoop w) s = .next s) ∧
      (beatNow d % 1000 = 0 → ∃ t, exec (.powerLoop w) s = .next t ∧ regF t.dev PWR_STAT 0 10 = min 1023 w ∧
        capped t.dev .west ∧ capped t.dev .east ∧ (d.pkg.prochotIn = false → regF t.dev PWR_STAT 13 1 = 0) ∧
        t.dev.mem = d.mem ∧ t.dev.engines = d.engines)) ∧
    (live → ∀ h w,
      (w ≤ regF d PWR_CTL 8 8 → ∃ t, exec (.hallPowerCheck h w) s = .next t ∧ vrSilent t.dev h = false ∧
        t = s.withDev { d with pkg := t.dev.pkg }) ∧
      (regF d PWR_CTL 8 8 < w → ∃ t, exec (.hallPowerCheck h w) s = .next t ∧ vrSilent t.dev h = false ∧
        flim t.dev h = max 800 (min (flim d h) (hallRun d h) - 300) % 2 ^ 12 ∧ capped t.dev h)) ∧
    (d.phase ≠ .draining → d.phase ≠ .persisted → ∀ tw te tf o, tw < 115 → te < 115 → tf < 115 →
      ∃ t, exec (.thermalSensorRead tw te tf o) s = .next t ∧ regF t.dev PWR_HALL 0 8 = tw ∧
          regF t.dev PWR_HALL 8 8 = te ∧
        (100 ≤ tw → regF t.dev PWR_STAT 11 1 = 1 ∧ flim t.dev .west = min 1200 (flim d .west) ∧
            regF t.dev PWR_STAT 14 1 = 1) ∧
        (100 ≤ te → regF t.dev PWR_STAT 12 1 = 1 ∧ flim t.dev .east = min 1200 (flim d .east) ∧
            regF t.dev PWR_STAT 14 1 = 1) ∧
        (tw < 100 → flim t.dev .west = flim d .west)) ∧
    (d.phase ≠ .draining → d.phase ≠ .persisted → ∀ tw te tf o, 115 ≤ tw ∨ 115 ≤ te ∨ 115 ≤ tf →
      ∃ t, exec (.thermalSensorRead tw te tf o) s = .next t ∧ t.dev.pkg.thermtrip = true ∧ t.dev.phase = .persisted) ∧
    (live → regF d PWR_CTL 16 1 = 1 → regF d PWR_STAT 14 1 = 0 → ∃ t, exec (.prochotIn true) s = .next t ∧
      t.dev.pkg.prochotIn = true ∧ regF t.dev PWR_STAT 13 1 = 1 ∧ flim t.dev .west = min 1200 (flim d .west) ∧
      flim t.dev .east = min 1200 (flim d .east) ∧ capped t.dev .west ∧ capped t.dev .east) ∧
    (live → (regF d PWR_CTL 16 1 = 0 ∨ regF d PWR_STAT 14 1 = 1) → exec (.prochotIn true) s = .next s) ∧
    (live → exec (.prochotIn false) s = .next (s.withDev { d with pkg := { d.pkg with prochotIn := false } })) ∧
    (live → ∀ h mv, (vrWaits d h = 0 ∨ vrWaits d h ≠ mv → exec (.voltageSetPointReached h mv) s = .next s) ∧
      (vrWaits d h = mv → mv ≠ 0 → ∃ t, exec (.voltageSetPointReached h mv) s = .next t ∧ vrSilent t.dev h = false ∧
        capped t.dev h)) ∧
    (live → ∀ h, ∃ t, exec (.vrTimeout h false) s = .next t ∧ vrSilent t.dev h = true ∧
      ∀ k ∈ hallHarts h, t.dev.harts[k].freq ≤ 800) ∧
    (live → ∀ h, ∃ t, exec (.vrTimeout h true) s = .next t ∧ t.dev.ras.fatal = true)

/-- PWROK's fall releases THERMTRIP_N and persists the part; REFCLK's loss takes every link down, once, and is fatal.
The UART: the transmit FIFO of 16 bytes takes a byte of TX_GO, RX_POP takes the oldest received byte, and a byte that
comes to a full FIFO of 64 is lost with OVERRUN; while the Warden owns the UART neither a byte sent nor one received
has an effect. JTAG answers IDCODE, and 0 on BYPASS. GETSTATUS holds the boot error; a port whose link comes up or
goes down is listed so (R557 to R559, R571 to R574). -/
def Sys2Proof.Claims.ClockAndSideband : Prop :=
  ∀ s : State,
    let d := s.dev
    let live := d.phase = .run ∨ d.phase = .recovery
    let pkg := fun (f : Package → Package) => s.withDev { d with pkg := f d.pkg }
    (∀ o, ∃ t, exec (.pwrokFall o) s = .next t ∧ t.dev.pkg.thermtrip = false ∧
      (d.phase ≠ .draining → t.dev.phase = .persisted)) ∧
    (live → regF d PWR_STAT 15 1 = 1 → exec .refclkLoss s = .next s) ∧
    (live → regF d PWR_STAT 15 1 = 0 → ∃ t, exec .refclkLoss s = .next t ∧ regF t.dev PWR_STAT 15 1 = 1 ∧
      t.dev.pkg.up = [] ∧ t.dev.pkg.cxl = [] ∧ t.dev.ras.fatal = true) ∧
    (∀ w : RegAccess, d.TakesWrite PWR_UART_DATA w.agent → strobe w 25 = false → strobe w 24 = true →
      ∃ t, exec (.uartTxGo w) s = .next t ∧ t = s.withDev { d with regs := t.dev.regs, pkg := t.dev.pkg } ∧
        t.dev.pkg.tx = (if regF d PWR_UART_CTL 0 1 = 1 ∧ d.pkg.tx.length < 16 then
          d.pkg.tx ++ [BitVec.ofNat 8 (w.value.toNat / 2 ^ 16)] else d.pkg.tx)) ∧
    (∀ w : RegAccess, d.TakesWrite PWR_UART_DATA w.agent → strobe w 25 = true → strobe w 24 = false →
      ∃ t, exec (.uartRxPop w) s = .next t ∧ t.dev.pkg.rx = d.pkg.rx.tail ∧ t.dev.pkg.tx = d.pkg.tx) ∧
    (∀ w : RegAccess, (strobe w 24 = false → exec (.uartTxGo w) s = .next s) ∧
      (strobe w 25 = false → exec (.uartRxPop w) s = .next s)) ∧
    (live → ∀ b, (regF d PWR_UART_CTL 0 1 = 0 → exec (.uartRxByte b) s = .next s) ∧
      (regF d PWR_UART_CTL 0 1 = 1 → regF d PWR_UART_CTL 1 1 = 0 →
        (d.pkg.rx.length < 64 → exec (.uartRxByte b) s = .next (pkg fun p => { p with rx := p.rx ++ [b] })) ∧
        (64 ≤ d.pkg.rx.length → exec (.uartRxByte b) s = .next (s.withDev (setReg d PWR_UART_DATA 10 1 1)))) ∧
      (regF d PWR_UART_CTL 0 1 = 1 → ∃ t, exec (.uartRxByte b) s = .next t ∧
        t.dev.pkg.rx = (if d.pkg.rx.length < 64 then d.pkg.rx ++ [b] else d.pkg.rx) ∧ t.dev.pkg.tx = d.pkg.tx)) ∧
    (live → exec .uartTxByteSent s = .next (pkg fun p => { p with tx := p.tx.tail })) ∧
    (∀ r, (exec (.jtagInstruction ⟨1, r⟩) s = .next (pkg fun p => { p with ir := 1, dmi := 0x0a06478b })) ∧
      (∀ i : BitVec 5, i ∉ [0, 1, 2, 0x10, 0x11] →
        exec (.jtagInstruction ⟨i, r⟩) s = .next (pkg fun p => { p with ir := 0x1f, dmi := 0 })) ∧
      exec (.jtagInstruction ⟨0x11, r⟩) s = .next (pkg fun p => { p with ir := 0x11 }) ∧
      exec (.jtagInstruction ⟨0, false⟩) s = .next s ∧
      (∀ i : BitVec 5, i = 2 ∨ i = 0x10 ∨ (i = 0 ∧ r = true) → ∃ x, exec (.jtagInstruction ⟨i,
          r⟩) s = .next (s.withDev {
        d with pkg := { d.pkg with ir := i, dmi := x }, freeCount := d.freeCount + 1 }))) ∧
    (∀ a v, regF d PWR_CTL 17 1 = 0 → exec (.dmiAccess a v true) s = .next s ∧
      exec (.dmiAccess a v false) s = .next (pkg fun p => { p with dmi := 0 })) ∧
    (∀ a v, regF d PWR_CTL 17 1 = 1 → exec (.dmiAccess a v true) s = .next (pkg fun p =>
        { p with debug := some (a, v) }) ∧
      ∃ x, exec (.dmiAccess a v false) s = .next (s.withDev { d with
        pkg := { d.pkg with dmi := x }, freeCount := d.freeCount + 1 })) ∧
    exec .i3cGetstatus s = .next (pkg fun p => { p with status := p.bootErr, statusChan := p.bootChan }) ∧
    (∀ rp : RootPort, (portExists d rp.val = false ∨ d.pkg.perst = true ∨ regF d PWR_STAT 15 1 = 1 →
        ∀ v, exec (.rootPortLinkChange rp v) s = .next s) ∧
      (portExists d rp.val = true → d.pkg.perst = false → regF d PWR_STAT 15 1 = 0 →
        exec (.rootPortLinkChange rp .upPcie) s = .next (pkg fun p => { p with
          up := insertNat p.up rp.val, cxl := p.cxl.filter (· != rp.val) }) ∧
        exec (.rootPortLinkChange rp .upCxl) s = .next (pkg fun p => { p with
          up := insertNat p.up rp.val, cxl := insertNat p.cxl rp.val }) ∧
        exec (.rootPortLinkChange rp .down) s = .next (pkg fun p => { p with
          up := p.up.filter (· != rp.val), cxl := p.cxl.filter (· != rp.val) })))

/-- A charge leaves its count 24 hours after it was made (R67, R312, R334, R460). -/
def Sys2Proof.Claims.ChargeExpiry : Prop :=
  ∀ s : State, s.dev.phase = .run ∨ s.dev.phase = .recovery →
    (∀ e, exec (.errorChargeExpiry (.halt e)) s = .next (s.withEng e { s.eng e with halts24 := (s.eng e).halts24 - 1 })) ∧
    (∀ e, exec (.errorChargeExpiry (.dirty e)) s = .next (s.withEng e { s.eng e with dirty24 := (s.eng e).dirty24 - 1 })) ∧
    (∀ g, exec (.errorChargeExpiry (.heal g)) s = .next (s.withDev { s.dev with
      pager := { s.dev.pager with healed := s.dev.pager.healed.filter (· != g) } })) ∧
    (∀ k : CodecId, exec (.errorChargeExpiry (.mismatch k)) s = .next (s.withDev (setReg s.dev (RLE_ERR k.val) 32 2
      (regF s.dev (RLE_ERR k.val) 32 2 - 1))))

/-! ### Resets (R366, R418, R500 to R508, R546, R547, R559 to R563) -/

/-- A warm reset is taken in a running part, in recovery, or after a boot error, and nowhere else: registers of the Warm
domain take their Reset values but for the fields that count since cold reset, those of the Cold domain and memory stay,
engines hold, queues, partitions and long commands are gone, namespaces unattached, and stores that waited in cores are
counted and dropped (R366, R418, R546, R561, R562). -/
def Sys2Proof.Claims.WarmReset : Prop :=
  ∀ s : State,
    let d := s.dev
    let taken := d.phase = .run ∨ d.phase = .recovery ∨ (d.phase = .startup ∧ d.pkg.bootErr ≠ 0)
    (¬ taken → exec .warmReset s = .next s) ∧
    (taken → ∃ t, exec .warmReset s = .next t ∧ t.dev.phase = .warm ∧ t.dev.mem = d.mem ∧ t.dev.poison = d.poison ∧
      (∀ e : Eng, t.dev.engines[e].run = .held ∧ t.dev.engines[e].pc = 0 ∧
          t.dev.engines[e].landing = d.engines[e].landing) ∧
      t.dev.parts = State.reset.dev.parts ∧ t.dev.queues = State.reset.dev.queues ∧
      (∀ x ∈ t.dev.ledger.nss, x.2.owner = none) ∧ t.dev.ledger.media = d.ledger.media ∧
      (∀ h : Hart, t.dev.harts[h].sb = [] ∧ t.dev.harts[h].reserve = none ∧ t.dev.harts[h].lines = d.harts[h].lines) ∧
      t.dev.warden.longs = [] ∧ t.dev.warden.ended = [] ∧
      (∀ x b i off, blkOf x = some (b, i, off) → x ≠ PWR_RST_REC → x ≠ BEAT_STAT →
        ((blkInfo b).cold = true → reg t.dev x = reg d x) ∧
        ((blkInfo b).cold = false → keptFields b off = [] → reg t.dev x = resetReg x)) ∧
      regF t.dev PWR_RST_REC 0 2 = 2 ∧ regF t.dev PWR_RST_REC 8 32 = min (2 ^ 32 - 1) (storesWaiting d) ∧
      t.dev.life.saved = t.dev.life.work)

/-- A cold reset is taken where PWROK can rise or, in PERSISTED, RESET_N counts. With an image that passes its checks,
DIMMs that are supported and train, the part ends its start-up running: engines without a hold, harts that are in
service run, no partition, queue or long command but the manager's, PWR_RST_REC names the cause. A channel that is not
supported or does not train stops it with code 0x21 or 0x22 and the channel's number on the UART; with no image that
passes, the ROM enters recovery, and with one it boots that one. RESET_N's rise resumes a part in warm reset, or
starts one up that had not ended its start-up (R500, R507, R508, R547, R560 to R563). -/
def Sys2Proof.Claims.ColdReset : Prop :=
  ∀ (s : State) (o : BootEnv),
    let d := s.dev
    let taken := (d.phase = .startup ∧ o.pwrok = true) ∨ (d.phase = .persisted ∧
        (o.pwrok = true ∨ d.hup.persistDone = true))
    let plain := ∃ x, settingsNow d = some x ∧ x.pairs = [] ∧ x.schema = imgField (slotData d (bootRec d).active) 0x10 4
    let good := imageFault d (bootRec d).active = 0 ∨ imageFault d (1 - (bootRec d).active) = 0
    let started := fun (t : State) =>
      (popFault o = none → o.badTrain = none → t.dev.phase = .run ∧ (∀ h : Hart, t.dev.harts[h].idle = .running) ∧
        t.dev.pkg.bootDone = true) ∧
      (∀ c, popFault o = some c → t.dev.phase = .startup ∧ t.dev.pkg.bootErr = 0x21 ∧ t.dev.pkg.bootChan = c.val) ∧
      (∀ c, popFault o = none → o.badTrain = some c → t.dev.phase = .startup ∧ t.dev.pkg.bootErr = 0x22 ∧
        t.dev.pkg.bootChan = c.val)
    (¬ taken → exec (.coldReset o) s = .next s) ∧
    (taken → (bootRec d).active ≤ 1 → ∃ t, exec (.coldReset o) s = .next t ∧ t.dev.parts = State.reset.dev.parts ∧
      t.dev.warden.longs = [] ∧ (∀ x ∈ t.dev.ledger.nss, x.2.owner = none) ∧ (good → started t) ∧
      (¬ good → t.dev.phase = .recovery ∧ t.dev.pkg.bootErr = 0x10 ∧ regF t.dev WRD_STAT 2 2 = 2)) ∧
    (d.phase = .warm → (bootRec d).active ≤ 1 → good → ∃ t, exec (.warmResetRelease o) s = .next t ∧
      (d.pkg.bootDone = false → started t) ∧
      (d.pkg.bootDone = true → t.dev.phase = .run ∧ (∀ h : Hart, t.dev.harts[h].idle = .running) ∧
        ∀ c : Chan, t.dev.chans[c].selfRefresh = false)) ∧
    (taken → (bootRec d).trial = false → plain → (∀ e ∈ d.hup.saved, e.1 ≠ PWR_RST_REC) →
      ∃ t, exec (.coldReset o) s = .next t ∧
      regF t.dev PWR_RST_REC 0 2 = (if o.pwrok then 0 else 1) ∧ t.dev.parts = State.reset.dev.parts ∧
      t.dev.warden.longs = [] ∧ (∀ x ∈ t.dev.ledger.nss, x.2.owner = none) ∧
      (imageFault d (bootRec d).active = 0 → popFault o = none → o.badTrain = none → t.dev.phase = .run ∧
        (∀ h : Hart, t.dev.harts[h].idle = .running) ∧ t.dev.pkg.perst = false ∧ t.dev.pkg.bootDone = true) ∧
      (∀ c, imageFault d (bootRec d).active = 0 → popFault o = some c →
        t.dev.phase = .startup ∧ t.dev.pkg.bootErr = 0x21 ∧ t.dev.pkg.bootChan = c.val) ∧
      (∀ c, imageFault d (bootRec d).active = 0 → popFault o = none → o.badTrain = some c →
        t.dev.phase = .startup ∧ t.dev.pkg.bootErr = 0x22 ∧ t.dev.pkg.bootChan = c.val) ∧
      (imageFault d (bootRec d).active ≠ 0 → imageFault d (1 - (bootRec d).active) ≠ 0 →
        t.dev.phase = .recovery ∧ t.dev.pkg.bootErr = 0x10 ∧ regF t.dev WRD_STAT 2 2 = 2)) ∧
    (d.phase ≠ .warm → exec (.warmResetRelease o) s = .next s) ∧
    (d.phase = .warm → imageFault d (bootRec d).active = 0 → d.pkg.bootDone = true → plain →
      ∃ t, exec (.warmResetRelease o) s = .next t ∧ t.dev.phase = .run ∧ t.dev.mem = d.mem ∧
        (∀ h : Hart, t.dev.harts[h].idle = .running) ∧ (∀ c : Chan, t.dev.chans[c].selfRefresh = false)) ∧
    (d.phase = .warm → imageFault d (bootRec d).active ≠ 0 → imageFault d (1 - (bootRec d).active) ≠ 0 →
      ∃ t, exec (.warmResetRelease o) s = .next t ∧ t.dev.phase = .recovery ∧ t.dev.pkg.bootErr = 0x10)


/-! ### Rules of the whole part (R55, R66, R93, R446) -/

/-- No instruction of an engine changes the kernel region of any code store; in thread mode none changes the landing
kernel area, the mode, or a control register that only the kernel may write (R55, R66, R93). -/
def Obligations.KernelAreasAreProtected : Prop :=
  ∀ (i : Instr) (w : InstrWord) (s t : State), encodeSirto i = some w → exec i s = .next t → ∀ e : Eng,
    let x := s.eng e
    let y := t.eng e
    (∀ k < 0x800, codeWord y k = codeWord x k) ∧
    (x.mode = .thread → y.mode = .thread ∧ y.eie = x.eie ∧ y.rmode = x.rmode ∧ y.epc = x.epc ∧ y.ecause = x.ecause ∧
      y.eval = x.eval ∧ y.codeBase = x.codeBase ∧ y.codeLimit = x.codeLimit ∧
      ∀ a, 0x3e000 ≤ a → mget y.landing a = mget x.landing a)

/-- A part in PERSISTED with every engine stopped performs no work: whatever is commanded, but for a cold reset by
RESET_N or a power cycle, it stays PERSISTED with PERSIST_DONE as it is, no engine runs, and engines, harts, memory
and media stay; the pin PWRFAIL_N has no effect (R446). -/
def Obligations.PersistedIsFinal : Prop :=
  (∀ (c : Instr) (s t : State), s.dev.phase = .persisted → (∀ e : Eng, (s.eng e).run ≠ .running) → exec c s = .next t →
    (∀ o, c ≠ .coldReset o) →
      t.dev.phase = .persisted ∧ t.dev.hup.persistDone = s.dev.hup.persistDone ∧ (∀ e : Eng, t.eng e = s.eng e) ∧
      t.dev.harts = s.dev.harts ∧ t.dev.mem = s.dev.mem ∧ t.dev.ledger.media = s.dev.ledger.media) ∧
  ∀ (s : State) (o : DrainEnv), s.dev.phase = .persisted → exec (.pwrfailAccept o) s = .next s

/-! ### The obligations that join clauses -/

/-- The queue runs in order, every command completes, and an empty queue idles (log entry 6). -/
def Obligations.QueueOrderAndIdling : Prop :=
  Sys2Proof.Claims.QueueRunsInOrder ∧ Sys2Proof.Claims.EmptyQueueIdles

/-- What reset leaves, and that its memories are canonical. -/
def Obligations.ResetStateIsAsTheSpecSays : Prop :=
  Sys2Proof.Claims.ResetState ∧ Sys2Proof.Claims.ResetMemoryCanonical

/-- Scalar results, branches and jumps with their frame. -/
def Obligations.ScalarInstructions : Prop :=
  Sys2Proof.Claims.ScalarRegisterResults ∧ Sys2Proof.Claims.ScalarImmediateResults ∧ Sys2Proof.Claims.BranchTargets
    ∧ Sys2Proof.Claims.JumpAndLink

/-- Instructions and accesses that may not be made carry their fault and do nothing else. -/
def Obligations.InstructionAndAccessFaults : Prop :=
  Sys2Proof.Claims.RefusedInstructionsFault ∧ Sys2Proof.Claims.AccessFaults

/-- Loads and stores of landing and the code-store window. -/
def Obligations.LandingLoadsAndStores : Prop :=
  Sys2Proof.Claims.LoadsFromLandingAndCode ∧ Sys2Proof.Claims.StoresToLanding

/-- Memory-space loads and stores through the store buffer. -/
def Obligations.MemorySpaceLoadsAndStores : Prop :=
  Sys2Proof.Claims.MemorySpaceLoadsAndStores ∧ Sys2Proof.Claims.StoreBufferDrains

/-- FENCE, IFLUSH, YIELD, BEATWAIT, ERET and the start of a unit. -/
def Obligations.SystemInstructions : Prop :=
  Sys2Proof.Claims.FenceFlushAndYield ∧ Sys2Proof.Claims.BeatwaitAndReturn ∧ Sys2Proof.Claims.UnitStart

/-- Control registers, handler entry and synchronous exceptions. -/
def Obligations.ControlRegistersAndHandlerEntry : Prop :=
  Sys2Proof.Claims.ControlRegisterReads ∧ Sys2Proof.Claims.ControlRegisterWrites ∧ Sys2Proof.Claims.HandlerEntry ∧
    Sys2Proof.Claims.SynchronousExceptions

/-- Cache maintenance instructions, the end of a discard, and fills of L1. -/
def Obligations.MaintenanceDiscardAndFills : Prop :=
  Sys2Proof.Claims.MaintenanceInstructions ∧ Sys2Proof.Claims.DiscardEnds ∧ Sys2Proof.Claims.L1Fills

/-- Vector arithmetic on lanes and pairs. -/
def Obligations.LaneAndPairArithmetic : Prop :=
  Sys2Proof.Claims.LaneArithmetic ∧ Sys2Proof.Claims.PairArithmetic

/-- Vector compares, predicate instructions and moves of lanes. -/
def Obligations.ComparesPredicatesAndMoves : Prop :=
  Sys2Proof.Claims.VectorCompares ∧ Sys2Proof.Claims.PredicateInstructions ∧ Sys2Proof.Claims.LaneMoves

/-- VSORT orders sixteen lanes stably and VMERGE thirty-two. -/
def Obligations.SortAndMerge : Prop :=
  Sys2Proof.Claims.VectorSort ∧ Sys2Proof.Claims.VectorMerge

/-- Scans, reductions and accumulators. -/
def Obligations.ScansReductionsAndAccumulators : Prop :=
  Sys2Proof.Claims.ScansAndReductions ∧ Sys2Proof.Claims.Accumulators

/-- Floating-point arithmetic, compares and conversions. -/
def Obligations.FloatingPointInstructions : Prop :=
  Sys2Proof.Claims.FloatArithmetic ∧ Sys2Proof.Claims.FloatCompares ∧ Sys2Proof.Claims.Conversions

/-- Packed loads and stores of landing. -/
def Obligations.PackedLoadsAndStores : Prop :=
  Sys2Proof.Claims.PackedLoads ∧ Sys2Proof.Claims.PackedStores

/-- Bitmap loads and stores, VGATHER and VACCT. -/
def Obligations.BitmapsGatherAndTable : Prop :=
  Sys2Proof.Claims.BitmapLoadsAndStores ∧ Sys2Proof.Claims.GatherAndTableAccumulate

/-- Mezzanine fills, victim writes and gallery requests. -/
def Obligations.MezzanineAndGallery : Prop :=
  Sys2Proof.Claims.MezzanineFills ∧ Sys2Proof.Claims.VictimWrites ∧ Sys2Proof.Claims.GalleryRequests

/-- Engine registers, code-store access, kernel reload and error interrupts. -/
def Obligations.EngineRegistersAndErrors : Prop :=
  Sys2Proof.Claims.EngineControlWrite ∧ Sys2Proof.Claims.CodeStoreAccess ∧ Sys2Proof.Claims.KernelReload ∧
    Sys2Proof.Claims.ErrorInterrupts ∧ Sys2Proof.Claims.CacheErrorInterrupts

/-- Writes of the beat registers and the external lock. -/
def Obligations.BeatRegistersAndLock : Prop :=
  Sys2Proof.Claims.BeatRegisterWrites ∧ Sys2Proof.Claims.ExternalLock

/-- SOPEN, SWAIT and SCLOSE. -/
def Obligations.StreamOpenWaitAndClose : Prop :=
  Sys2Proof.Claims.StreamOpen ∧ Sys2Proof.Claims.StreamWaitAndClose

/-- Headers, delivery and polls of streams. -/
def Obligations.StreamDelivery : Prop :=
  Sys2Proof.Claims.StreamHeaders ∧ Sys2Proof.Claims.StreamDelivery ∧ Sys2Proof.Claims.StreamPolls

/-- Sieve jobs, their turns and their results. -/
def Obligations.Sieves : Prop :=
  Sys2Proof.Claims.SieveJobs ∧ Sys2Proof.Claims.SieveTurns ∧ Sys2Proof.Claims.SieveResults

/-- CAM instructions and their replies. -/
def Obligations.CamInstructionsAndReplies : Prop :=
  Sys2Proof.Claims.CamInstructions ∧ Sys2Proof.Claims.CamReplies

/-- What a CAM bank answers and how its entries change. -/
def Obligations.CamSearchesAndEdits : Prop :=
  Sys2Proof.Claims.CamSearches ∧ Sys2Proof.Claims.CamService ∧ Sys2Proof.Claims.CamEdits

/-- CAM upkeep, credits and configuration. -/
def Obligations.CamUpkeepAndConfiguration : Prop :=
  Sys2Proof.Claims.CamUpkeep ∧ Sys2Proof.Claims.CamConfiguration

/-- RUN entries, flows, system threads and promotion. -/
def Obligations.FlightsAndFlows : Prop :=
  Sys2Proof.Claims.FlightRuns ∧ Sys2Proof.Claims.FlowsAndService

/-- Queue reads, doorbells, timers and completions. -/
def Obligations.QueuesAndCompletions : Prop :=
  Sys2Proof.Claims.QueueReads ∧ Sys2Proof.Claims.DoorbellsAndTimers ∧ Sys2Proof.Claims.EntryCompletions

/-- ADMIN registers, ADMIN commands and the partition report. -/
def Obligations.AdministrationOfQueues : Prop :=
  Sys2Proof.Claims.AdminRegisters ∧ Sys2Proof.Claims.AdminCommands ∧ Sys2Proof.Claims.PartitionReport

/-- Segment commands and allocation. -/
def Obligations.SegmentCommandsAndAllocation : Prop :=
  Sys2Proof.Claims.SegmentCommands ∧ Sys2Proof.Claims.SegmentAllocation

/-- Segments that leave memory and return, and donated memory. -/
def Obligations.PagingAndDonation : Prop :=
  Sys2Proof.Claims.SegmentsLeave ∧ Sys2Proof.Claims.SegmentsReturn ∧ Sys2Proof.Claims.PageOuts ∧
    Sys2Proof.Claims.Donation

/-- Digest slots and DIGEST queues. -/
def Obligations.DigestEngine : Prop :=
  Sys2Proof.Claims.DigestSlots ∧ Sys2Proof.Claims.DigestQueues

/-- Loads, stores, LR, SC and AMO of the cores. -/
def Obligations.CoreAccessesAndAtomics : Prop :=
  Sys2Proof.Claims.CoreLoadsAndStores ∧ Sys2Proof.Claims.CoreAtomics

/-- Accesses of the cores to the control window, and writes by access code. -/
def Obligations.ControlWindowAccesses : Prop :=
  Sys2Proof.Claims.CoreWindowAccesses ∧ Sys2Proof.Claims.RegisterWrites

/-- Idle states of the cores and the package, and interrupt files. -/
def Obligations.IdleStatesAndInterrupts : Prop :=
  Sys2Proof.Claims.IdleStates ∧ Sys2Proof.Claims.InterruptFiles

/-- Requests of devices and commands of the IOMMU. -/
def Obligations.DevicesAndIommu : Prop :=
  Sys2Proof.Claims.DeviceRequests ∧ Sys2Proof.Claims.IommuCommands

/-- Reads of a DRAM channel and what its error check finds. -/
def Obligations.DramReadsAndErrors : Prop :=
  Sys2Proof.Claims.DramReads ∧ Sys2Proof.Claims.DramServices ∧ Sys2Proof.Claims.DramErrors

/-- Writes and refresh of a DRAM channel, and its activation table. -/
def Obligations.DramWritesAndRefresh : Prop :=
  Sys2Proof.Claims.DramWrites ∧ Sys2Proof.Claims.DramRefresh ∧ Sys2Proof.Claims.ActivationTable

/-- Oscillator drift, quiet windows, retraining and alerts of a DRAM channel. -/
def Obligations.DramDriftAndLink : Prop :=
  Sys2Proof.Claims.DramDrift ∧ Sys2Proof.Claims.DramLink

/-- LEDGER commands and reads of blocks. -/
def Obligations.LedgerCommandsAndReads : Prop :=
  Sys2Proof.Claims.LedgerCommands ∧ Sys2Proof.Claims.LedgerReads

/-- Write-type commands of the ledger and the write buffer. -/
def Obligations.LedgerWritesAndBuffer : Prop :=
  Sys2Proof.Claims.LedgerWrites ∧ Sys2Proof.Claims.LedgerWriteBuffer

/-- Failures of stacks and self-tests of the ledger. -/
def Obligations.LedgerFailuresAndTests : Prop :=
  Sys2Proof.Claims.StackFailures ∧ Sys2Proof.Claims.SelfTests

/-- Samples of the hold-up store, the loop, and the window limit. -/
def Obligations.HoldupLoopAndLimit : Prop :=
  Sys2Proof.Claims.HoldupSamples ∧ Sys2Proof.Claims.HoldupLoop ∧ Sys2Proof.Claims.WindowLimitIsAffordable

/-- Pages of the persistent window and its cleaner. -/
def Obligations.PersistentWindow : Prop :=
  Sys2Proof.Claims.WindowPages ∧ Sys2Proof.Claims.WindowCleaner

/-- Power failure, warm reset and cold reset. -/
def Obligations.PowerFailureAndResets : Prop :=
  Sys2Proof.Claims.PowerFailure ∧ Sys2Proof.Claims.WarmReset ∧ Sys2Proof.Claims.ColdReset

/-- The mailbox of the Warden and its events. -/
def Obligations.MailboxAndEvents : Prop :=
  Sys2Proof.Claims.MailboxDoorbell ∧ Sys2Proof.Claims.MailboxEvents ∧ Sys2Proof.Claims.LongCommandEnds

/-- Namespace and partition commands of the Warden. -/
def Obligations.NamespacesAndPartitions : Prop :=
  Sys2Proof.Claims.NamespaceCommands ∧ Sys2Proof.Claims.PartitionCommands

/-- Reports, firmware commands, activation and the boot record. -/
def Obligations.WardenFirmware : Prop :=
  Sys2Proof.Claims.WardenReports ∧ Sys2Proof.Claims.FirmwareCommands ∧ Sys2Proof.Claims.FirmwareActivation ∧
    Sys2Proof.Claims.BootRecordUpdates

/-- Recovery, injection, identity and control commands of the Warden. -/
def Obligations.RecoveryIdentityAndControl : Prop :=
  Sys2Proof.Claims.RecoveryInjectionIdentity ∧ Sys2Proof.Claims.WardenControl

/-- Event records, fatal events, mesh failures, snapshots and logs. -/
def Obligations.RecordsFailuresAndLogs : Prop :=
  Sys2Proof.Claims.EventRecords ∧ Sys2Proof.Claims.FatalAndMeshFailures ∧ Sys2Proof.Claims.SnapshotsAndLog

/-- Power, temperature, clock, UART, JTAG, I3C and the expiry of charges. -/
def Obligations.PowerClockAndSideband : Prop :=
  Sys2Proof.Claims.PowerControl ∧ Sys2Proof.Claims.ClockAndSideband ∧ Sys2Proof.Claims.ChargeExpiry
end

