-- ==== Sys2Proof/Laws/Engine.lean ====
section
/-! SUPPORT. Laws of the issue of an engine instruction and of the engine's registers. -/

namespace Sys2Proof.Machine

open Sys2Proof

/-- Settling the CAM latch leaves every register and the run state. -/
theorem settleLatch_eq (x : Engine) (w : InstrWord) :
    settleLatch x w = { x with
      afterRet := (settleLatch x w).afterRet, latch := (settleLatch x w).latch, cam := (settleLatch x w).cam } := by
  unfold settleLatch; split <;> rfl

@[simp] theorem settleLatch_s (x : Engine) (w : InstrWord) : (settleLatch x w).s = x.s := by
  unfold settleLatch; split <;> rfl
@[simp] theorem settleLatch_v (x : Engine) (w : InstrWord) : (settleLatch x w).v = x.v := by
  unfold settleLatch; split <;> rfl
@[simp] theorem settleLatch_vm (x : Engine) (w : InstrWord) : (settleLatch x w).vm = x.vm := by
  unfold settleLatch; split <;> rfl
@[simp] theorem settleLatch_p (x : Engine) (w : InstrWord) : (settleLatch x w).p = x.p := by
  unfold settleLatch; split <;> rfl
@[simp] theorem settleLatch_a (x : Engine) (w : InstrWord) : (settleLatch x w).a = x.a := by
  unfold settleLatch; split <;> rfl
@[simp] theorem settleLatch_pc (x : Engine) (w : InstrWord) : (settleLatch x w).pc = x.pc := by
  unfold settleLatch; split <;> rfl
@[simp] theorem settleLatch_mode (x : Engine) (w : InstrWord) : (settleLatch x w).mode = x.mode := by
  unfold settleLatch; split <;> rfl
@[simp] theorem settleLatch_codeBase (x : Engine) (w : InstrWord) : (settleLatch x w).codeBase = x.codeBase := by
  unfold settleLatch; split <;> rfl
@[simp] theorem settleLatch_codeLimit (x : Engine) (w : InstrWord) : (settleLatch x w).codeLimit = x.codeLimit := by
  unfold settleLatch; split <;> rfl
@[simp] theorem settleLatch_vfcsr (x : Engine) (w : InstrWord) : (settleLatch x w).vfcsr = x.vfcsr := by
  unfold settleLatch; split <;> rfl
@[simp] theorem settleLatch_landing (x : Engine) (w : InstrWord) : (settleLatch x w).landing = x.landing := by
  unfold settleLatch; split <;> rfl
@[simp] theorem settleLatch_code (x : Engine) (w : InstrWord) : (settleLatch x w).code = x.code := by
  unfold settleLatch; split <;> rfl
@[simp] theorem settleLatch_sb (x : Engine) (w : InstrWord) : (settleLatch x w).sb = x.sb := by
  unfold settleLatch; split <;> rfl

@[simp] theorem getS_settleLatch (x : Engine) (w : InstrWord) (n : BitVec 5) : getS (settleLatch x w) n = getS x n := by
  simp [getS]
@[simp] theorem getP_settleLatch (x : Engine) (w : InstrWord) (n : BitVec 3) : getP (settleLatch x w) n = getP x n := by
  simp [getP]
@[simp] theorem getV_settleLatch (x : Engine) (w : InstrWord) (n : BitVec 4) : getV (settleLatch x w) n = getV x n := by
  simp [getV]
@[simp] theorem getVm_settleLatch (x : Engine) (w : InstrWord) (n : BitVec 4) : getVm (settleLatch x w) n = getVm x n := by
  simp [getVm]
@[simp] theorem getA_settleLatch (x : Engine) (w : InstrWord) (n : BitVec 3) : getA (settleLatch x w) n = getA x n := by
  simp [getA]

theorem fetchable_settleLatch (x : Engine) (w : InstrWord) : fetchable (settleLatch x w) = fetchable x := by
  simp [fetchable]

/-- An engine that issues passes the checks of issue and fetch. -/
theorem Engine.Issues.issuable {x : Engine} (h : x.Issues) : issuable x = true := by
  obtain ⟨h1, h2, h3, h4, h5, h6, -⟩ := h
  simp only [Machine.issuable, fetches, h1, h2, h3, h4]
  simpa [h6] using h5

theorem Engine.Issues.fetchable {x : Engine} (h : x.Issues) : fetchable x = true := by
  have := h.fetch
  cases hm : x.mode <;> simp_all [Machine.fetchable]

/-- What the checks before execution do for an engine that executes: they only settle the CAM latch. -/
theorem precheck_of_executes {x : Engine} {i : Instr} (h : x.Executes i) :
    precheck i x = (settleLatch x (wordOf i), true) := by
  have h1 := h.issues.issuable
  have h2 := h.issues.fetchable
  have h3 := h.legal
  have h4 := h.allowed
  simp only [precheck, h1, fetchable_settleLatch, h2, h3, settleLatch_mode]
  cases hk : kernelOnly i with
  | false => simp
  | true => simp [h4 hk]

/-- An instruction that stays within its engine: its effect on the engine after the checks. -/
theorem runEng_of_executes {s : State} {e : Eng} {i : Instr} {f : Engine → Engine} (h : (s.eng e).Executes i) :
    runEng e i f s = .next (s.withEng e (f (s.engAt e i))) := by
  have := precheck_of_executes h
  simp only [State.eng, Fin.getElem_fin] at this
  simp [runEng, act, updEng, engInstr, State.withEng, State.engAt, State.eng, this]

/-- An instruction that reaches other units: its effect on the part whose engine has passed the checks. -/
theorem runDev_of_executes {s : State} {e : Eng} {i : Instr} {f : Device → Device} (h : (s.eng e).Executes i) :
    runDev e i f s = .next (s.withDev (f (updEng s.dev e fun _ => s.engAt e i))) := by
  have := precheck_of_executes h
  simp only [State.eng, Fin.getElem_fin] at this
  simp [runDev, act, State.withDev, State.engAt, State.eng, this]

/-- Whatever an instruction does within its engine, the rest of the part stays. -/
theorem runEng_frame (e : Eng) (i : Instr) (f : Engine → Engine) (s : State) :
    ∃ y, runEng e i f s = .next (s.withEng e y) := ⟨engInstr i f (s.eng e), rfl⟩

/-! ### Registers -/

theorem adv_setS (x : Engine) (rd : BitVec 5) (v : Dword) : adv (setS x rd v) = x.wrote rd v := by
  unfold setS Engine.wrote adv; split <;> simp_all

theorem getS_setS (x : Engine) (n m : BitVec 5) (v : Dword) :
    getS (setS x n v) m = if m = 0 then 0 else if m = n then v else getS x m := by
  by_cases hm : m = 0
  · simp [getS, hm]
  · by_cases hn : n = 0
    · subst hn; simp only [getS, setS, hm, if_true, if_false]
    · simp only [getS, setS, hn, hm, if_false, Vector.getElem_set]
      by_cases h : m = n
      · subst h; simp
      · have : n.toNat ≠ m.toNat := fun k => h (BitVec.eq_of_toNat_eq k).symm
        simp [this, h]

theorem getP_setP (x : Engine) (n m : BitVec 3) (v : Mask) :
    getP (setP x n v) m = if m = 0 then 0xffff else if m = n then v else getP x m := by
  by_cases hm : m = 0
  · simp [getP, hm]
  · by_cases hn : n = 0
    · subst hn; simp only [getP, setP, hm, if_true, if_false]
    · simp only [getP, setP, hn, hm, if_false, Vector.getElem_set]
      by_cases h : m = n
      · subst h; simp
      · have : n.toNat ≠ m.toNat := fun k => h (BitVec.eq_of_toNat_eq k).symm
        simp [this, h]

end Sys2Proof.Machine
end

