-- ==== Sys2Proof/Laws/Memory.lean ====
section
/-! SUPPORT. Laws of the sparse tables and of the byte memories: reading after writing, frames, and the canonical
form. -/

namespace Sys2Proof.Machine

open Sys2Proof

variable {α : Type}

/-! ### Tables -/

theorem sfind_sput_self (l : Sparse α) (k : Nat) (x : α) : sfind (sput l k x) k = some x := by
  induction l with
  | nil => simp [sput, sfind]
  | cons c t ih =>
    obtain ⟨a, y⟩ := c
    by_cases h : k < a
    · simp [sput, sfind, h]
    · by_cases ha : a = k
      · simp [sput, sfind, ha]
      · simp [sput, sfind, h, ha, ih]

theorem sfind_sput_of_ne (l : Sparse α) {k n : Nat} (x : α) (h : n ≠ k) : sfind (sput l k x) n = sfind l n := by
  induction l with
  | nil => simp [sput, sfind, Ne.symm h]
  | cons c t ih =>
    obtain ⟨a, y⟩ := c
    by_cases hk : k < a
    · simp [sput, sfind, hk, Ne.symm h]
    · by_cases ha : a = k
      · subst ha; simp [sput, sfind, Ne.symm h]
      · simp [sput, sfind, hk, ha, ih]

theorem sfind_sdel_self (l : Sparse α) (k : Nat) : sfind (sdel l k) k = none := by
  induction l with
  | nil => rfl
  | cons c t ih =>
    obtain ⟨a, y⟩ := c
    by_cases h : a = k
    · simpa [sdel, h] using ih
    · simpa [sdel, sfind, h] using ih

theorem sfind_sdel_of_ne (l : Sparse α) {k n : Nat} (h : n ≠ k) : sfind (sdel l k) n = sfind l n := by
  induction l with
  | nil => rfl
  | cons c t ih =>
    obtain ⟨a, y⟩ := c
    by_cases ha : a = k
    · subst ha; simpa [sdel, sfind, Ne.symm h] using ih
    · by_cases hn : a = n <;> simp_all [sdel, sfind]

@[simp] theorem sget_sput (l : Sparse α) (k n : Nat) (x d : α) :
    sget (sput l k x) n d = if n = k then x else sget l n d := by
  by_cases h : n = k
  · subst h; simp [sget, sfind_sput_self]
  · simp [sget, sfind_sput_of_ne l x h, h]

@[simp] theorem sget_sdel (l : Sparse α) (k n : Nat) (d : α) :
    sget (sdel l k) n d = if n = k then d else sget l n d := by
  by_cases h : n = k
  · subst h; simp [sget, sfind_sdel_self]
  · simp [sget, sfind_sdel_of_ne l h, h]

theorem sfind_supd (l : Sparse α) (k n : Nat) (f : α → α) :
    sfind (supd l k f) n = if n = k then (sfind l n).map f else sfind l n := by
  cases hk : sfind l k with
  | none =>
    by_cases h : n = k
    · subst h; simp [supd, hk]
    · simp [supd, hk, h]
  | some x =>
    by_cases h : n = k
    · subst h; simp [supd, hk, sfind_sput_self]
    · simp [supd, hk, h, sfind_sput_of_ne _ _ h]

/-! ### Rising keys -/

/-- Rising keys, said pairwise. -/
theorem keysRise_cons (a : Nat) (x : α) (t : Sparse α) :
    keysRise ((a, x) :: t) = true ↔ (∀ c ∈ t, a < c.1) ∧ keysRise t = true := by
  induction t generalizing a x with
  | nil => simp [keysRise]
  | cons c t ih =>
    obtain ⟨b, y⟩ := c
    have key : keysRise ((a, x) :: (b, y) :: t) = (decide (a < b) && keysRise ((b, y) :: t)) := by rfl
    rw [key, Bool.and_eq_true, decide_eq_true_eq]
    constructor
    · rintro ⟨hab, hb⟩
      refine ⟨?_, hb⟩
      intro c hc
      cases hc with
      | head => exact hab
      | tail _ hc => exact Nat.lt_trans hab (((ih b y).mp hb).1 c hc)
    · rintro ⟨h, hb⟩
      exact ⟨h _ (List.mem_cons_self ..), hb⟩

theorem mem_sput (l : Sparse α) (k : Nat) (x : α) (c : Nat × α) : c ∈ sput l k x → c = (k, x) ∨ c ∈ l := by
  induction l with
  | nil => simp [sput]
  | cons b t ih =>
    obtain ⟨a, y⟩ := b
    by_cases hk : k < a
    · simp [sput, hk]
    · by_cases ha : a = k
      · subst ha
        simp only [sput, Nat.lt_irrefl, if_false, if_true, List.mem_cons]
        rintro (h | h)
        · exact .inl h
        · exact .inr (.inr h)
      · simp only [sput, hk, ha, if_false, List.mem_cons]
        rintro (h | h)
        · exact .inr (.inl h)
        · exact (ih h).imp id .inr

theorem keysRise_sput (l : Sparse α) (k : Nat) (x : α) (h : keysRise l = true) : keysRise (sput l k x) = true := by
  induction l with
  | nil => rfl
  | cons b t ih =>
    obtain ⟨a, y⟩ := b
    have ⟨ht, hr⟩ := (keysRise_cons a y t).mp h
    by_cases hk : k < a
    · simp only [sput, hk, if_true]
      refine (keysRise_cons _ _ _).mpr ⟨?_, h⟩
      intro c hc
      rcases List.mem_cons.mp hc with rfl | hc
      · exact hk
      · exact Nat.lt_trans hk (ht c hc)
    · by_cases ha : a = k
      · subst ha; simp only [sput, Nat.lt_irrefl, if_false, if_true]
        exact (keysRise_cons _ _ _).mpr ⟨ht, hr⟩
      · simp only [sput, hk, ha, if_false]
        refine (keysRise_cons _ _ _).mpr ⟨?_, ih hr⟩
        intro c hc
        rcases mem_sput t k x c hc with rfl | hc
        · exact Nat.lt_of_le_of_ne (Nat.le_of_not_lt hk) ha
        · exact ht c hc

theorem keysRise_filter (l : Sparse α) (p : Nat × α → Bool) (h : keysRise l = true) : keysRise (l.filter p) = true := by
  induction l with
  | nil => rfl
  | cons b t ih =>
    obtain ⟨a, y⟩ := b
    have ⟨ht, hr⟩ := (keysRise_cons a y t).mp h
    by_cases hp : p (a, y)
    · rw [List.filter_cons_of_pos hp]
      exact (keysRise_cons _ _ _).mpr ⟨fun c hc => ht c (List.mem_filter.mp hc).1, ih hr⟩
    · rw [List.filter_cons_of_neg hp]; exact ih hr

theorem keysRise_sdel (l : Sparse α) (k : Nat) (h : keysRise l = true) : keysRise (sdel l k) = true :=
  keysRise_filter l _ h

/-! ### Byte memories -/

@[simp] theorem mget_mput (m : List Host.Cell) (a n : Nat) (b : Byte) :
    mget (mput m a b) n = if n = a then b else mget m n := by
  unfold mget mput
  split <;> rename_i h
  · subst h; simp
  · simp

theorem memWf_filter (m : List Host.Cell) (p : Host.Cell → Bool) (h : memWf m = true) : memWf (m.filter p) = true := by
  simp only [memWf, Bool.and_eq_true, List.all_eq_true] at h ⊢
  exact ⟨keysRise_filter m p h.1, fun c hc => h.2 c (List.mem_filter.mp hc).1⟩

theorem memWf_mput (m : List Host.Cell) (a : Nat) (b : Byte) (h : memWf m = true) : memWf (mput m a b) = true := by
  by_cases hb : b = 0
  · simpa [mput, hb, sdel] using memWf_filter m _ h
  · simp only [memWf, Bool.and_eq_true, List.all_eq_true] at h ⊢
    simp only [mput, hb, if_false]
    refine ⟨keysRise_sput m a b h.1, fun c hc => ?_⟩
    rcases mem_sput m a b c hc with rfl | hc
    · simpa using hb
    · exact h.2 c hc

theorem memWf_mwrite (m : List Host.Cell) (a n v : Nat) (h : memWf m = true) : memWf (mwrite m a n v) = true := by
  induction n generalizing m a v with
  | zero => exact h
  | succ n ih => exact ih _ _ _ (memWf_mput m a _ h)

theorem memWf_mwriteMask (m : List Host.Cell) (a n v en : Nat) (h : memWf m = true) :
    memWf (mwriteMask m a n v en) = true := by
  induction n generalizing m a v en with
  | zero => exact h
  | succ n ih =>
    refine ih _ _ _ _ ?_
    split
    · exact memWf_mput m a _ h
    · exact h

theorem memWf_mwriteList (m : List Host.Cell) (a : Nat) (l : List Byte) (h : memWf m = true) :
    memWf (mwriteList m a l) = true := by
  induction l generalizing m a with
  | nil => exact h
  | cons b t ih => exact ih _ _ (memWf_mput m a b h)

/-- A byte after a store of `n` bytes: the value's byte inside, the old byte outside. -/
theorem mget_mwrite (m : List Host.Cell) (a n v b : Nat) :
    mget (mwrite m a n v) b = if a ≤ b ∧ b < a + n then BitVec.ofNat 8 (v / 2 ^ (8 * (b - a))) else mget m b := by
  induction n generalizing m a v with
  | zero =>
    have : ¬ (a ≤ b ∧ b < a + 0) := by omega
    rw [if_neg this]; rfl
  | succ n ih =>
    rw [mwrite, ih, mget_mput]
    by_cases h0 : b = a
    · subst h0
      have : ¬ (b + 1 ≤ b ∧ b < b + 1 + n) := by omega
      simp [this]
    · by_cases h1 : a + 1 ≤ b ∧ b < a + 1 + n
      · have h2 : a ≤ b ∧ b < a + (n + 1) := by omega
        have h3 : 8 * (b - a) = 8 + 8 * (b - (a + 1)) := by omega
        rw [if_pos h1, if_pos h2, h3, Nat.pow_add, ← Nat.div_div_eq_div_mul]
      · have h2 : ¬ (a ≤ b ∧ b < a + (n + 1)) := by omega
        rw [if_neg h1, if_neg h2, if_neg h0]

/-- What a store does to a memory. -/
theorem stored_mwrite (m : List Host.Cell) (a n v : Nat) : Memory.Stored m (mwrite m a n v) a n v where
  inside k hk := by
    rw [mget_mwrite, if_pos (by omega)]; simp
  outside b hb := by rw [mget_mwrite, if_neg (by omega)]
  form h := memWf_mwrite m a n v h

/-- Reading back what was stored. -/
theorem mread_mwrite (m : List Host.Cell) (a n v : Nat) : mread (mwrite m a n v) a n = v % 2 ^ (8 * n) := by
  have key : ∀ (k a v : Nat) (m : List Host.Cell), (∀ j < k, mget m (a + j) = BitVec.ofNat 8 (v / 2 ^ (8 * j))) →
      mread m a k = v % 2 ^ (8 * k) := by
    intro k
    induction k with
    | zero => intro a v m _; simp [mread, readLE, Nat.mod_one]
    | succ k ih =>
      intro a v m h
      have h0 := h 0 (Nat.succ_pos _)
      have hr := ih (a + 1) (v / 256) m (fun j hj => by
        have := h (j + 1) (by omega)
        rw [show a + 1 + j = a + (j + 1) by omega, this, Nat.div_div_eq_div_mul]
        congr 2
        rw [show 8 * (j + 1) = 8 + 8 * j by omega, Nat.pow_add])
      simp only [mread, readLE] at hr ⊢
      rw [hr]
      simp only [Nat.add_zero, Nat.mul_zero, Nat.pow_zero, Nat.div_one] at h0
      rw [h0, BitVec.toNat_ofNat, show 8 * (k + 1) = 8 + 8 * k by omega, Nat.pow_add, Nat.mod_mul]
  exact key n a v _ (stored_mwrite m a n v).inside

/-- Main memory after reset lists nothing. -/
theorem reset_mem_wf : memWf State.reset.dev.mem = true := rfl

end Sys2Proof.Machine
end

