-- ==== Sys2Proof/Laws/Fields.lean ====
section
/-! SUPPORT. Laws of bit fields and of the register file: a field after it is set, and every other field and register.
-/

namespace Sys2Proof.Machine

open Sys2Proof

/-! ### Fields -/

theorem testBit_field (v : Dword) (lo len i : Nat) :
    (field v lo len).testBit i = (decide (i < len) && v.getLsbD (lo + i)) := by
  simp [field, fieldN, Nat.testBit_mod_two_pow, Nat.testBit_div_two_pow, Nat.add_comm, BitVec.getLsbD]

theorem field_lt (v : Dword) (lo len : Nat) : field v lo len < 2 ^ len := Nat.mod_lt _ (Nat.two_pow_pos len)

theorem getLsbD_setField (v : Dword) (lo len x i : Nat) (h : i < 64) :
    (setField v lo len x).getLsbD i = if lo ≤ i ∧ i < lo + len then x.testBit (i - lo) else v.getLsbD i := by
  simp only [setField, BitVec.getLsbD_or, BitVec.getLsbD_and, BitVec.getLsbD_not, BitVec.getLsbD_ofNat, h, decide_true,
    Bool.true_and, Nat.testBit_mul_two_pow, Nat.testBit_two_pow_sub_one]
  by_cases h1 : lo ≤ i
  · by_cases h2 : i < lo + len
    · have : i - lo < len := by omega
      simp [h1, h2, this]
    · have : ¬ i - lo < len := by omega
      simp [h1, h2, this]
  · simp [h1]

/-- A field that has just been set. -/
theorem field_setField_self (v : Dword) {lo len : Nat} (x : Nat) (h : lo + len ≤ 64) :
    field (setField v lo len x) lo len = x % 2 ^ len := by
  apply Nat.eq_of_testBit_eq
  intro i
  rw [testBit_field, Nat.testBit_mod_two_pow]
  by_cases hi : i < len
  · have h1 : lo + i < 64 := by omega
    have h2 : lo ≤ lo + i ∧ lo + i < lo + len := by omega
    rw [getLsbD_setField _ _ _ _ _ h1, if_pos h2]
    simp [hi]
  · simp [hi]

/-- A field apart from the one that has been set. -/
theorem field_setField_apart (v : Dword) {lo len lo' len' : Nat} (x : Nat) (h : lo' + len' ≤ lo ∨ lo + len ≤ lo') :
    field (setField v lo len x) lo' len' = field v lo' len' := by
  apply Nat.eq_of_testBit_eq
  intro i
  rw [testBit_field, testBit_field]
  by_cases hi : i < len'
  · by_cases h64 : lo' + i < 64
    · have h2 : ¬ (lo ≤ lo' + i ∧ lo' + i < lo + len) := by omega
      rw [getLsbD_setField _ _ _ _ _ h64, if_neg h2]
    · simp [BitVec.getLsbD_of_ge _ _ (Nat.le_of_not_lt h64)]
  · simp [hi]

/-! ### The register file -/

@[simp] theorem regGet_sput (r : Sparse Dword) (x y : Nat) (v : Dword) :
    regGet (sput r x v) y = if y = x then v else regGet r y := by
  by_cases h : y = x
  · subst h; simp [regGet, sfind_sput_self]
  · simp [regGet, sfind_sput_of_ne _ _ h, h]

theorem reg_setReg (d : Device) (x lo len v y : Nat) :
    reg (setReg d x lo len v) y = if y = x then setField (reg d x) lo len v else reg d y := by
  simp [reg, setReg, updRegs, regSet]

theorem regF_eq (d : Device) (x lo len : Nat) : regF d x lo len = field (reg d x) lo len := rfl

theorem regF_setReg_self (d : Device) (x : Nat) {lo len : Nat} (v : Nat) (h : lo + len ≤ 64) :
    regF (setReg d x lo len v) x lo len = v % 2 ^ len := by
  rw [regF_eq, reg_setReg, if_pos rfl, field_setField_self _ _ h]

theorem regF_setReg_apart (d : Device) (x : Nat) {lo len lo' len' : Nat} (v : Nat)
    (h : lo' + len' ≤ lo ∨ lo + len ≤ lo') : regF (setReg d x lo len v) x lo' len' = regF d x lo' len' := by
  rw [regF_eq, reg_setReg, if_pos rfl, field_setField_apart _ _ h, regF_eq]

theorem regF_setReg_of_ne (d : Device) {x y : Nat} (lo len v lo' len' : Nat) (h : y ≠ x) :
    regF (setReg d x lo len v) y lo' len' = regF d y lo' len' := by
  rw [regF_eq, reg_setReg, if_neg h, regF_eq]

theorem incReg_eq (d : Device) (x lo len n : Nat) : incReg d x lo len n = setReg d x lo len ((regF d x lo len + n) % 2 ^ len) :=
  rfl

theorem incRegSat_eq (d : Device) (x lo len : Nat) : incRegSat d x lo len = setReg d x lo len (satInc (regF d x lo len) len) :=
  rfl

theorem satInc_lt (x len : Nat) (h : x < 2 ^ len) : satInc x len < 2 ^ len := by
  unfold satInc; split <;> assumption

theorem beatNow_setReg (d : Device) {x : Nat} (lo len v : Nat) (h : BEAT_COUNT ≠ x) :
    beatNow (setReg d x lo len v) = beatNow d := regF_setReg_of_ne d lo len v 0 64 h

end Sys2Proof.Machine
end

