-- ==== Sys2Proof/Laws/State.lean ====
section
/-! SUPPORT. Each update of the device field by field: what it leaves is the field before it, by definition. -/

namespace Sys2Proof.Machine

open Sys2Proof

section
variable (d : Device) (e : Eng) (f : Engine → Engine)
@[simp] theorem updEng_phase : (updEng d e f).phase = d.phase := rfl
@[simp] theorem updEng_cycle : (updEng d e f).cycle = d.cycle := rfl
@[simp] theorem updEng_freeCount : (updEng d e f).freeCount = d.freeCount := rfl
@[simp] theorem updEng_regs : (updEng d e f).regs = d.regs := rfl
@[simp] theorem updEng_beat : (updEng d e f).beat = d.beat := rfl
@[simp] theorem updEng_sched : (updEng d e f).sched = d.sched := rfl
@[simp] theorem updEng_mez : (updEng d e f).mez = d.mez := rfl
@[simp] theorem updEng_gal : (updEng d e f).gal = d.gal := rfl
@[simp] theorem updEng_banks : (updEng d e f).banks = d.banks := rfl
@[simp] theorem updEng_camSq : (updEng d e f).camSq = d.camSq := rfl
@[simp] theorem updEng_sieves : (updEng d e f).sieves = d.sieves := rfl
@[simp] theorem updEng_mem : (updEng d e f).mem = d.mem := rfl
@[simp] theorem updEng_poison : (updEng d e f).poison = d.poison := rfl
@[simp] theorem updEng_flips : (updEng d e f).flips = d.flips := rfl
@[simp] theorem updEng_galFlips : (updEng d e f).galFlips = d.galFlips := rfl
@[simp] theorem updEng_waits : (updEng d e f).waits = d.waits := rfl
@[simp] theorem updEng_chans : (updEng d e f).chans = d.chans := rfl
@[simp] theorem updEng_mirrors : (updEng d e f).mirrors = d.mirrors := rfl
@[simp] theorem updEng_harts : (updEng d e f).harts = d.harts := rfl
@[simp] theorem updEng_packageIdle : (updEng d e f).packageIdle = d.packageIdle := rfl
@[simp] theorem updEng_hup : (updEng d e f).hup = d.hup := rfl
@[simp] theorem updEng_queues : (updEng d e f).queues = d.queues := rfl
@[simp] theorem updEng_accepted : (updEng d e f).accepted = d.accepted := rfl
@[simp] theorem updEng_ledger : (updEng d e f).ledger = d.ledger := rfl
@[simp] theorem updEng_pager : (updEng d e f).pager = d.pager := rfl
@[simp] theorem updEng_parts : (updEng d e f).parts = d.parts := rfl
@[simp] theorem updEng_codecs : (updEng d e f).codecs = d.codecs := rfl
@[simp] theorem updEng_slots : (updEng d e f).slots = d.slots := rfl
@[simp] theorem updEng_warden : (updEng d e f).warden = d.warden := rfl
@[simp] theorem updEng_ras : (updEng d e f).ras = d.ras := rfl
@[simp] theorem updEng_life : (updEng d e f).life = d.life := rfl
@[simp] theorem updEng_mesh : (updEng d e f).mesh = d.mesh := rfl
@[simp] theorem updEng_pkg : (updEng d e f).pkg = d.pkg := rfl
@[simp] theorem updEng_readBack : (updEng d e f).readBack = d.readBack := rfl
@[simp] theorem updEng_self : (updEng d e f).engines[e.val] = f d.engines[e.val] := by simp [updEng]
theorem updEng_of_ne {other : Eng} (ne : other ≠ e) : (updEng d e f).engines[other] = d.engines[other] := by
  have : e.val ≠ other.val := fun same => ne (Fin.ext same.symm)
  simp [updEng, this]
end

section
variable (d : Device) (f : Sparse Dword → Sparse Dword)
@[simp] theorem updRegs_phase : (updRegs d f).phase = d.phase := rfl
@[simp] theorem updRegs_cycle : (updRegs d f).cycle = d.cycle := rfl
@[simp] theorem updRegs_freeCount : (updRegs d f).freeCount = d.freeCount := rfl
@[simp] theorem updRegs_beat : (updRegs d f).beat = d.beat := rfl
@[simp] theorem updRegs_engines : (updRegs d f).engines = d.engines := rfl
@[simp] theorem updRegs_sched : (updRegs d f).sched = d.sched := rfl
@[simp] theorem updRegs_mez : (updRegs d f).mez = d.mez := rfl
@[simp] theorem updRegs_gal : (updRegs d f).gal = d.gal := rfl
@[simp] theorem updRegs_banks : (updRegs d f).banks = d.banks := rfl
@[simp] theorem updRegs_camSq : (updRegs d f).camSq = d.camSq := rfl
@[simp] theorem updRegs_sieves : (updRegs d f).sieves = d.sieves := rfl
@[simp] theorem updRegs_mem : (updRegs d f).mem = d.mem := rfl
@[simp] theorem updRegs_poison : (updRegs d f).poison = d.poison := rfl
@[simp] theorem updRegs_flips : (updRegs d f).flips = d.flips := rfl
@[simp] theorem updRegs_galFlips : (updRegs d f).galFlips = d.galFlips := rfl
@[simp] theorem updRegs_waits : (updRegs d f).waits = d.waits := rfl
@[simp] theorem updRegs_chans : (updRegs d f).chans = d.chans := rfl
@[simp] theorem updRegs_mirrors : (updRegs d f).mirrors = d.mirrors := rfl
@[simp] theorem updRegs_harts : (updRegs d f).harts = d.harts := rfl
@[simp] theorem updRegs_packageIdle : (updRegs d f).packageIdle = d.packageIdle := rfl
@[simp] theorem updRegs_hup : (updRegs d f).hup = d.hup := rfl
@[simp] theorem updRegs_queues : (updRegs d f).queues = d.queues := rfl
@[simp] theorem updRegs_accepted : (updRegs d f).accepted = d.accepted := rfl
@[simp] theorem updRegs_ledger : (updRegs d f).ledger = d.ledger := rfl
@[simp] theorem updRegs_pager : (updRegs d f).pager = d.pager := rfl
@[simp] theorem updRegs_parts : (updRegs d f).parts = d.parts := rfl
@[simp] theorem updRegs_codecs : (updRegs d f).codecs = d.codecs := rfl
@[simp] theorem updRegs_slots : (updRegs d f).slots = d.slots := rfl
@[simp] theorem updRegs_warden : (updRegs d f).warden = d.warden := rfl
@[simp] theorem updRegs_ras : (updRegs d f).ras = d.ras := rfl
@[simp] theorem updRegs_life : (updRegs d f).life = d.life := rfl
@[simp] theorem updRegs_mesh : (updRegs d f).mesh = d.mesh := rfl
@[simp] theorem updRegs_pkg : (updRegs d f).pkg = d.pkg := rfl
@[simp] theorem updRegs_readBack : (updRegs d f).readBack = d.readBack := rfl
@[simp] theorem updRegs_regs : (updRegs d f).regs = f d.regs := rfl
end

section
variable (d : Device) (x lo len v : Nat)
@[simp] theorem setReg_phase : (setReg d x lo len v).phase = d.phase := rfl
@[simp] theorem setReg_cycle : (setReg d x lo len v).cycle = d.cycle := rfl
@[simp] theorem setReg_freeCount : (setReg d x lo len v).freeCount = d.freeCount := rfl
@[simp] theorem setReg_beat : (setReg d x lo len v).beat = d.beat := rfl
@[simp] theorem setReg_engines : (setReg d x lo len v).engines = d.engines := rfl
@[simp] theorem setReg_sched : (setReg d x lo len v).sched = d.sched := rfl
@[simp] theorem setReg_mez : (setReg d x lo len v).mez = d.mez := rfl
@[simp] theorem setReg_gal : (setReg d x lo len v).gal = d.gal := rfl
@[simp] theorem setReg_banks : (setReg d x lo len v).banks = d.banks := rfl
@[simp] theorem setReg_camSq : (setReg d x lo len v).camSq = d.camSq := rfl
@[simp] theorem setReg_sieves : (setReg d x lo len v).sieves = d.sieves := rfl
@[simp] theorem setReg_mem : (setReg d x lo len v).mem = d.mem := rfl
@[simp] theorem setReg_poison : (setReg d x lo len v).poison = d.poison := rfl
@[simp] theorem setReg_flips : (setReg d x lo len v).flips = d.flips := rfl
@[simp] theorem setReg_galFlips : (setReg d x lo len v).galFlips = d.galFlips := rfl
@[simp] theorem setReg_waits : (setReg d x lo len v).waits = d.waits := rfl
@[simp] theorem setReg_chans : (setReg d x lo len v).chans = d.chans := rfl
@[simp] theorem setReg_mirrors : (setReg d x lo len v).mirrors = d.mirrors := rfl
@[simp] theorem setReg_harts : (setReg d x lo len v).harts = d.harts := rfl
@[simp] theorem setReg_packageIdle : (setReg d x lo len v).packageIdle = d.packageIdle := rfl
@[simp] theorem setReg_hup : (setReg d x lo len v).hup = d.hup := rfl
@[simp] theorem setReg_queues : (setReg d x lo len v).queues = d.queues := rfl
@[simp] theorem setReg_accepted : (setReg d x lo len v).accepted = d.accepted := rfl
@[simp] theorem setReg_ledger : (setReg d x lo len v).ledger = d.ledger := rfl
@[simp] theorem setReg_pager : (setReg d x lo len v).pager = d.pager := rfl
@[simp] theorem setReg_parts : (setReg d x lo len v).parts = d.parts := rfl
@[simp] theorem setReg_codecs : (setReg d x lo len v).codecs = d.codecs := rfl
@[simp] theorem setReg_slots : (setReg d x lo len v).slots = d.slots := rfl
@[simp] theorem setReg_warden : (setReg d x lo len v).warden = d.warden := rfl
@[simp] theorem setReg_ras : (setReg d x lo len v).ras = d.ras := rfl
@[simp] theorem setReg_life : (setReg d x lo len v).life = d.life := rfl
@[simp] theorem setReg_mesh : (setReg d x lo len v).mesh = d.mesh := rfl
@[simp] theorem setReg_pkg : (setReg d x lo len v).pkg = d.pkg := rfl
@[simp] theorem setReg_readBack : (setReg d x lo len v).readBack = d.readBack := rfl
end

section
variable (d : Device) (x lo len n : Nat)
@[simp] theorem incReg_phase : (incReg d x lo len n).phase = d.phase := rfl
@[simp] theorem incReg_cycle : (incReg d x lo len n).cycle = d.cycle := rfl
@[simp] theorem incReg_freeCount : (incReg d x lo len n).freeCount = d.freeCount := rfl
@[simp] theorem incReg_beat : (incReg d x lo len n).beat = d.beat := rfl
@[simp] theorem incReg_engines : (incReg d x lo len n).engines = d.engines := rfl
@[simp] theorem incReg_sched : (incReg d x lo len n).sched = d.sched := rfl
@[simp] theorem incReg_mez : (incReg d x lo len n).mez = d.mez := rfl
@[simp] theorem incReg_gal : (incReg d x lo len n).gal = d.gal := rfl
@[simp] theorem incReg_banks : (incReg d x lo len n).banks = d.banks := rfl
@[simp] theorem incReg_camSq : (incReg d x lo len n).camSq = d.camSq := rfl
@[simp] theorem incReg_sieves : (incReg d x lo len n).sieves = d.sieves := rfl
@[simp] theorem incReg_mem : (incReg d x lo len n).mem = d.mem := rfl
@[simp] theorem incReg_poison : (incReg d x lo len n).poison = d.poison := rfl
@[simp] theorem incReg_flips : (incReg d x lo len n).flips = d.flips := rfl
@[simp] theorem incReg_galFlips : (incReg d x lo len n).galFlips = d.galFlips := rfl
@[simp] theorem incReg_waits : (incReg d x lo len n).waits = d.waits := rfl
@[simp] theorem incReg_chans : (incReg d x lo len n).chans = d.chans := rfl
@[simp] theorem incReg_mirrors : (incReg d x lo len n).mirrors = d.mirrors := rfl
@[simp] theorem incReg_harts : (incReg d x lo len n).harts = d.harts := rfl
@[simp] theorem incReg_packageIdle : (incReg d x lo len n).packageIdle = d.packageIdle := rfl
@[simp] theorem incReg_hup : (incReg d x lo len n).hup = d.hup := rfl
@[simp] theorem incReg_queues : (incReg d x lo len n).queues = d.queues := rfl
@[simp] theorem incReg_accepted : (incReg d x lo len n).accepted = d.accepted := rfl
@[simp] theorem incReg_ledger : (incReg d x lo len n).ledger = d.ledger := rfl
@[simp] theorem incReg_pager : (incReg d x lo len n).pager = d.pager := rfl
@[simp] theorem incReg_parts : (incReg d x lo len n).parts = d.parts := rfl
@[simp] theorem incReg_codecs : (incReg d x lo len n).codecs = d.codecs := rfl
@[simp] theorem incReg_slots : (incReg d x lo len n).slots = d.slots := rfl
@[simp] theorem incReg_warden : (incReg d x lo len n).warden = d.warden := rfl
@[simp] theorem incReg_ras : (incReg d x lo len n).ras = d.ras := rfl
@[simp] theorem incReg_life : (incReg d x lo len n).life = d.life := rfl
@[simp] theorem incReg_mesh : (incReg d x lo len n).mesh = d.mesh := rfl
@[simp] theorem incReg_pkg : (incReg d x lo len n).pkg = d.pkg := rfl
@[simp] theorem incReg_readBack : (incReg d x lo len n).readBack = d.readBack := rfl
end

section
variable (d : Device) (x lo len : Nat)
@[simp] theorem incRegSat_phase : (incRegSat d x lo len).phase = d.phase := rfl
@[simp] theorem incRegSat_cycle : (incRegSat d x lo len).cycle = d.cycle := rfl
@[simp] theorem incRegSat_freeCount : (incRegSat d x lo len).freeCount = d.freeCount := rfl
@[simp] theorem incRegSat_beat : (incRegSat d x lo len).beat = d.beat := rfl
@[simp] theorem incRegSat_engines : (incRegSat d x lo len).engines = d.engines := rfl
@[simp] theorem incRegSat_sched : (incRegSat d x lo len).sched = d.sched := rfl
@[simp] theorem incRegSat_mez : (incRegSat d x lo len).mez = d.mez := rfl
@[simp] theorem incRegSat_gal : (incRegSat d x lo len).gal = d.gal := rfl
@[simp] theorem incRegSat_banks : (incRegSat d x lo len).banks = d.banks := rfl
@[simp] theorem incRegSat_camSq : (incRegSat d x lo len).camSq = d.camSq := rfl
@[simp] theorem incRegSat_sieves : (incRegSat d x lo len).sieves = d.sieves := rfl
@[simp] theorem incRegSat_mem : (incRegSat d x lo len).mem = d.mem := rfl
@[simp] theorem incRegSat_poison : (incRegSat d x lo len).poison = d.poison := rfl
@[simp] theorem incRegSat_flips : (incRegSat d x lo len).flips = d.flips := rfl
@[simp] theorem incRegSat_galFlips : (incRegSat d x lo len).galFlips = d.galFlips := rfl
@[simp] theorem incRegSat_waits : (incRegSat d x lo len).waits = d.waits := rfl
@[simp] theorem incRegSat_chans : (incRegSat d x lo len).chans = d.chans := rfl
@[simp] theorem incRegSat_mirrors : (incRegSat d x lo len).mirrors = d.mirrors := rfl
@[simp] theorem incRegSat_harts : (incRegSat d x lo len).harts = d.harts := rfl
@[simp] theorem incRegSat_packageIdle : (incRegSat d x lo len).packageIdle = d.packageIdle := rfl
@[simp] theorem incRegSat_hup : (incRegSat d x lo len).hup = d.hup := rfl
@[simp] theorem incRegSat_queues : (incRegSat d x lo len).queues = d.queues := rfl
@[simp] theorem incRegSat_accepted : (incRegSat d x lo len).accepted = d.accepted := rfl
@[simp] theorem incRegSat_ledger : (incRegSat d x lo len).ledger = d.ledger := rfl
@[simp] theorem incRegSat_pager : (incRegSat d x lo len).pager = d.pager := rfl
@[simp] theorem incRegSat_parts : (incRegSat d x lo len).parts = d.parts := rfl
@[simp] theorem incRegSat_codecs : (incRegSat d x lo len).codecs = d.codecs := rfl
@[simp] theorem incRegSat_slots : (incRegSat d x lo len).slots = d.slots := rfl
@[simp] theorem incRegSat_warden : (incRegSat d x lo len).warden = d.warden := rfl
@[simp] theorem incRegSat_ras : (incRegSat d x lo len).ras = d.ras := rfl
@[simp] theorem incRegSat_life : (incRegSat d x lo len).life = d.life := rfl
@[simp] theorem incRegSat_mesh : (incRegSat d x lo len).mesh = d.mesh := rfl
@[simp] theorem incRegSat_pkg : (incRegSat d x lo len).pkg = d.pkg := rfl
@[simp] theorem incRegSat_readBack : (incRegSat d x lo len).readBack = d.readBack := rfl
end

section
variable (d : Device) (f : BeatGen → BeatGen)
@[simp] theorem updBeat_phase : (updBeat d f).phase = d.phase := rfl
@[simp] theorem updBeat_cycle : (updBeat d f).cycle = d.cycle := rfl
@[simp] theorem updBeat_freeCount : (updBeat d f).freeCount = d.freeCount := rfl
@[simp] theorem updBeat_regs : (updBeat d f).regs = d.regs := rfl
@[simp] theorem updBeat_engines : (updBeat d f).engines = d.engines := rfl
@[simp] theorem updBeat_sched : (updBeat d f).sched = d.sched := rfl
@[simp] theorem updBeat_mez : (updBeat d f).mez = d.mez := rfl
@[simp] theorem updBeat_gal : (updBeat d f).gal = d.gal := rfl
@[simp] theorem updBeat_banks : (updBeat d f).banks = d.banks := rfl
@[simp] theorem updBeat_camSq : (updBeat d f).camSq = d.camSq := rfl
@[simp] theorem updBeat_sieves : (updBeat d f).sieves = d.sieves := rfl
@[simp] theorem updBeat_mem : (updBeat d f).mem = d.mem := rfl
@[simp] theorem updBeat_poison : (updBeat d f).poison = d.poison := rfl
@[simp] theorem updBeat_flips : (updBeat d f).flips = d.flips := rfl
@[simp] theorem updBeat_galFlips : (updBeat d f).galFlips = d.galFlips := rfl
@[simp] theorem updBeat_waits : (updBeat d f).waits = d.waits := rfl
@[simp] theorem updBeat_chans : (updBeat d f).chans = d.chans := rfl
@[simp] theorem updBeat_mirrors : (updBeat d f).mirrors = d.mirrors := rfl
@[simp] theorem updBeat_harts : (updBeat d f).harts = d.harts := rfl
@[simp] theorem updBeat_packageIdle : (updBeat d f).packageIdle = d.packageIdle := rfl
@[simp] theorem updBeat_hup : (updBeat d f).hup = d.hup := rfl
@[simp] theorem updBeat_queues : (updBeat d f).queues = d.queues := rfl
@[simp] theorem updBeat_accepted : (updBeat d f).accepted = d.accepted := rfl
@[simp] theorem updBeat_ledger : (updBeat d f).ledger = d.ledger := rfl
@[simp] theorem updBeat_pager : (updBeat d f).pager = d.pager := rfl
@[simp] theorem updBeat_parts : (updBeat d f).parts = d.parts := rfl
@[simp] theorem updBeat_codecs : (updBeat d f).codecs = d.codecs := rfl
@[simp] theorem updBeat_slots : (updBeat d f).slots = d.slots := rfl
@[simp] theorem updBeat_warden : (updBeat d f).warden = d.warden := rfl
@[simp] theorem updBeat_ras : (updBeat d f).ras = d.ras := rfl
@[simp] theorem updBeat_life : (updBeat d f).life = d.life := rfl
@[simp] theorem updBeat_mesh : (updBeat d f).mesh = d.mesh := rfl
@[simp] theorem updBeat_pkg : (updBeat d f).pkg = d.pkg := rfl
@[simp] theorem updBeat_readBack : (updBeat d f).readBack = d.readBack := rfl
@[simp] theorem updBeat_beat : (updBeat d f).beat = f d.beat := rfl
end

section
variable (d : Device) (f : Sched → Sched)
@[simp] theorem updSched_phase : (updSched d f).phase = d.phase := rfl
@[simp] theorem updSched_cycle : (updSched d f).cycle = d.cycle := rfl
@[simp] theorem updSched_freeCount : (updSched d f).freeCount = d.freeCount := rfl
@[simp] theorem updSched_regs : (updSched d f).regs = d.regs := rfl
@[simp] theorem updSched_beat : (updSched d f).beat = d.beat := rfl
@[simp] theorem updSched_engines : (updSched d f).engines = d.engines := rfl
@[simp] theorem updSched_mez : (updSched d f).mez = d.mez := rfl
@[simp] theorem updSched_gal : (updSched d f).gal = d.gal := rfl
@[simp] theorem updSched_banks : (updSched d f).banks = d.banks := rfl
@[simp] theorem updSched_camSq : (updSched d f).camSq = d.camSq := rfl
@[simp] theorem updSched_sieves : (updSched d f).sieves = d.sieves := rfl
@[simp] theorem updSched_mem : (updSched d f).mem = d.mem := rfl
@[simp] theorem updSched_poison : (updSched d f).poison = d.poison := rfl
@[simp] theorem updSched_flips : (updSched d f).flips = d.flips := rfl
@[simp] theorem updSched_galFlips : (updSched d f).galFlips = d.galFlips := rfl
@[simp] theorem updSched_waits : (updSched d f).waits = d.waits := rfl
@[simp] theorem updSched_chans : (updSched d f).chans = d.chans := rfl
@[simp] theorem updSched_mirrors : (updSched d f).mirrors = d.mirrors := rfl
@[simp] theorem updSched_harts : (updSched d f).harts = d.harts := rfl
@[simp] theorem updSched_packageIdle : (updSched d f).packageIdle = d.packageIdle := rfl
@[simp] theorem updSched_hup : (updSched d f).hup = d.hup := rfl
@[simp] theorem updSched_queues : (updSched d f).queues = d.queues := rfl
@[simp] theorem updSched_accepted : (updSched d f).accepted = d.accepted := rfl
@[simp] theorem updSched_ledger : (updSched d f).ledger = d.ledger := rfl
@[simp] theorem updSched_pager : (updSched d f).pager = d.pager := rfl
@[simp] theorem updSched_parts : (updSched d f).parts = d.parts := rfl
@[simp] theorem updSched_codecs : (updSched d f).codecs = d.codecs := rfl
@[simp] theorem updSched_slots : (updSched d f).slots = d.slots := rfl
@[simp] theorem updSched_warden : (updSched d f).warden = d.warden := rfl
@[simp] theorem updSched_ras : (updSched d f).ras = d.ras := rfl
@[simp] theorem updSched_life : (updSched d f).life = d.life := rfl
@[simp] theorem updSched_mesh : (updSched d f).mesh = d.mesh := rfl
@[simp] theorem updSched_pkg : (updSched d f).pkg = d.pkg := rfl
@[simp] theorem updSched_readBack : (updSched d f).readBack = d.readBack := rfl
@[simp] theorem updSched_sched : (updSched d f).sched = f d.sched := rfl
end

section
variable (d : Device) (t : Tile) (f : Mez → Mez)
@[simp] theorem updMez_phase : (updMez d t f).phase = d.phase := rfl
@[simp] theorem updMez_cycle : (updMez d t f).cycle = d.cycle := rfl
@[simp] theorem updMez_freeCount : (updMez d t f).freeCount = d.freeCount := rfl
@[simp] theorem updMez_regs : (updMez d t f).regs = d.regs := rfl
@[simp] theorem updMez_beat : (updMez d t f).beat = d.beat := rfl
@[simp] theorem updMez_engines : (updMez d t f).engines = d.engines := rfl
@[simp] theorem updMez_sched : (updMez d t f).sched = d.sched := rfl
@[simp] theorem updMez_gal : (updMez d t f).gal = d.gal := rfl
@[simp] theorem updMez_banks : (updMez d t f).banks = d.banks := rfl
@[simp] theorem updMez_camSq : (updMez d t f).camSq = d.camSq := rfl
@[simp] theorem updMez_sieves : (updMez d t f).sieves = d.sieves := rfl
@[simp] theorem updMez_mem : (updMez d t f).mem = d.mem := rfl
@[simp] theorem updMez_poison : (updMez d t f).poison = d.poison := rfl
@[simp] theorem updMez_flips : (updMez d t f).flips = d.flips := rfl
@[simp] theorem updMez_galFlips : (updMez d t f).galFlips = d.galFlips := rfl
@[simp] theorem updMez_waits : (updMez d t f).waits = d.waits := rfl
@[simp] theorem updMez_chans : (updMez d t f).chans = d.chans := rfl
@[simp] theorem updMez_mirrors : (updMez d t f).mirrors = d.mirrors := rfl
@[simp] theorem updMez_harts : (updMez d t f).harts = d.harts := rfl
@[simp] theorem updMez_packageIdle : (updMez d t f).packageIdle = d.packageIdle := rfl
@[simp] theorem updMez_hup : (updMez d t f).hup = d.hup := rfl
@[simp] theorem updMez_queues : (updMez d t f).queues = d.queues := rfl
@[simp] theorem updMez_accepted : (updMez d t f).accepted = d.accepted := rfl
@[simp] theorem updMez_ledger : (updMez d t f).ledger = d.ledger := rfl
@[simp] theorem updMez_pager : (updMez d t f).pager = d.pager := rfl
@[simp] theorem updMez_parts : (updMez d t f).parts = d.parts := rfl
@[simp] theorem updMez_codecs : (updMez d t f).codecs = d.codecs := rfl
@[simp] theorem updMez_slots : (updMez d t f).slots = d.slots := rfl
@[simp] theorem updMez_warden : (updMez d t f).warden = d.warden := rfl
@[simp] theorem updMez_ras : (updMez d t f).ras = d.ras := rfl
@[simp] theorem updMez_life : (updMez d t f).life = d.life := rfl
@[simp] theorem updMez_mesh : (updMez d t f).mesh = d.mesh := rfl
@[simp] theorem updMez_pkg : (updMez d t f).pkg = d.pkg := rfl
@[simp] theorem updMez_readBack : (updMez d t f).readBack = d.readBack := rfl
@[simp] theorem updMez_self : (updMez d t f).mez[t.val] = f d.mez[t.val] := by simp [updMez]
theorem updMez_of_ne {other : Tile} (ne : other ≠ t) : (updMez d t f).mez[other] = d.mez[other] := by
  have : t.val ≠ other.val := fun same => ne (Fin.ext same.symm)
  simp [updMez, this]
end

section
variable (d : Device) (t : Tile) (f : Gallery → Gallery)
@[simp] theorem updGal_phase : (updGal d t f).phase = d.phase := rfl
@[simp] theorem updGal_cycle : (updGal d t f).cycle = d.cycle := rfl
@[simp] theorem updGal_freeCount : (updGal d t f).freeCount = d.freeCount := rfl
@[simp] theorem updGal_regs : (updGal d t f).regs = d.regs := rfl
@[simp] theorem updGal_beat : (updGal d t f).beat = d.beat := rfl
@[simp] theorem updGal_engines : (updGal d t f).engines = d.engines := rfl
@[simp] theorem updGal_sched : (updGal d t f).sched = d.sched := rfl
@[simp] theorem updGal_mez : (updGal d t f).mez = d.mez := rfl
@[simp] theorem updGal_banks : (updGal d t f).banks = d.banks := rfl
@[simp] theorem updGal_camSq : (updGal d t f).camSq = d.camSq := rfl
@[simp] theorem updGal_sieves : (updGal d t f).sieves = d.sieves := rfl
@[simp] theorem updGal_mem : (updGal d t f).mem = d.mem := rfl
@[simp] theorem updGal_poison : (updGal d t f).poison = d.poison := rfl
@[simp] theorem updGal_flips : (updGal d t f).flips = d.flips := rfl
@[simp] theorem updGal_galFlips : (updGal d t f).galFlips = d.galFlips := rfl
@[simp] theorem updGal_waits : (updGal d t f).waits = d.waits := rfl
@[simp] theorem updGal_chans : (updGal d t f).chans = d.chans := rfl
@[simp] theorem updGal_mirrors : (updGal d t f).mirrors = d.mirrors := rfl
@[simp] theorem updGal_harts : (updGal d t f).harts = d.harts := rfl
@[simp] theorem updGal_packageIdle : (updGal d t f).packageIdle = d.packageIdle := rfl
@[simp] theorem updGal_hup : (updGal d t f).hup = d.hup := rfl
@[simp] theorem updGal_queues : (updGal d t f).queues = d.queues := rfl
@[simp] theorem updGal_accepted : (updGal d t f).accepted = d.accepted := rfl
@[simp] theorem updGal_ledger : (updGal d t f).ledger = d.ledger := rfl
@[simp] theorem updGal_pager : (updGal d t f).pager = d.pager := rfl
@[simp] theorem updGal_parts : (updGal d t f).parts = d.parts := rfl
@[simp] theorem updGal_codecs : (updGal d t f).codecs = d.codecs := rfl
@[simp] theorem updGal_slots : (updGal d t f).slots = d.slots := rfl
@[simp] theorem updGal_warden : (updGal d t f).warden = d.warden := rfl
@[simp] theorem updGal_ras : (updGal d t f).ras = d.ras := rfl
@[simp] theorem updGal_life : (updGal d t f).life = d.life := rfl
@[simp] theorem updGal_mesh : (updGal d t f).mesh = d.mesh := rfl
@[simp] theorem updGal_pkg : (updGal d t f).pkg = d.pkg := rfl
@[simp] theorem updGal_readBack : (updGal d t f).readBack = d.readBack := rfl
@[simp] theorem updGal_self : (updGal d t f).gal[t.val] = f d.gal[t.val] := by simp [updGal]
theorem updGal_of_ne {other : Tile} (ne : other ≠ t) : (updGal d t f).gal[other] = d.gal[other] := by
  have : t.val ≠ other.val := fun same => ne (Fin.ext same.symm)
  simp [updGal, this]
end

section
variable (d : Device) (b : Bank) (f : CamBank → CamBank)
@[simp] theorem updBank_phase : (updBank d b f).phase = d.phase := rfl
@[simp] theorem updBank_cycle : (updBank d b f).cycle = d.cycle := rfl
@[simp] theorem updBank_freeCount : (updBank d b f).freeCount = d.freeCount := rfl
@[simp] theorem updBank_regs : (updBank d b f).regs = d.regs := rfl
@[simp] theorem updBank_beat : (updBank d b f).beat = d.beat := rfl
@[simp] theorem updBank_engines : (updBank d b f).engines = d.engines := rfl
@[simp] theorem updBank_sched : (updBank d b f).sched = d.sched := rfl
@[simp] theorem updBank_mez : (updBank d b f).mez = d.mez := rfl
@[simp] theorem updBank_gal : (updBank d b f).gal = d.gal := rfl
@[simp] theorem updBank_camSq : (updBank d b f).camSq = d.camSq := rfl
@[simp] theorem updBank_sieves : (updBank d b f).sieves = d.sieves := rfl
@[simp] theorem updBank_mem : (updBank d b f).mem = d.mem := rfl
@[simp] theorem updBank_poison : (updBank d b f).poison = d.poison := rfl
@[simp] theorem updBank_flips : (updBank d b f).flips = d.flips := rfl
@[simp] theorem updBank_galFlips : (updBank d b f).galFlips = d.galFlips := rfl
@[simp] theorem updBank_waits : (updBank d b f).waits = d.waits := rfl
@[simp] theorem updBank_chans : (updBank d b f).chans = d.chans := rfl
@[simp] theorem updBank_mirrors : (updBank d b f).mirrors = d.mirrors := rfl
@[simp] theorem updBank_harts : (updBank d b f).harts = d.harts := rfl
@[simp] theorem updBank_packageIdle : (updBank d b f).packageIdle = d.packageIdle := rfl
@[simp] theorem updBank_hup : (updBank d b f).hup = d.hup := rfl
@[simp] theorem updBank_queues : (updBank d b f).queues = d.queues := rfl
@[simp] theorem updBank_accepted : (updBank d b f).accepted = d.accepted := rfl
@[simp] theorem updBank_ledger : (updBank d b f).ledger = d.ledger := rfl
@[simp] theorem updBank_pager : (updBank d b f).pager = d.pager := rfl
@[simp] theorem updBank_parts : (updBank d b f).parts = d.parts := rfl
@[simp] theorem updBank_codecs : (updBank d b f).codecs = d.codecs := rfl
@[simp] theorem updBank_slots : (updBank d b f).slots = d.slots := rfl
@[simp] theorem updBank_warden : (updBank d b f).warden = d.warden := rfl
@[simp] theorem updBank_ras : (updBank d b f).ras = d.ras := rfl
@[simp] theorem updBank_life : (updBank d b f).life = d.life := rfl
@[simp] theorem updBank_mesh : (updBank d b f).mesh = d.mesh := rfl
@[simp] theorem updBank_pkg : (updBank d b f).pkg = d.pkg := rfl
@[simp] theorem updBank_readBack : (updBank d b f).readBack = d.readBack := rfl
@[simp] theorem updBank_self : (updBank d b f).banks[b.val] = f d.banks[b.val] := by simp [updBank]
theorem updBank_of_ne {other : Bank} (ne : other ≠ b) : (updBank d b f).banks[other] = d.banks[other] := by
  have : b.val ≠ other.val := fun same => ne (Fin.ext same.symm)
  simp [updBank, this]
end

section
variable (d : Device) (t : Tile) (f : CamSquare → CamSquare)
@[simp] theorem updCamSq_phase : (updCamSq d t f).phase = d.phase := rfl
@[simp] theorem updCamSq_cycle : (updCamSq d t f).cycle = d.cycle := rfl
@[simp] theorem updCamSq_freeCount : (updCamSq d t f).freeCount = d.freeCount := rfl
@[simp] theorem updCamSq_regs : (updCamSq d t f).regs = d.regs := rfl
@[simp] theorem updCamSq_beat : (updCamSq d t f).beat = d.beat := rfl
@[simp] theorem updCamSq_engines : (updCamSq d t f).engines = d.engines := rfl
@[simp] theorem updCamSq_sched : (updCamSq d t f).sched = d.sched := rfl
@[simp] theorem updCamSq_mez : (updCamSq d t f).mez = d.mez := rfl
@[simp] theorem updCamSq_gal : (updCamSq d t f).gal = d.gal := rfl
@[simp] theorem updCamSq_banks : (updCamSq d t f).banks = d.banks := rfl
@[simp] theorem updCamSq_sieves : (updCamSq d t f).sieves = d.sieves := rfl
@[simp] theorem updCamSq_mem : (updCamSq d t f).mem = d.mem := rfl
@[simp] theorem updCamSq_poison : (updCamSq d t f).poison = d.poison := rfl
@[simp] theorem updCamSq_flips : (updCamSq d t f).flips = d.flips := rfl
@[simp] theorem updCamSq_galFlips : (updCamSq d t f).galFlips = d.galFlips := rfl
@[simp] theorem updCamSq_waits : (updCamSq d t f).waits = d.waits := rfl
@[simp] theorem updCamSq_chans : (updCamSq d t f).chans = d.chans := rfl
@[simp] theorem updCamSq_mirrors : (updCamSq d t f).mirrors = d.mirrors := rfl
@[simp] theorem updCamSq_harts : (updCamSq d t f).harts = d.harts := rfl
@[simp] theorem updCamSq_packageIdle : (updCamSq d t f).packageIdle = d.packageIdle := rfl
@[simp] theorem updCamSq_hup : (updCamSq d t f).hup = d.hup := rfl
@[simp] theorem updCamSq_queues : (updCamSq d t f).queues = d.queues := rfl
@[simp] theorem updCamSq_accepted : (updCamSq d t f).accepted = d.accepted := rfl
@[simp] theorem updCamSq_ledger : (updCamSq d t f).ledger = d.ledger := rfl
@[simp] theorem updCamSq_pager : (updCamSq d t f).pager = d.pager := rfl
@[simp] theorem updCamSq_parts : (updCamSq d t f).parts = d.parts := rfl
@[simp] theorem updCamSq_codecs : (updCamSq d t f).codecs = d.codecs := rfl
@[simp] theorem updCamSq_slots : (updCamSq d t f).slots = d.slots := rfl
@[simp] theorem updCamSq_warden : (updCamSq d t f).warden = d.warden := rfl
@[simp] theorem updCamSq_ras : (updCamSq d t f).ras = d.ras := rfl
@[simp] theorem updCamSq_life : (updCamSq d t f).life = d.life := rfl
@[simp] theorem updCamSq_mesh : (updCamSq d t f).mesh = d.mesh := rfl
@[simp] theorem updCamSq_pkg : (updCamSq d t f).pkg = d.pkg := rfl
@[simp] theorem updCamSq_readBack : (updCamSq d t f).readBack = d.readBack := rfl
@[simp] theorem updCamSq_self : (updCamSq d t f).camSq[t.val] = f d.camSq[t.val] := by simp [updCamSq]
theorem updCamSq_of_ne {other : Tile} (ne : other ≠ t) : (updCamSq d t f).camSq[other] = d.camSq[other] := by
  have : t.val ≠ other.val := fun same => ne (Fin.ext same.symm)
  simp [updCamSq, this]
end

section
variable (d : Device) (c : Chan) (f : Sieve → Sieve)
@[simp] theorem updSieve_phase : (updSieve d c f).phase = d.phase := rfl
@[simp] theorem updSieve_cycle : (updSieve d c f).cycle = d.cycle := rfl
@[simp] theorem updSieve_freeCount : (updSieve d c f).freeCount = d.freeCount := rfl
@[simp] theorem updSieve_regs : (updSieve d c f).regs = d.regs := rfl
@[simp] theorem updSieve_beat : (updSieve d c f).beat = d.beat := rfl
@[simp] theorem updSieve_engines : (updSieve d c f).engines = d.engines := rfl
@[simp] theorem updSieve_sched : (updSieve d c f).sched = d.sched := rfl
@[simp] theorem updSieve_mez : (updSieve d c f).mez = d.mez := rfl
@[simp] theorem updSieve_gal : (updSieve d c f).gal = d.gal := rfl
@[simp] theorem updSieve_banks : (updSieve d c f).banks = d.banks := rfl
@[simp] theorem updSieve_camSq : (updSieve d c f).camSq = d.camSq := rfl
@[simp] theorem updSieve_mem : (updSieve d c f).mem = d.mem := rfl
@[simp] theorem updSieve_poison : (updSieve d c f).poison = d.poison := rfl
@[simp] theorem updSieve_flips : (updSieve d c f).flips = d.flips := rfl
@[simp] theorem updSieve_galFlips : (updSieve d c f).galFlips = d.galFlips := rfl
@[simp] theorem updSieve_waits : (updSieve d c f).waits = d.waits := rfl
@[simp] theorem updSieve_chans : (updSieve d c f).chans = d.chans := rfl
@[simp] theorem updSieve_mirrors : (updSieve d c f).mirrors = d.mirrors := rfl
@[simp] theorem updSieve_harts : (updSieve d c f).harts = d.harts := rfl
@[simp] theorem updSieve_packageIdle : (updSieve d c f).packageIdle = d.packageIdle := rfl
@[simp] theorem updSieve_hup : (updSieve d c f).hup = d.hup := rfl
@[simp] theorem updSieve_queues : (updSieve d c f).queues = d.queues := rfl
@[simp] theorem updSieve_accepted : (updSieve d c f).accepted = d.accepted := rfl
@[simp] theorem updSieve_ledger : (updSieve d c f).ledger = d.ledger := rfl
@[simp] theorem updSieve_pager : (updSieve d c f).pager = d.pager := rfl
@[simp] theorem updSieve_parts : (updSieve d c f).parts = d.parts := rfl
@[simp] theorem updSieve_codecs : (updSieve d c f).codecs = d.codecs := rfl
@[simp] theorem updSieve_slots : (updSieve d c f).slots = d.slots := rfl
@[simp] theorem updSieve_warden : (updSieve d c f).warden = d.warden := rfl
@[simp] theorem updSieve_ras : (updSieve d c f).ras = d.ras := rfl
@[simp] theorem updSieve_life : (updSieve d c f).life = d.life := rfl
@[simp] theorem updSieve_mesh : (updSieve d c f).mesh = d.mesh := rfl
@[simp] theorem updSieve_pkg : (updSieve d c f).pkg = d.pkg := rfl
@[simp] theorem updSieve_readBack : (updSieve d c f).readBack = d.readBack := rfl
@[simp] theorem updSieve_self : (updSieve d c f).sieves[c.val] = f d.sieves[c.val] := by simp [updSieve]
theorem updSieve_of_ne {other : Chan} (ne : other ≠ c) : (updSieve d c f).sieves[other] = d.sieves[other] := by
  have : c.val ≠ other.val := fun same => ne (Fin.ext same.symm)
  simp [updSieve, this]
end

section
variable (d : Device) (c : Chan) (f : Channel → Channel)
@[simp] theorem updChan_phase : (updChan d c f).phase = d.phase := rfl
@[simp] theorem updChan_cycle : (updChan d c f).cycle = d.cycle := rfl
@[simp] theorem updChan_freeCount : (updChan d c f).freeCount = d.freeCount := rfl
@[simp] theorem updChan_regs : (updChan d c f).regs = d.regs := rfl
@[simp] theorem updChan_beat : (updChan d c f).beat = d.beat := rfl
@[simp] theorem updChan_engines : (updChan d c f).engines = d.engines := rfl
@[simp] theorem updChan_sched : (updChan d c f).sched = d.sched := rfl
@[simp] theorem updChan_mez : (updChan d c f).mez = d.mez := rfl
@[simp] theorem updChan_gal : (updChan d c f).gal = d.gal := rfl
@[simp] theorem updChan_banks : (updChan d c f).banks = d.banks := rfl
@[simp] theorem updChan_camSq : (updChan d c f).camSq = d.camSq := rfl
@[simp] theorem updChan_sieves : (updChan d c f).sieves = d.sieves := rfl
@[simp] theorem updChan_mem : (updChan d c f).mem = d.mem := rfl
@[simp] theorem updChan_poison : (updChan d c f).poison = d.poison := rfl
@[simp] theorem updChan_flips : (updChan d c f).flips = d.flips := rfl
@[simp] theorem updChan_galFlips : (updChan d c f).galFlips = d.galFlips := rfl
@[simp] theorem updChan_waits : (updChan d c f).waits = d.waits := rfl
@[simp] theorem updChan_mirrors : (updChan d c f).mirrors = d.mirrors := rfl
@[simp] theorem updChan_harts : (updChan d c f).harts = d.harts := rfl
@[simp] theorem updChan_packageIdle : (updChan d c f).packageIdle = d.packageIdle := rfl
@[simp] theorem updChan_hup : (updChan d c f).hup = d.hup := rfl
@[simp] theorem updChan_queues : (updChan d c f).queues = d.queues := rfl
@[simp] theorem updChan_accepted : (updChan d c f).accepted = d.accepted := rfl
@[simp] theorem updChan_ledger : (updChan d c f).ledger = d.ledger := rfl
@[simp] theorem updChan_pager : (updChan d c f).pager = d.pager := rfl
@[simp] theorem updChan_parts : (updChan d c f).parts = d.parts := rfl
@[simp] theorem updChan_codecs : (updChan d c f).codecs = d.codecs := rfl
@[simp] theorem updChan_slots : (updChan d c f).slots = d.slots := rfl
@[simp] theorem updChan_warden : (updChan d c f).warden = d.warden := rfl
@[simp] theorem updChan_ras : (updChan d c f).ras = d.ras := rfl
@[simp] theorem updChan_life : (updChan d c f).life = d.life := rfl
@[simp] theorem updChan_mesh : (updChan d c f).mesh = d.mesh := rfl
@[simp] theorem updChan_pkg : (updChan d c f).pkg = d.pkg := rfl
@[simp] theorem updChan_readBack : (updChan d c f).readBack = d.readBack := rfl
@[simp] theorem updChan_self : (updChan d c f).chans[c.val] = f d.chans[c.val] := by simp [updChan]
theorem updChan_of_ne {other : Chan} (ne : other ≠ c) : (updChan d c f).chans[other] = d.chans[other] := by
  have : c.val ≠ other.val := fun same => ne (Fin.ext same.symm)
  simp [updChan, this]
end

section
variable (d : Device) (h : Hart) (f : HartState → HartState)
@[simp] theorem updHart_phase : (updHart d h f).phase = d.phase := rfl
@[simp] theorem updHart_cycle : (updHart d h f).cycle = d.cycle := rfl
@[simp] theorem updHart_freeCount : (updHart d h f).freeCount = d.freeCount := rfl
@[simp] theorem updHart_regs : (updHart d h f).regs = d.regs := rfl
@[simp] theorem updHart_beat : (updHart d h f).beat = d.beat := rfl
@[simp] theorem updHart_engines : (updHart d h f).engines = d.engines := rfl
@[simp] theorem updHart_sched : (updHart d h f).sched = d.sched := rfl
@[simp] theorem updHart_mez : (updHart d h f).mez = d.mez := rfl
@[simp] theorem updHart_gal : (updHart d h f).gal = d.gal := rfl
@[simp] theorem updHart_banks : (updHart d h f).banks = d.banks := rfl
@[simp] theorem updHart_camSq : (updHart d h f).camSq = d.camSq := rfl
@[simp] theorem updHart_sieves : (updHart d h f).sieves = d.sieves := rfl
@[simp] theorem updHart_mem : (updHart d h f).mem = d.mem := rfl
@[simp] theorem updHart_poison : (updHart d h f).poison = d.poison := rfl
@[simp] theorem updHart_flips : (updHart d h f).flips = d.flips := rfl
@[simp] theorem updHart_galFlips : (updHart d h f).galFlips = d.galFlips := rfl
@[simp] theorem updHart_waits : (updHart d h f).waits = d.waits := rfl
@[simp] theorem updHart_chans : (updHart d h f).chans = d.chans := rfl
@[simp] theorem updHart_mirrors : (updHart d h f).mirrors = d.mirrors := rfl
@[simp] theorem updHart_packageIdle : (updHart d h f).packageIdle = d.packageIdle := rfl
@[simp] theorem updHart_hup : (updHart d h f).hup = d.hup := rfl
@[simp] theorem updHart_queues : (updHart d h f).queues = d.queues := rfl
@[simp] theorem updHart_accepted : (updHart d h f).accepted = d.accepted := rfl
@[simp] theorem updHart_ledger : (updHart d h f).ledger = d.ledger := rfl
@[simp] theorem updHart_pager : (updHart d h f).pager = d.pager := rfl
@[simp] theorem updHart_parts : (updHart d h f).parts = d.parts := rfl
@[simp] theorem updHart_codecs : (updHart d h f).codecs = d.codecs := rfl
@[simp] theorem updHart_slots : (updHart d h f).slots = d.slots := rfl
@[simp] theorem updHart_warden : (updHart d h f).warden = d.warden := rfl
@[simp] theorem updHart_ras : (updHart d h f).ras = d.ras := rfl
@[simp] theorem updHart_life : (updHart d h f).life = d.life := rfl
@[simp] theorem updHart_mesh : (updHart d h f).mesh = d.mesh := rfl
@[simp] theorem updHart_pkg : (updHart d h f).pkg = d.pkg := rfl
@[simp] theorem updHart_readBack : (updHart d h f).readBack = d.readBack := rfl
@[simp] theorem updHart_self : (updHart d h f).harts[h.val] = f d.harts[h.val] := by simp [updHart]
theorem updHart_of_ne {other : Hart} (ne : other ≠ h) : (updHart d h f).harts[other] = d.harts[other] := by
  have : h.val ≠ other.val := fun same => ne (Fin.ext same.symm)
  simp [updHart, this]
end

section
variable (d : Device) (f : Holdup → Holdup)
@[simp] theorem updHup_phase : (updHup d f).phase = d.phase := rfl
@[simp] theorem updHup_cycle : (updHup d f).cycle = d.cycle := rfl
@[simp] theorem updHup_freeCount : (updHup d f).freeCount = d.freeCount := rfl
@[simp] theorem updHup_regs : (updHup d f).regs = d.regs := rfl
@[simp] theorem updHup_beat : (updHup d f).beat = d.beat := rfl
@[simp] theorem updHup_engines : (updHup d f).engines = d.engines := rfl
@[simp] theorem updHup_sched : (updHup d f).sched = d.sched := rfl
@[simp] theorem updHup_mez : (updHup d f).mez = d.mez := rfl
@[simp] theorem updHup_gal : (updHup d f).gal = d.gal := rfl
@[simp] theorem updHup_banks : (updHup d f).banks = d.banks := rfl
@[simp] theorem updHup_camSq : (updHup d f).camSq = d.camSq := rfl
@[simp] theorem updHup_sieves : (updHup d f).sieves = d.sieves := rfl
@[simp] theorem updHup_mem : (updHup d f).mem = d.mem := rfl
@[simp] theorem updHup_poison : (updHup d f).poison = d.poison := rfl
@[simp] theorem updHup_flips : (updHup d f).flips = d.flips := rfl
@[simp] theorem updHup_galFlips : (updHup d f).galFlips = d.galFlips := rfl
@[simp] theorem updHup_waits : (updHup d f).waits = d.waits := rfl
@[simp] theorem updHup_chans : (updHup d f).chans = d.chans := rfl
@[simp] theorem updHup_mirrors : (updHup d f).mirrors = d.mirrors := rfl
@[simp] theorem updHup_harts : (updHup d f).harts = d.harts := rfl
@[simp] theorem updHup_packageIdle : (updHup d f).packageIdle = d.packageIdle := rfl
@[simp] theorem updHup_queues : (updHup d f).queues = d.queues := rfl
@[simp] theorem updHup_accepted : (updHup d f).accepted = d.accepted := rfl
@[simp] theorem updHup_ledger : (updHup d f).ledger = d.ledger := rfl
@[simp] theorem updHup_pager : (updHup d f).pager = d.pager := rfl
@[simp] theorem updHup_parts : (updHup d f).parts = d.parts := rfl
@[simp] theorem updHup_codecs : (updHup d f).codecs = d.codecs := rfl
@[simp] theorem updHup_slots : (updHup d f).slots = d.slots := rfl
@[simp] theorem updHup_warden : (updHup d f).warden = d.warden := rfl
@[simp] theorem updHup_ras : (updHup d f).ras = d.ras := rfl
@[simp] theorem updHup_life : (updHup d f).life = d.life := rfl
@[simp] theorem updHup_mesh : (updHup d f).mesh = d.mesh := rfl
@[simp] theorem updHup_pkg : (updHup d f).pkg = d.pkg := rfl
@[simp] theorem updHup_readBack : (updHup d f).readBack = d.readBack := rfl
@[simp] theorem updHup_hup : (updHup d f).hup = f d.hup := rfl
end

section
variable (d : Device) (p : Part) (q : QueueId) (f : Queue → Queue)
@[simp] theorem updQueue_phase : (updQueue d p q f).phase = d.phase := rfl
@[simp] theorem updQueue_cycle : (updQueue d p q f).cycle = d.cycle := rfl
@[simp] theorem updQueue_freeCount : (updQueue d p q f).freeCount = d.freeCount := rfl
@[simp] theorem updQueue_regs : (updQueue d p q f).regs = d.regs := rfl
@[simp] theorem updQueue_beat : (updQueue d p q f).beat = d.beat := rfl
@[simp] theorem updQueue_engines : (updQueue d p q f).engines = d.engines := rfl
@[simp] theorem updQueue_sched : (updQueue d p q f).sched = d.sched := rfl
@[simp] theorem updQueue_mez : (updQueue d p q f).mez = d.mez := rfl
@[simp] theorem updQueue_gal : (updQueue d p q f).gal = d.gal := rfl
@[simp] theorem updQueue_banks : (updQueue d p q f).banks = d.banks := rfl
@[simp] theorem updQueue_camSq : (updQueue d p q f).camSq = d.camSq := rfl
@[simp] theorem updQueue_sieves : (updQueue d p q f).sieves = d.sieves := rfl
@[simp] theorem updQueue_mem : (updQueue d p q f).mem = d.mem := rfl
@[simp] theorem updQueue_poison : (updQueue d p q f).poison = d.poison := rfl
@[simp] theorem updQueue_flips : (updQueue d p q f).flips = d.flips := rfl
@[simp] theorem updQueue_galFlips : (updQueue d p q f).galFlips = d.galFlips := rfl
@[simp] theorem updQueue_waits : (updQueue d p q f).waits = d.waits := rfl
@[simp] theorem updQueue_chans : (updQueue d p q f).chans = d.chans := rfl
@[simp] theorem updQueue_mirrors : (updQueue d p q f).mirrors = d.mirrors := rfl
@[simp] theorem updQueue_harts : (updQueue d p q f).harts = d.harts := rfl
@[simp] theorem updQueue_packageIdle : (updQueue d p q f).packageIdle = d.packageIdle := rfl
@[simp] theorem updQueue_hup : (updQueue d p q f).hup = d.hup := rfl
@[simp] theorem updQueue_accepted : (updQueue d p q f).accepted = d.accepted := rfl
@[simp] theorem updQueue_ledger : (updQueue d p q f).ledger = d.ledger := rfl
@[simp] theorem updQueue_pager : (updQueue d p q f).pager = d.pager := rfl
@[simp] theorem updQueue_parts : (updQueue d p q f).parts = d.parts := rfl
@[simp] theorem updQueue_codecs : (updQueue d p q f).codecs = d.codecs := rfl
@[simp] theorem updQueue_slots : (updQueue d p q f).slots = d.slots := rfl
@[simp] theorem updQueue_warden : (updQueue d p q f).warden = d.warden := rfl
@[simp] theorem updQueue_ras : (updQueue d p q f).ras = d.ras := rfl
@[simp] theorem updQueue_life : (updQueue d p q f).life = d.life := rfl
@[simp] theorem updQueue_mesh : (updQueue d p q f).mesh = d.mesh := rfl
@[simp] theorem updQueue_pkg : (updQueue d p q f).pkg = d.pkg := rfl
@[simp] theorem updQueue_readBack : (updQueue d p q f).readBack = d.readBack := rfl
end

section
variable (d : Device) (f : Ledger → Ledger)
@[simp] theorem updLedger_phase : (updLedger d f).phase = d.phase := rfl
@[simp] theorem updLedger_cycle : (updLedger d f).cycle = d.cycle := rfl
@[simp] theorem updLedger_freeCount : (updLedger d f).freeCount = d.freeCount := rfl
@[simp] theorem updLedger_regs : (updLedger d f).regs = d.regs := rfl
@[simp] theorem updLedger_beat : (updLedger d f).beat = d.beat := rfl
@[simp] theorem updLedger_engines : (updLedger d f).engines = d.engines := rfl
@[simp] theorem updLedger_sched : (updLedger d f).sched = d.sched := rfl
@[simp] theorem updLedger_mez : (updLedger d f).mez = d.mez := rfl
@[simp] theorem updLedger_gal : (updLedger d f).gal = d.gal := rfl
@[simp] theorem updLedger_banks : (updLedger d f).banks = d.banks := rfl
@[simp] theorem updLedger_camSq : (updLedger d f).camSq = d.camSq := rfl
@[simp] theorem updLedger_sieves : (updLedger d f).sieves = d.sieves := rfl
@[simp] theorem updLedger_mem : (updLedger d f).mem = d.mem := rfl
@[simp] theorem updLedger_poison : (updLedger d f).poison = d.poison := rfl
@[simp] theorem updLedger_flips : (updLedger d f).flips = d.flips := rfl
@[simp] theorem updLedger_galFlips : (updLedger d f).galFlips = d.galFlips := rfl
@[simp] theorem updLedger_waits : (updLedger d f).waits = d.waits := rfl
@[simp] theorem updLedger_chans : (updLedger d f).chans = d.chans := rfl
@[simp] theorem updLedger_mirrors : (updLedger d f).mirrors = d.mirrors := rfl
@[simp] theorem updLedger_harts : (updLedger d f).harts = d.harts := rfl
@[simp] theorem updLedger_packageIdle : (updLedger d f).packageIdle = d.packageIdle := rfl
@[simp] theorem updLedger_hup : (updLedger d f).hup = d.hup := rfl
@[simp] theorem updLedger_queues : (updLedger d f).queues = d.queues := rfl
@[simp] theorem updLedger_accepted : (updLedger d f).accepted = d.accepted := rfl
@[simp] theorem updLedger_pager : (updLedger d f).pager = d.pager := rfl
@[simp] theorem updLedger_parts : (updLedger d f).parts = d.parts := rfl
@[simp] theorem updLedger_codecs : (updLedger d f).codecs = d.codecs := rfl
@[simp] theorem updLedger_slots : (updLedger d f).slots = d.slots := rfl
@[simp] theorem updLedger_warden : (updLedger d f).warden = d.warden := rfl
@[simp] theorem updLedger_ras : (updLedger d f).ras = d.ras := rfl
@[simp] theorem updLedger_life : (updLedger d f).life = d.life := rfl
@[simp] theorem updLedger_mesh : (updLedger d f).mesh = d.mesh := rfl
@[simp] theorem updLedger_pkg : (updLedger d f).pkg = d.pkg := rfl
@[simp] theorem updLedger_readBack : (updLedger d f).readBack = d.readBack := rfl
@[simp] theorem updLedger_ledger : (updLedger d f).ledger = f d.ledger := rfl
end

section
variable (d : Device) (f : Pager → Pager)
@[simp] theorem updPager_phase : (updPager d f).phase = d.phase := rfl
@[simp] theorem updPager_cycle : (updPager d f).cycle = d.cycle := rfl
@[simp] theorem updPager_freeCount : (updPager d f).freeCount = d.freeCount := rfl
@[simp] theorem updPager_regs : (updPager d f).regs = d.regs := rfl
@[simp] theorem updPager_beat : (updPager d f).beat = d.beat := rfl
@[simp] theorem updPager_engines : (updPager d f).engines = d.engines := rfl
@[simp] theorem updPager_sched : (updPager d f).sched = d.sched := rfl
@[simp] theorem updPager_mez : (updPager d f).mez = d.mez := rfl
@[simp] theorem updPager_gal : (updPager d f).gal = d.gal := rfl
@[simp] theorem updPager_banks : (updPager d f).banks = d.banks := rfl
@[simp] theorem updPager_camSq : (updPager d f).camSq = d.camSq := rfl
@[simp] theorem updPager_sieves : (updPager d f).sieves = d.sieves := rfl
@[simp] theorem updPager_mem : (updPager d f).mem = d.mem := rfl
@[simp] theorem updPager_poison : (updPager d f).poison = d.poison := rfl
@[simp] theorem updPager_flips : (updPager d f).flips = d.flips := rfl
@[simp] theorem updPager_galFlips : (updPager d f).galFlips = d.galFlips := rfl
@[simp] theorem updPager_waits : (updPager d f).waits = d.waits := rfl
@[simp] theorem updPager_chans : (updPager d f).chans = d.chans := rfl
@[simp] theorem updPager_mirrors : (updPager d f).mirrors = d.mirrors := rfl
@[simp] theorem updPager_harts : (updPager d f).harts = d.harts := rfl
@[simp] theorem updPager_packageIdle : (updPager d f).packageIdle = d.packageIdle := rfl
@[simp] theorem updPager_hup : (updPager d f).hup = d.hup := rfl
@[simp] theorem updPager_queues : (updPager d f).queues = d.queues := rfl
@[simp] theorem updPager_accepted : (updPager d f).accepted = d.accepted := rfl
@[simp] theorem updPager_ledger : (updPager d f).ledger = d.ledger := rfl
@[simp] theorem updPager_parts : (updPager d f).parts = d.parts := rfl
@[simp] theorem updPager_codecs : (updPager d f).codecs = d.codecs := rfl
@[simp] theorem updPager_slots : (updPager d f).slots = d.slots := rfl
@[simp] theorem updPager_warden : (updPager d f).warden = d.warden := rfl
@[simp] theorem updPager_ras : (updPager d f).ras = d.ras := rfl
@[simp] theorem updPager_life : (updPager d f).life = d.life := rfl
@[simp] theorem updPager_mesh : (updPager d f).mesh = d.mesh := rfl
@[simp] theorem updPager_pkg : (updPager d f).pkg = d.pkg := rfl
@[simp] theorem updPager_readBack : (updPager d f).readBack = d.readBack := rfl
@[simp] theorem updPager_pager : (updPager d f).pager = f d.pager := rfl
end

section
variable (d : Device) (p : Part) (f : Partition → Partition)
@[simp] theorem updPart_phase : (updPart d p f).phase = d.phase := rfl
@[simp] theorem updPart_cycle : (updPart d p f).cycle = d.cycle := rfl
@[simp] theorem updPart_freeCount : (updPart d p f).freeCount = d.freeCount := rfl
@[simp] theorem updPart_regs : (updPart d p f).regs = d.regs := rfl
@[simp] theorem updPart_beat : (updPart d p f).beat = d.beat := rfl
@[simp] theorem updPart_engines : (updPart d p f).engines = d.engines := rfl
@[simp] theorem updPart_sched : (updPart d p f).sched = d.sched := rfl
@[simp] theorem updPart_mez : (updPart d p f).mez = d.mez := rfl
@[simp] theorem updPart_gal : (updPart d p f).gal = d.gal := rfl
@[simp] theorem updPart_banks : (updPart d p f).banks = d.banks := rfl
@[simp] theorem updPart_camSq : (updPart d p f).camSq = d.camSq := rfl
@[simp] theorem updPart_sieves : (updPart d p f).sieves = d.sieves := rfl
@[simp] theorem updPart_mem : (updPart d p f).mem = d.mem := rfl
@[simp] theorem updPart_poison : (updPart d p f).poison = d.poison := rfl
@[simp] theorem updPart_flips : (updPart d p f).flips = d.flips := rfl
@[simp] theorem updPart_galFlips : (updPart d p f).galFlips = d.galFlips := rfl
@[simp] theorem updPart_waits : (updPart d p f).waits = d.waits := rfl
@[simp] theorem updPart_chans : (updPart d p f).chans = d.chans := rfl
@[simp] theorem updPart_mirrors : (updPart d p f).mirrors = d.mirrors := rfl
@[simp] theorem updPart_harts : (updPart d p f).harts = d.harts := rfl
@[simp] theorem updPart_packageIdle : (updPart d p f).packageIdle = d.packageIdle := rfl
@[simp] theorem updPart_hup : (updPart d p f).hup = d.hup := rfl
@[simp] theorem updPart_queues : (updPart d p f).queues = d.queues := rfl
@[simp] theorem updPart_accepted : (updPart d p f).accepted = d.accepted := rfl
@[simp] theorem updPart_ledger : (updPart d p f).ledger = d.ledger := rfl
@[simp] theorem updPart_pager : (updPart d p f).pager = d.pager := rfl
@[simp] theorem updPart_codecs : (updPart d p f).codecs = d.codecs := rfl
@[simp] theorem updPart_slots : (updPart d p f).slots = d.slots := rfl
@[simp] theorem updPart_warden : (updPart d p f).warden = d.warden := rfl
@[simp] theorem updPart_ras : (updPart d p f).ras = d.ras := rfl
@[simp] theorem updPart_life : (updPart d p f).life = d.life := rfl
@[simp] theorem updPart_mesh : (updPart d p f).mesh = d.mesh := rfl
@[simp] theorem updPart_pkg : (updPart d p f).pkg = d.pkg := rfl
@[simp] theorem updPart_readBack : (updPart d p f).readBack = d.readBack := rfl
end

section
variable (d : Device) (k : CodecId) (j : Option CodecJob)
@[simp] theorem updCodec_phase : (updCodec d k j).phase = d.phase := rfl
@[simp] theorem updCodec_cycle : (updCodec d k j).cycle = d.cycle := rfl
@[simp] theorem updCodec_freeCount : (updCodec d k j).freeCount = d.freeCount := rfl
@[simp] theorem updCodec_regs : (updCodec d k j).regs = d.regs := rfl
@[simp] theorem updCodec_beat : (updCodec d k j).beat = d.beat := rfl
@[simp] theorem updCodec_engines : (updCodec d k j).engines = d.engines := rfl
@[simp] theorem updCodec_sched : (updCodec d k j).sched = d.sched := rfl
@[simp] theorem updCodec_mez : (updCodec d k j).mez = d.mez := rfl
@[simp] theorem updCodec_gal : (updCodec d k j).gal = d.gal := rfl
@[simp] theorem updCodec_banks : (updCodec d k j).banks = d.banks := rfl
@[simp] theorem updCodec_camSq : (updCodec d k j).camSq = d.camSq := rfl
@[simp] theorem updCodec_sieves : (updCodec d k j).sieves = d.sieves := rfl
@[simp] theorem updCodec_mem : (updCodec d k j).mem = d.mem := rfl
@[simp] theorem updCodec_poison : (updCodec d k j).poison = d.poison := rfl
@[simp] theorem updCodec_flips : (updCodec d k j).flips = d.flips := rfl
@[simp] theorem updCodec_galFlips : (updCodec d k j).galFlips = d.galFlips := rfl
@[simp] theorem updCodec_waits : (updCodec d k j).waits = d.waits := rfl
@[simp] theorem updCodec_chans : (updCodec d k j).chans = d.chans := rfl
@[simp] theorem updCodec_mirrors : (updCodec d k j).mirrors = d.mirrors := rfl
@[simp] theorem updCodec_harts : (updCodec d k j).harts = d.harts := rfl
@[simp] theorem updCodec_packageIdle : (updCodec d k j).packageIdle = d.packageIdle := rfl
@[simp] theorem updCodec_hup : (updCodec d k j).hup = d.hup := rfl
@[simp] theorem updCodec_queues : (updCodec d k j).queues = d.queues := rfl
@[simp] theorem updCodec_accepted : (updCodec d k j).accepted = d.accepted := rfl
@[simp] theorem updCodec_ledger : (updCodec d k j).ledger = d.ledger := rfl
@[simp] theorem updCodec_pager : (updCodec d k j).pager = d.pager := rfl
@[simp] theorem updCodec_parts : (updCodec d k j).parts = d.parts := rfl
@[simp] theorem updCodec_slots : (updCodec d k j).slots = d.slots := rfl
@[simp] theorem updCodec_warden : (updCodec d k j).warden = d.warden := rfl
@[simp] theorem updCodec_ras : (updCodec d k j).ras = d.ras := rfl
@[simp] theorem updCodec_life : (updCodec d k j).life = d.life := rfl
@[simp] theorem updCodec_mesh : (updCodec d k j).mesh = d.mesh := rfl
@[simp] theorem updCodec_pkg : (updCodec d k j).pkg = d.pkg := rfl
@[simp] theorem updCodec_readBack : (updCodec d k j).readBack = d.readBack := rfl
end

section
variable (d : Device) (k : SlotId) (f : Slot → Slot)
@[simp] theorem updSlot_phase : (updSlot d k f).phase = d.phase := rfl
@[simp] theorem updSlot_cycle : (updSlot d k f).cycle = d.cycle := rfl
@[simp] theorem updSlot_freeCount : (updSlot d k f).freeCount = d.freeCount := rfl
@[simp] theorem updSlot_regs : (updSlot d k f).regs = d.regs := rfl
@[simp] theorem updSlot_beat : (updSlot d k f).beat = d.beat := rfl
@[simp] theorem updSlot_engines : (updSlot d k f).engines = d.engines := rfl
@[simp] theorem updSlot_sched : (updSlot d k f).sched = d.sched := rfl
@[simp] theorem updSlot_mez : (updSlot d k f).mez = d.mez := rfl
@[simp] theorem updSlot_gal : (updSlot d k f).gal = d.gal := rfl
@[simp] theorem updSlot_banks : (updSlot d k f).banks = d.banks := rfl
@[simp] theorem updSlot_camSq : (updSlot d k f).camSq = d.camSq := rfl
@[simp] theorem updSlot_sieves : (updSlot d k f).sieves = d.sieves := rfl
@[simp] theorem updSlot_mem : (updSlot d k f).mem = d.mem := rfl
@[simp] theorem updSlot_poison : (updSlot d k f).poison = d.poison := rfl
@[simp] theorem updSlot_flips : (updSlot d k f).flips = d.flips := rfl
@[simp] theorem updSlot_galFlips : (updSlot d k f).galFlips = d.galFlips := rfl
@[simp] theorem updSlot_waits : (updSlot d k f).waits = d.waits := rfl
@[simp] theorem updSlot_chans : (updSlot d k f).chans = d.chans := rfl
@[simp] theorem updSlot_mirrors : (updSlot d k f).mirrors = d.mirrors := rfl
@[simp] theorem updSlot_harts : (updSlot d k f).harts = d.harts := rfl
@[simp] theorem updSlot_packageIdle : (updSlot d k f).packageIdle = d.packageIdle := rfl
@[simp] theorem updSlot_hup : (updSlot d k f).hup = d.hup := rfl
@[simp] theorem updSlot_queues : (updSlot d k f).queues = d.queues := rfl
@[simp] theorem updSlot_accepted : (updSlot d k f).accepted = d.accepted := rfl
@[simp] theorem updSlot_ledger : (updSlot d k f).ledger = d.ledger := rfl
@[simp] theorem updSlot_pager : (updSlot d k f).pager = d.pager := rfl
@[simp] theorem updSlot_parts : (updSlot d k f).parts = d.parts := rfl
@[simp] theorem updSlot_codecs : (updSlot d k f).codecs = d.codecs := rfl
@[simp] theorem updSlot_warden : (updSlot d k f).warden = d.warden := rfl
@[simp] theorem updSlot_ras : (updSlot d k f).ras = d.ras := rfl
@[simp] theorem updSlot_life : (updSlot d k f).life = d.life := rfl
@[simp] theorem updSlot_mesh : (updSlot d k f).mesh = d.mesh := rfl
@[simp] theorem updSlot_pkg : (updSlot d k f).pkg = d.pkg := rfl
@[simp] theorem updSlot_readBack : (updSlot d k f).readBack = d.readBack := rfl
@[simp] theorem updSlot_self : (updSlot d k f).slots[k.val] = f d.slots[k.val] := by simp [updSlot]
theorem updSlot_of_ne {other : SlotId} (ne : other ≠ k) : (updSlot d k f).slots[other] = d.slots[other] := by
  have : k.val ≠ other.val := fun same => ne (Fin.ext same.symm)
  simp [updSlot, this]
end

section
variable (d : Device) (f : Warden → Warden)
@[simp] theorem updWarden_phase : (updWarden d f).phase = d.phase := rfl
@[simp] theorem updWarden_cycle : (updWarden d f).cycle = d.cycle := rfl
@[simp] theorem updWarden_freeCount : (updWarden d f).freeCount = d.freeCount := rfl
@[simp] theorem updWarden_regs : (updWarden d f).regs = d.regs := rfl
@[simp] theorem updWarden_beat : (updWarden d f).beat = d.beat := rfl
@[simp] theorem updWarden_engines : (updWarden d f).engines = d.engines := rfl
@[simp] theorem updWarden_sched : (updWarden d f).sched = d.sched := rfl
@[simp] theorem updWarden_mez : (updWarden d f).mez = d.mez := rfl
@[simp] theorem updWarden_gal : (updWarden d f).gal = d.gal := rfl
@[simp] theorem updWarden_banks : (updWarden d f).banks = d.banks := rfl
@[simp] theorem updWarden_camSq : (updWarden d f).camSq = d.camSq := rfl
@[simp] theorem updWarden_sieves : (updWarden d f).sieves = d.sieves := rfl
@[simp] theorem updWarden_mem : (updWarden d f).mem = d.mem := rfl
@[simp] theorem updWarden_poison : (updWarden d f).poison = d.poison := rfl
@[simp] theorem updWarden_flips : (updWarden d f).flips = d.flips := rfl
@[simp] theorem updWarden_galFlips : (updWarden d f).galFlips = d.galFlips := rfl
@[simp] theorem updWarden_waits : (updWarden d f).waits = d.waits := rfl
@[simp] theorem updWarden_chans : (updWarden d f).chans = d.chans := rfl
@[simp] theorem updWarden_mirrors : (updWarden d f).mirrors = d.mirrors := rfl
@[simp] theorem updWarden_harts : (updWarden d f).harts = d.harts := rfl
@[simp] theorem updWarden_packageIdle : (updWarden d f).packageIdle = d.packageIdle := rfl
@[simp] theorem updWarden_hup : (updWarden d f).hup = d.hup := rfl
@[simp] theorem updWarden_queues : (updWarden d f).queues = d.queues := rfl
@[simp] theorem updWarden_accepted : (updWarden d f).accepted = d.accepted := rfl
@[simp] theorem updWarden_ledger : (updWarden d f).ledger = d.ledger := rfl
@[simp] theorem updWarden_pager : (updWarden d f).pager = d.pager := rfl
@[simp] theorem updWarden_parts : (updWarden d f).parts = d.parts := rfl
@[simp] theorem updWarden_codecs : (updWarden d f).codecs = d.codecs := rfl
@[simp] theorem updWarden_slots : (updWarden d f).slots = d.slots := rfl
@[simp] theorem updWarden_ras : (updWarden d f).ras = d.ras := rfl
@[simp] theorem updWarden_life : (updWarden d f).life = d.life := rfl
@[simp] theorem updWarden_mesh : (updWarden d f).mesh = d.mesh := rfl
@[simp] theorem updWarden_pkg : (updWarden d f).pkg = d.pkg := rfl
@[simp] theorem updWarden_readBack : (updWarden d f).readBack = d.readBack := rfl
@[simp] theorem updWarden_warden : (updWarden d f).warden = f d.warden := rfl
end

section
variable (d : Device) (f : Ras → Ras)
@[simp] theorem updRas_phase : (updRas d f).phase = d.phase := rfl
@[simp] theorem updRas_cycle : (updRas d f).cycle = d.cycle := rfl
@[simp] theorem updRas_freeCount : (updRas d f).freeCount = d.freeCount := rfl
@[simp] theorem updRas_regs : (updRas d f).regs = d.regs := rfl
@[simp] theorem updRas_beat : (updRas d f).beat = d.beat := rfl
@[simp] theorem updRas_engines : (updRas d f).engines = d.engines := rfl
@[simp] theorem updRas_sched : (updRas d f).sched = d.sched := rfl
@[simp] theorem updRas_mez : (updRas d f).mez = d.mez := rfl
@[simp] theorem updRas_gal : (updRas d f).gal = d.gal := rfl
@[simp] theorem updRas_banks : (updRas d f).banks = d.banks := rfl
@[simp] theorem updRas_camSq : (updRas d f).camSq = d.camSq := rfl
@[simp] theorem updRas_sieves : (updRas d f).sieves = d.sieves := rfl
@[simp] theorem updRas_mem : (updRas d f).mem = d.mem := rfl
@[simp] theorem updRas_poison : (updRas d f).poison = d.poison := rfl
@[simp] theorem updRas_flips : (updRas d f).flips = d.flips := rfl
@[simp] theorem updRas_galFlips : (updRas d f).galFlips = d.galFlips := rfl
@[simp] theorem updRas_waits : (updRas d f).waits = d.waits := rfl
@[simp] theorem updRas_chans : (updRas d f).chans = d.chans := rfl
@[simp] theorem updRas_mirrors : (updRas d f).mirrors = d.mirrors := rfl
@[simp] theorem updRas_harts : (updRas d f).harts = d.harts := rfl
@[simp] theorem updRas_packageIdle : (updRas d f).packageIdle = d.packageIdle := rfl
@[simp] theorem updRas_hup : (updRas d f).hup = d.hup := rfl
@[simp] theorem updRas_queues : (updRas d f).queues = d.queues := rfl
@[simp] theorem updRas_accepted : (updRas d f).accepted = d.accepted := rfl
@[simp] theorem updRas_ledger : (updRas d f).ledger = d.ledger := rfl
@[simp] theorem updRas_pager : (updRas d f).pager = d.pager := rfl
@[simp] theorem updRas_parts : (updRas d f).parts = d.parts := rfl
@[simp] theorem updRas_codecs : (updRas d f).codecs = d.codecs := rfl
@[simp] theorem updRas_slots : (updRas d f).slots = d.slots := rfl
@[simp] theorem updRas_warden : (updRas d f).warden = d.warden := rfl
@[simp] theorem updRas_life : (updRas d f).life = d.life := rfl
@[simp] theorem updRas_mesh : (updRas d f).mesh = d.mesh := rfl
@[simp] theorem updRas_pkg : (updRas d f).pkg = d.pkg := rfl
@[simp] theorem updRas_readBack : (updRas d f).readBack = d.readBack := rfl
@[simp] theorem updRas_ras : (updRas d f).ras = f d.ras := rfl
end

section
variable (d : Device) (f : Package → Package)
@[simp] theorem updPkg_phase : (updPkg d f).phase = d.phase := rfl
@[simp] theorem updPkg_cycle : (updPkg d f).cycle = d.cycle := rfl
@[simp] theorem updPkg_freeCount : (updPkg d f).freeCount = d.freeCount := rfl
@[simp] theorem updPkg_regs : (updPkg d f).regs = d.regs := rfl
@[simp] theorem updPkg_beat : (updPkg d f).beat = d.beat := rfl
@[simp] theorem updPkg_engines : (updPkg d f).engines = d.engines := rfl
@[simp] theorem updPkg_sched : (updPkg d f).sched = d.sched := rfl
@[simp] theorem updPkg_mez : (updPkg d f).mez = d.mez := rfl
@[simp] theorem updPkg_gal : (updPkg d f).gal = d.gal := rfl
@[simp] theorem updPkg_banks : (updPkg d f).banks = d.banks := rfl
@[simp] theorem updPkg_camSq : (updPkg d f).camSq = d.camSq := rfl
@[simp] theorem updPkg_sieves : (updPkg d f).sieves = d.sieves := rfl
@[simp] theorem updPkg_mem : (updPkg d f).mem = d.mem := rfl
@[simp] theorem updPkg_poison : (updPkg d f).poison = d.poison := rfl
@[simp] theorem updPkg_flips : (updPkg d f).flips = d.flips := rfl
@[simp] theorem updPkg_galFlips : (updPkg d f).galFlips = d.galFlips := rfl
@[simp] theorem updPkg_waits : (updPkg d f).waits = d.waits := rfl
@[simp] theorem updPkg_chans : (updPkg d f).chans = d.chans := rfl
@[simp] theorem updPkg_mirrors : (updPkg d f).mirrors = d.mirrors := rfl
@[simp] theorem updPkg_harts : (updPkg d f).harts = d.harts := rfl
@[simp] theorem updPkg_packageIdle : (updPkg d f).packageIdle = d.packageIdle := rfl
@[simp] theorem updPkg_hup : (updPkg d f).hup = d.hup := rfl
@[simp] theorem updPkg_queues : (updPkg d f).queues = d.queues := rfl
@[simp] theorem updPkg_accepted : (updPkg d f).accepted = d.accepted := rfl
@[simp] theorem updPkg_ledger : (updPkg d f).ledger = d.ledger := rfl
@[simp] theorem updPkg_pager : (updPkg d f).pager = d.pager := rfl
@[simp] theorem updPkg_parts : (updPkg d f).parts = d.parts := rfl
@[simp] theorem updPkg_codecs : (updPkg d f).codecs = d.codecs := rfl
@[simp] theorem updPkg_slots : (updPkg d f).slots = d.slots := rfl
@[simp] theorem updPkg_warden : (updPkg d f).warden = d.warden := rfl
@[simp] theorem updPkg_ras : (updPkg d f).ras = d.ras := rfl
@[simp] theorem updPkg_life : (updPkg d f).life = d.life := rfl
@[simp] theorem updPkg_mesh : (updPkg d f).mesh = d.mesh := rfl
@[simp] theorem updPkg_readBack : (updPkg d f).readBack = d.readBack := rfl
@[simp] theorem updPkg_pkg : (updPkg d f).pkg = f d.pkg := rfl
end

/-! ### Updates of an engine -/

section
variable (x : Engine) (n : BitVec 4) (c : Vector Cell 16) (m : Mask)
@[simp] theorem setV_pc : (setV x n c m).pc = x.pc := rfl
@[simp] theorem setV_mode : (setV x n c m).mode = x.mode := rfl
@[simp] theorem setV_run : (setV x n c m).run = x.run := rfl
@[simp] theorem setV_waiting : (setV x n c m).waiting = x.waiting := rfl
@[simp] theorem setV_s : (setV x n c m).s = x.s := rfl
@[simp] theorem setV_p : (setV x n c m).p = x.p := rfl
@[simp] theorem setV_a : (setV x n c m).a = x.a := rfl
@[simp] theorem setV_eie : (setV x n c m).eie = x.eie := rfl
@[simp] theorem setV_rmode : (setV x n c m).rmode = x.rmode := rfl
@[simp] theorem setV_epc : (setV x n c m).epc = x.epc := rfl
@[simp] theorem setV_ecause : (setV x n c m).ecause = x.ecause := rfl
@[simp] theorem setV_eval : (setV x n c m).eval = x.eval := rfl
@[simp] theorem setV_codeBase : (setV x n c m).codeBase = x.codeBase := rfl
@[simp] theorem setV_codeLimit : (setV x n c m).codeLimit = x.codeLimit := rfl
@[simp] theorem setV_vfcsr : (setV x n c m).vfcsr = x.vfcsr := rfl
@[simp] theorem setV_camr : (setV x n c m).camr = x.camr := rfl
@[simp] theorem setV_camm : (setV x n c m).camm = x.camm := rfl
@[simp] theorem setV_landing : (setV x n c m).landing = x.landing := rfl
@[simp] theorem setV_code : (setV x n c m).code = x.code := rfl
@[simp] theorem setV_codeBad : (setV x n c m).codeBad = x.codeBad := rfl
@[simp] theorem setV_stale : (setV x n c m).stale = x.stale := rfl
@[simp] theorem setV_sb : (setV x n c m).sb = x.sb := rfl
@[simp] theorem setV_fault : (setV x n c m).fault = x.fault := rfl
@[simp] theorem setV_pendErr : (setV x n c m).pendErr = x.pendErr := rfl
@[simp] theorem setV_entry : (setV x n c m).entry = x.entry := rfl
@[simp] theorem setV_cam : (setV x n c m).cam = x.cam := rfl
@[simp] theorem setV_latch : (setV x n c m).latch = x.latch := rfl
@[simp] theorem setV_afterRet : (setV x n c m).afterRet = x.afterRet := rfl
@[simp] theorem setV_l1 : (setV x n c m).l1 = x.l1 := rfl
@[simp] theorem setV_miss : (setV x n c m).miss = x.miss := rfl
@[simp] theorem setV_discard : (setV x n c m).discard = x.discard := rfl
@[simp] theorem setV_streams : (setV x n c m).streams = x.streams := rfl
@[simp] theorem setV_jobs : (setV x n c m).jobs = x.jobs := rfl
@[simp] theorem setV_grant : (setV x n c m).grant = x.grant := rfl
@[simp] theorem setV_owner : (setV x n c m).owner = x.owner := rfl
@[simp] theorem setV_dispatch : (setV x n c m).dispatch = x.dispatch := rfl
@[simp] theorem setV_lastInst : (setV x n c m).lastInst = x.lastInst := rfl
@[simp] theorem setV_reload : (setV x n c m).reload = x.reload := rfl
@[simp] theorem setV_halts24 : (setV x n c m).halts24 = x.halts24 := rfl
@[simp] theorem setV_dirty24 : (setV x n c m).dirty24 = x.dirty24 := rfl
end

section
variable (x : Engine) (n : BitVec 4) (m : Mask)
@[simp] theorem setVm_pc : (setVm x n m).pc = x.pc := rfl
@[simp] theorem setVm_mode : (setVm x n m).mode = x.mode := rfl
@[simp] theorem setVm_run : (setVm x n m).run = x.run := rfl
@[simp] theorem setVm_waiting : (setVm x n m).waiting = x.waiting := rfl
@[simp] theorem setVm_s : (setVm x n m).s = x.s := rfl
@[simp] theorem setVm_v : (setVm x n m).v = x.v := rfl
@[simp] theorem setVm_p : (setVm x n m).p = x.p := rfl
@[simp] theorem setVm_a : (setVm x n m).a = x.a := rfl
@[simp] theorem setVm_eie : (setVm x n m).eie = x.eie := rfl
@[simp] theorem setVm_rmode : (setVm x n m).rmode = x.rmode := rfl
@[simp] theorem setVm_epc : (setVm x n m).epc = x.epc := rfl
@[simp] theorem setVm_ecause : (setVm x n m).ecause = x.ecause := rfl
@[simp] theorem setVm_eval : (setVm x n m).eval = x.eval := rfl
@[simp] theorem setVm_codeBase : (setVm x n m).codeBase = x.codeBase := rfl
@[simp] theorem setVm_codeLimit : (setVm x n m).codeLimit = x.codeLimit := rfl
@[simp] theorem setVm_vfcsr : (setVm x n m).vfcsr = x.vfcsr := rfl
@[simp] theorem setVm_camr : (setVm x n m).camr = x.camr := rfl
@[simp] theorem setVm_camm : (setVm x n m).camm = x.camm := rfl
@[simp] theorem setVm_landing : (setVm x n m).landing = x.landing := rfl
@[simp] theorem setVm_code : (setVm x n m).code = x.code := rfl
@[simp] theorem setVm_codeBad : (setVm x n m).codeBad = x.codeBad := rfl
@[simp] theorem setVm_stale : (setVm x n m).stale = x.stale := rfl
@[simp] theorem setVm_sb : (setVm x n m).sb = x.sb := rfl
@[simp] theorem setVm_fault : (setVm x n m).fault = x.fault := rfl
@[simp] theorem setVm_pendErr : (setVm x n m).pendErr = x.pendErr := rfl
@[simp] theorem setVm_entry : (setVm x n m).entry = x.entry := rfl
@[simp] theorem setVm_cam : (setVm x n m).cam = x.cam := rfl
@[simp] theorem setVm_latch : (setVm x n m).latch = x.latch := rfl
@[simp] theorem setVm_afterRet : (setVm x n m).afterRet = x.afterRet := rfl
@[simp] theorem setVm_l1 : (setVm x n m).l1 = x.l1 := rfl
@[simp] theorem setVm_miss : (setVm x n m).miss = x.miss := rfl
@[simp] theorem setVm_discard : (setVm x n m).discard = x.discard := rfl
@[simp] theorem setVm_streams : (setVm x n m).streams = x.streams := rfl
@[simp] theorem setVm_jobs : (setVm x n m).jobs = x.jobs := rfl
@[simp] theorem setVm_grant : (setVm x n m).grant = x.grant := rfl
@[simp] theorem setVm_owner : (setVm x n m).owner = x.owner := rfl
@[simp] theorem setVm_dispatch : (setVm x n m).dispatch = x.dispatch := rfl
@[simp] theorem setVm_lastInst : (setVm x n m).lastInst = x.lastInst := rfl
@[simp] theorem setVm_reload : (setVm x n m).reload = x.reload := rfl
@[simp] theorem setVm_halts24 : (setVm x n m).halts24 = x.halts24 := rfl
@[simp] theorem setVm_dirty24 : (setVm x n m).dirty24 = x.dirty24 := rfl
end

section
variable (x : Engine) (n : BitVec 3) (c : Vector Wide 16)
@[simp] theorem setA_pc : (setA x n c).pc = x.pc := rfl
@[simp] theorem setA_mode : (setA x n c).mode = x.mode := rfl
@[simp] theorem setA_run : (setA x n c).run = x.run := rfl
@[simp] theorem setA_waiting : (setA x n c).waiting = x.waiting := rfl
@[simp] theorem setA_s : (setA x n c).s = x.s := rfl
@[simp] theorem setA_v : (setA x n c).v = x.v := rfl
@[simp] theorem setA_vm : (setA x n c).vm = x.vm := rfl
@[simp] theorem setA_p : (setA x n c).p = x.p := rfl
@[simp] theorem setA_eie : (setA x n c).eie = x.eie := rfl
@[simp] theorem setA_rmode : (setA x n c).rmode = x.rmode := rfl
@[simp] theorem setA_epc : (setA x n c).epc = x.epc := rfl
@[simp] theorem setA_ecause : (setA x n c).ecause = x.ecause := rfl
@[simp] theorem setA_eval : (setA x n c).eval = x.eval := rfl
@[simp] theorem setA_codeBase : (setA x n c).codeBase = x.codeBase := rfl
@[simp] theorem setA_codeLimit : (setA x n c).codeLimit = x.codeLimit := rfl
@[simp] theorem setA_vfcsr : (setA x n c).vfcsr = x.vfcsr := rfl
@[simp] theorem setA_camr : (setA x n c).camr = x.camr := rfl
@[simp] theorem setA_camm : (setA x n c).camm = x.camm := rfl
@[simp] theorem setA_landing : (setA x n c).landing = x.landing := rfl
@[simp] theorem setA_code : (setA x n c).code = x.code := rfl
@[simp] theorem setA_codeBad : (setA x n c).codeBad = x.codeBad := rfl
@[simp] theorem setA_stale : (setA x n c).stale = x.stale := rfl
@[simp] theorem setA_sb : (setA x n c).sb = x.sb := rfl
@[simp] theorem setA_fault : (setA x n c).fault = x.fault := rfl
@[simp] theorem setA_pendErr : (setA x n c).pendErr = x.pendErr := rfl
@[simp] theorem setA_entry : (setA x n c).entry = x.entry := rfl
@[simp] theorem setA_cam : (setA x n c).cam = x.cam := rfl
@[simp] theorem setA_latch : (setA x n c).latch = x.latch := rfl
@[simp] theorem setA_afterRet : (setA x n c).afterRet = x.afterRet := rfl
@[simp] theorem setA_l1 : (setA x n c).l1 = x.l1 := rfl
@[simp] theorem setA_miss : (setA x n c).miss = x.miss := rfl
@[simp] theorem setA_discard : (setA x n c).discard = x.discard := rfl
@[simp] theorem setA_streams : (setA x n c).streams = x.streams := rfl
@[simp] theorem setA_jobs : (setA x n c).jobs = x.jobs := rfl
@[simp] theorem setA_grant : (setA x n c).grant = x.grant := rfl
@[simp] theorem setA_owner : (setA x n c).owner = x.owner := rfl
@[simp] theorem setA_dispatch : (setA x n c).dispatch = x.dispatch := rfl
@[simp] theorem setA_lastInst : (setA x n c).lastInst = x.lastInst := rfl
@[simp] theorem setA_reload : (setA x n c).reload = x.reload := rfl
@[simp] theorem setA_halts24 : (setA x n c).halts24 = x.halts24 := rfl
@[simp] theorem setA_dirty24 : (setA x n c).dirty24 = x.dirty24 := rfl
end

section
variable (x : Engine) (c : Cause) (v : Dword)
@[simp] theorem note_pc : (note x c v).pc = x.pc := rfl
@[simp] theorem note_mode : (note x c v).mode = x.mode := rfl
@[simp] theorem note_run : (note x c v).run = x.run := rfl
@[simp] theorem note_waiting : (note x c v).waiting = x.waiting := rfl
@[simp] theorem note_s : (note x c v).s = x.s := rfl
@[simp] theorem note_v : (note x c v).v = x.v := rfl
@[simp] theorem note_vm : (note x c v).vm = x.vm := rfl
@[simp] theorem note_p : (note x c v).p = x.p := rfl
@[simp] theorem note_a : (note x c v).a = x.a := rfl
@[simp] theorem note_eie : (note x c v).eie = x.eie := rfl
@[simp] theorem note_rmode : (note x c v).rmode = x.rmode := rfl
@[simp] theorem note_epc : (note x c v).epc = x.epc := rfl
@[simp] theorem note_ecause : (note x c v).ecause = x.ecause := rfl
@[simp] theorem note_eval : (note x c v).eval = x.eval := rfl
@[simp] theorem note_codeBase : (note x c v).codeBase = x.codeBase := rfl
@[simp] theorem note_codeLimit : (note x c v).codeLimit = x.codeLimit := rfl
@[simp] theorem note_vfcsr : (note x c v).vfcsr = x.vfcsr := rfl
@[simp] theorem note_camr : (note x c v).camr = x.camr := rfl
@[simp] theorem note_camm : (note x c v).camm = x.camm := rfl
@[simp] theorem note_landing : (note x c v).landing = x.landing := rfl
@[simp] theorem note_code : (note x c v).code = x.code := rfl
@[simp] theorem note_codeBad : (note x c v).codeBad = x.codeBad := rfl
@[simp] theorem note_stale : (note x c v).stale = x.stale := rfl
@[simp] theorem note_sb : (note x c v).sb = x.sb := rfl
@[simp] theorem note_pendErr : (note x c v).pendErr = x.pendErr := rfl
@[simp] theorem note_entry : (note x c v).entry = x.entry := rfl
@[simp] theorem note_cam : (note x c v).cam = x.cam := rfl
@[simp] theorem note_latch : (note x c v).latch = x.latch := rfl
@[simp] theorem note_afterRet : (note x c v).afterRet = x.afterRet := rfl
@[simp] theorem note_l1 : (note x c v).l1 = x.l1 := rfl
@[simp] theorem note_miss : (note x c v).miss = x.miss := rfl
@[simp] theorem note_discard : (note x c v).discard = x.discard := rfl
@[simp] theorem note_streams : (note x c v).streams = x.streams := rfl
@[simp] theorem note_jobs : (note x c v).jobs = x.jobs := rfl
@[simp] theorem note_grant : (note x c v).grant = x.grant := rfl
@[simp] theorem note_owner : (note x c v).owner = x.owner := rfl
@[simp] theorem note_dispatch : (note x c v).dispatch = x.dispatch := rfl
@[simp] theorem note_lastInst : (note x c v).lastInst = x.lastInst := rfl
@[simp] theorem note_reload : (note x c v).reload = x.reload := rfl
@[simp] theorem note_halts24 : (note x c v).halts24 = x.halts24 := rfl
@[simp] theorem note_dirty24 : (note x c v).dirty24 = x.dirty24 := rfl
end

section
variable (x : Engine)
@[simp] theorem adv_mode : (adv x ).mode = x.mode := rfl
@[simp] theorem adv_run : (adv x ).run = x.run := rfl
@[simp] theorem adv_waiting : (adv x ).waiting = x.waiting := rfl
@[simp] theorem adv_s : (adv x ).s = x.s := rfl
@[simp] theorem adv_v : (adv x ).v = x.v := rfl
@[simp] theorem adv_vm : (adv x ).vm = x.vm := rfl
@[simp] theorem adv_p : (adv x ).p = x.p := rfl
@[simp] theorem adv_a : (adv x ).a = x.a := rfl
@[simp] theorem adv_eie : (adv x ).eie = x.eie := rfl
@[simp] theorem adv_rmode : (adv x ).rmode = x.rmode := rfl
@[simp] theorem adv_epc : (adv x ).epc = x.epc := rfl
@[simp] theorem adv_ecause : (adv x ).ecause = x.ecause := rfl
@[simp] theorem adv_eval : (adv x ).eval = x.eval := rfl
@[simp] theorem adv_codeBase : (adv x ).codeBase = x.codeBase := rfl
@[simp] theorem adv_codeLimit : (adv x ).codeLimit = x.codeLimit := rfl
@[simp] theorem adv_vfcsr : (adv x ).vfcsr = x.vfcsr := rfl
@[simp] theorem adv_camr : (adv x ).camr = x.camr := rfl
@[simp] theorem adv_camm : (adv x ).camm = x.camm := rfl
@[simp] theorem adv_landing : (adv x ).landing = x.landing := rfl
@[simp] theorem adv_code : (adv x ).code = x.code := rfl
@[simp] theorem adv_codeBad : (adv x ).codeBad = x.codeBad := rfl
@[simp] theorem adv_stale : (adv x ).stale = x.stale := rfl
@[simp] theorem adv_sb : (adv x ).sb = x.sb := rfl
@[simp] theorem adv_fault : (adv x ).fault = x.fault := rfl
@[simp] theorem adv_pendErr : (adv x ).pendErr = x.pendErr := rfl
@[simp] theorem adv_entry : (adv x ).entry = x.entry := rfl
@[simp] theorem adv_cam : (adv x ).cam = x.cam := rfl
@[simp] theorem adv_latch : (adv x ).latch = x.latch := rfl
@[simp] theorem adv_afterRet : (adv x ).afterRet = x.afterRet := rfl
@[simp] theorem adv_l1 : (adv x ).l1 = x.l1 := rfl
@[simp] theorem adv_miss : (adv x ).miss = x.miss := rfl
@[simp] theorem adv_discard : (adv x ).discard = x.discard := rfl
@[simp] theorem adv_streams : (adv x ).streams = x.streams := rfl
@[simp] theorem adv_jobs : (adv x ).jobs = x.jobs := rfl
@[simp] theorem adv_grant : (adv x ).grant = x.grant := rfl
@[simp] theorem adv_owner : (adv x ).owner = x.owner := rfl
@[simp] theorem adv_dispatch : (adv x ).dispatch = x.dispatch := rfl
@[simp] theorem adv_lastInst : (adv x ).lastInst = x.lastInst := rfl
@[simp] theorem adv_reload : (adv x ).reload = x.reload := rfl
@[simp] theorem adv_halts24 : (adv x ).halts24 = x.halts24 := rfl
@[simp] theorem adv_dirty24 : (adv x ).dirty24 = x.dirty24 := rfl
end

section
variable (x : Engine) (k : Nat) (w : InstrWord)
@[simp] theorem codePut_pc : (codePut x k w).pc = x.pc := rfl
@[simp] theorem codePut_mode : (codePut x k w).mode = x.mode := rfl
@[simp] theorem codePut_run : (codePut x k w).run = x.run := rfl
@[simp] theorem codePut_waiting : (codePut x k w).waiting = x.waiting := rfl
@[simp] theorem codePut_s : (codePut x k w).s = x.s := rfl
@[simp] theorem codePut_v : (codePut x k w).v = x.v := rfl
@[simp] theorem codePut_vm : (codePut x k w).vm = x.vm := rfl
@[simp] theorem codePut_p : (codePut x k w).p = x.p := rfl
@[simp] theorem codePut_a : (codePut x k w).a = x.a := rfl
@[simp] theorem codePut_eie : (codePut x k w).eie = x.eie := rfl
@[simp] theorem codePut_rmode : (codePut x k w).rmode = x.rmode := rfl
@[simp] theorem codePut_epc : (codePut x k w).epc = x.epc := rfl
@[simp] theorem codePut_ecause : (codePut x k w).ecause = x.ecause := rfl
@[simp] theorem codePut_eval : (codePut x k w).eval = x.eval := rfl
@[simp] theorem codePut_codeBase : (codePut x k w).codeBase = x.codeBase := rfl
@[simp] theorem codePut_codeLimit : (codePut x k w).codeLimit = x.codeLimit := rfl
@[simp] theorem codePut_vfcsr : (codePut x k w).vfcsr = x.vfcsr := rfl
@[simp] theorem codePut_camr : (codePut x k w).camr = x.camr := rfl
@[simp] theorem codePut_camm : (codePut x k w).camm = x.camm := rfl
@[simp] theorem codePut_landing : (codePut x k w).landing = x.landing := rfl
@[simp] theorem codePut_sb : (codePut x k w).sb = x.sb := rfl
@[simp] theorem codePut_fault : (codePut x k w).fault = x.fault := rfl
@[simp] theorem codePut_pendErr : (codePut x k w).pendErr = x.pendErr := rfl
@[simp] theorem codePut_entry : (codePut x k w).entry = x.entry := rfl
@[simp] theorem codePut_cam : (codePut x k w).cam = x.cam := rfl
@[simp] theorem codePut_latch : (codePut x k w).latch = x.latch := rfl
@[simp] theorem codePut_afterRet : (codePut x k w).afterRet = x.afterRet := rfl
@[simp] theorem codePut_l1 : (codePut x k w).l1 = x.l1 := rfl
@[simp] theorem codePut_miss : (codePut x k w).miss = x.miss := rfl
@[simp] theorem codePut_discard : (codePut x k w).discard = x.discard := rfl
@[simp] theorem codePut_streams : (codePut x k w).streams = x.streams := rfl
@[simp] theorem codePut_jobs : (codePut x k w).jobs = x.jobs := rfl
@[simp] theorem codePut_grant : (codePut x k w).grant = x.grant := rfl
@[simp] theorem codePut_owner : (codePut x k w).owner = x.owner := rfl
@[simp] theorem codePut_dispatch : (codePut x k w).dispatch = x.dispatch := rfl
@[simp] theorem codePut_lastInst : (codePut x k w).lastInst = x.lastInst := rfl
@[simp] theorem codePut_reload : (codePut x k w).reload = x.reload := rfl
@[simp] theorem codePut_halts24 : (codePut x k w).halts24 = x.halts24 := rfl
@[simp] theorem codePut_dirty24 : (codePut x k w).dirty24 = x.dirty24 := rfl
end

section
variable (x : Engine) (n : BitVec 5) (v : Dword)
@[simp] theorem setS_pc : (setS x n v).pc = x.pc := by unfold setS; split <;> rfl
@[simp] theorem setS_mode : (setS x n v).mode = x.mode := by unfold setS; split <;> rfl
@[simp] theorem setS_run : (setS x n v).run = x.run := by unfold setS; split <;> rfl
@[simp] theorem setS_waiting : (setS x n v).waiting = x.waiting := by unfold setS; split <;> rfl
@[simp] theorem setS_v : (setS x n v).v = x.v := by unfold setS; split <;> rfl
@[simp] theorem setS_vm : (setS x n v).vm = x.vm := by unfold setS; split <;> rfl
@[simp] theorem setS_p : (setS x n v).p = x.p := by unfold setS; split <;> rfl
@[simp] theorem setS_a : (setS x n v).a = x.a := by unfold setS; split <;> rfl
@[simp] theorem setS_eie : (setS x n v).eie = x.eie := by unfold setS; split <;> rfl
@[simp] theorem setS_rmode : (setS x n v).rmode = x.rmode := by unfold setS; split <;> rfl
@[simp] theorem setS_epc : (setS x n v).epc = x.epc := by unfold setS; split <;> rfl
@[simp] theorem setS_ecause : (setS x n v).ecause = x.ecause := by unfold setS; split <;> rfl
@[simp] theorem setS_eval : (setS x n v).eval = x.eval := by unfold setS; split <;> rfl
@[simp] theorem setS_codeBase : (setS x n v).codeBase = x.codeBase := by unfold setS; split <;> rfl
@[simp] theorem setS_codeLimit : (setS x n v).codeLimit = x.codeLimit := by unfold setS; split <;> rfl
@[simp] theorem setS_vfcsr : (setS x n v).vfcsr = x.vfcsr := by unfold setS; split <;> rfl
@[simp] theorem setS_camr : (setS x n v).camr = x.camr := by unfold setS; split <;> rfl
@[simp] theorem setS_camm : (setS x n v).camm = x.camm := by unfold setS; split <;> rfl
@[simp] theorem setS_landing : (setS x n v).landing = x.landing := by unfold setS; split <;> rfl
@[simp] theorem setS_code : (setS x n v).code = x.code := by unfold setS; split <;> rfl
@[simp] theorem setS_codeBad : (setS x n v).codeBad = x.codeBad := by unfold setS; split <;> rfl
@[simp] theorem setS_stale : (setS x n v).stale = x.stale := by unfold setS; split <;> rfl
@[simp] theorem setS_sb : (setS x n v).sb = x.sb := by unfold setS; split <;> rfl
@[simp] theorem setS_fault : (setS x n v).fault = x.fault := by unfold setS; split <;> rfl
@[simp] theorem setS_pendErr : (setS x n v).pendErr = x.pendErr := by unfold setS; split <;> rfl
@[simp] theorem setS_entry : (setS x n v).entry = x.entry := by unfold setS; split <;> rfl
@[simp] theorem setS_cam : (setS x n v).cam = x.cam := by unfold setS; split <;> rfl
@[simp] theorem setS_latch : (setS x n v).latch = x.latch := by unfold setS; split <;> rfl
@[simp] theorem setS_afterRet : (setS x n v).afterRet = x.afterRet := by unfold setS; split <;> rfl
@[simp] theorem setS_l1 : (setS x n v).l1 = x.l1 := by unfold setS; split <;> rfl
@[simp] theorem setS_miss : (setS x n v).miss = x.miss := by unfold setS; split <;> rfl
@[simp] theorem setS_discard : (setS x n v).discard = x.discard := by unfold setS; split <;> rfl
@[simp] theorem setS_streams : (setS x n v).streams = x.streams := by unfold setS; split <;> rfl
@[simp] theorem setS_jobs : (setS x n v).jobs = x.jobs := by unfold setS; split <;> rfl
@[simp] theorem setS_grant : (setS x n v).grant = x.grant := by unfold setS; split <;> rfl
@[simp] theorem setS_owner : (setS x n v).owner = x.owner := by unfold setS; split <;> rfl
@[simp] theorem setS_dispatch : (setS x n v).dispatch = x.dispatch := by unfold setS; split <;> rfl
@[simp] theorem setS_lastInst : (setS x n v).lastInst = x.lastInst := by unfold setS; split <;> rfl
@[simp] theorem setS_reload : (setS x n v).reload = x.reload := by unfold setS; split <;> rfl
@[simp] theorem setS_halts24 : (setS x n v).halts24 = x.halts24 := by unfold setS; split <;> rfl
@[simp] theorem setS_dirty24 : (setS x n v).dirty24 = x.dirty24 := by unfold setS; split <;> rfl
end

section
variable (x : Engine) (n : BitVec 3) (m : Mask)
@[simp] theorem setP_pc : (setP x n m).pc = x.pc := by unfold setP; split <;> rfl
@[simp] theorem setP_mode : (setP x n m).mode = x.mode := by unfold setP; split <;> rfl
@[simp] theorem setP_run : (setP x n m).run = x.run := by unfold setP; split <;> rfl
@[simp] theorem setP_waiting : (setP x n m).waiting = x.waiting := by unfold setP; split <;> rfl
@[simp] theorem setP_s : (setP x n m).s = x.s := by unfold setP; split <;> rfl
@[simp] theorem setP_v : (setP x n m).v = x.v := by unfold setP; split <;> rfl
@[simp] theorem setP_vm : (setP x n m).vm = x.vm := by unfold setP; split <;> rfl
@[simp] theorem setP_a : (setP x n m).a = x.a := by unfold setP; split <;> rfl
@[simp] theorem setP_eie : (setP x n m).eie = x.eie := by unfold setP; split <;> rfl
@[simp] theorem setP_rmode : (setP x n m).rmode = x.rmode := by unfold setP; split <;> rfl
@[simp] theorem setP_epc : (setP x n m).epc = x.epc := by unfold setP; split <;> rfl
@[simp] theorem setP_ecause : (setP x n m).ecause = x.ecause := by unfold setP; split <;> rfl
@[simp] theorem setP_eval : (setP x n m).eval = x.eval := by unfold setP; split <;> rfl
@[simp] theorem setP_codeBase : (setP x n m).codeBase = x.codeBase := by unfold setP; split <;> rfl
@[simp] theorem setP_codeLimit : (setP x n m).codeLimit = x.codeLimit := by unfold setP; split <;> rfl
@[simp] theorem setP_vfcsr : (setP x n m).vfcsr = x.vfcsr := by unfold setP; split <;> rfl
@[simp] theorem setP_camr : (setP x n m).camr = x.camr := by unfold setP; split <;> rfl
@[simp] theorem setP_camm : (setP x n m).camm = x.camm := by unfold setP; split <;> rfl
@[simp] theorem setP_landing : (setP x n m).landing = x.landing := by unfold setP; split <;> rfl
@[simp] theorem setP_code : (setP x n m).code = x.code := by unfold setP; split <;> rfl
@[simp] theorem setP_codeBad : (setP x n m).codeBad = x.codeBad := by unfold setP; split <;> rfl
@[simp] theorem setP_stale : (setP x n m).stale = x.stale := by unfold setP; split <;> rfl
@[simp] theorem setP_sb : (setP x n m).sb = x.sb := by unfold setP; split <;> rfl
@[simp] theorem setP_fault : (setP x n m).fault = x.fault := by unfold setP; split <;> rfl
@[simp] theorem setP_pendErr : (setP x n m).pendErr = x.pendErr := by unfold setP; split <;> rfl
@[simp] theorem setP_entry : (setP x n m).entry = x.entry := by unfold setP; split <;> rfl
@[simp] theorem setP_cam : (setP x n m).cam = x.cam := by unfold setP; split <;> rfl
@[simp] theorem setP_latch : (setP x n m).latch = x.latch := by unfold setP; split <;> rfl
@[simp] theorem setP_afterRet : (setP x n m).afterRet = x.afterRet := by unfold setP; split <;> rfl
@[simp] theorem setP_l1 : (setP x n m).l1 = x.l1 := by unfold setP; split <;> rfl
@[simp] theorem setP_miss : (setP x n m).miss = x.miss := by unfold setP; split <;> rfl
@[simp] theorem setP_discard : (setP x n m).discard = x.discard := by unfold setP; split <;> rfl
@[simp] theorem setP_streams : (setP x n m).streams = x.streams := by unfold setP; split <;> rfl
@[simp] theorem setP_jobs : (setP x n m).jobs = x.jobs := by unfold setP; split <;> rfl
@[simp] theorem setP_grant : (setP x n m).grant = x.grant := by unfold setP; split <;> rfl
@[simp] theorem setP_owner : (setP x n m).owner = x.owner := by unfold setP; split <;> rfl
@[simp] theorem setP_dispatch : (setP x n m).dispatch = x.dispatch := by unfold setP; split <;> rfl
@[simp] theorem setP_lastInst : (setP x n m).lastInst = x.lastInst := by unfold setP; split <;> rfl
@[simp] theorem setP_reload : (setP x n m).reload = x.reload := by unfold setP; split <;> rfl
@[simp] theorem setP_halts24 : (setP x n m).halts24 = x.halts24 := by unfold setP; split <;> rfl
@[simp] theorem setP_dirty24 : (setP x n m).dirty24 = x.dirty24 := by unfold setP; split <;> rfl
end

/-! ### The queue and the device -/

@[simp] theorem State.withDev_pending (s : State) (d : Device) : (s.withDev d).pending = s.pending := rfl
@[simp] theorem State.withDev_dev (s : State) (d : Device) : (s.withDev d).dev = d := rfl
@[simp] theorem State.withDev_withDev (s : State) (d d' : Device) : (s.withDev d).withDev d' = s.withDev d' := rfl
@[simp] theorem State.withDev_self (s : State) : s.withDev s.dev = s := rfl
@[simp] theorem State.withEng_pending (s : State) (e : Eng) (x : Engine) : (s.withEng e x).pending = s.pending := rfl
@[simp] theorem State.withEng_dev (s : State) (e : Eng) (x : Engine) : (s.withEng e x).dev = updEng s.dev e fun _ =>
    x := rfl

end Sys2Proof.Machine
end

