-- ==== Sys2Proof/Laws/Ops.lean ====
section
/-! SUPPORT. The shared operations of the meanings: what each of them can do, once. -/

namespace Sys2Proof.Machine

open Sys2Proof

/-! ### Acting on the device -/

/-- A command that acts completes, and leaves the queue. -/
theorem act_eq (f : Device → Device) (s : State) : act f s = .next (s.withDev (f s.dev)) := rfl

theorem act_of_eq {f : Device → Device} {s : State} (h : f s.dev = s.dev) : act f s = .next s := by
  rw [act_eq, h]; rfl

theorem act_inj {f : Device → Device} {s t : State} (h : act f s = .next t) :
    t.dev = f s.dev ∧ t.pending = s.pending := by
  cases h; exact ⟨rfl, rfl⟩

@[simp] theorem whenRun_run {d : Device} (f : Device → Device) (h : d.phase = .run) : whenRun f d = f d := by
  simp [whenRun, running, h]

theorem whenRun_other {d : Device} (f : Device → Device) (h : d.phase ≠ .run) : whenRun f d = d := by
  have : running d = false := by simp [running, h]
  simp [whenRun, this]

/-- Out of the running phase a command that needs it changes nothing. -/
theorem act_whenRun_other {s : State} (f : Device → Device) (h : s.dev.phase ≠ .run) : act (whenRun f) s = .next s :=
  act_of_eq (whenRun_other f h)

theorem act_whenRun {s : State} (f : Device → Device) (h : s.dev.phase = .run) :
    act (whenRun f) s = .next (s.withDev (f s.dev)) := by rw [act_eq, whenRun_run f h]

/-! ### Reads that may wait (R43, R393, R406) -/

/-- An effect whose reads were all served happens. -/
theorem served_eq {f : Device → Device} {d e : Device} (h : f { d with waits := false } = e) (w : e.waits = false) :
    served f d = { e with waits := d.waits } := by simp [served, h, w]

/-- An effect of which a read waits does not happen. -/
theorem served_waits {f : Device → Device} {d : Device} (w : (f { d with waits := false }).waits = true) :
    served f d = d := by simp [served, w]

/-- A command that reads memory changes nothing, or has its whole effect. -/
theorem served_cases (f : Device → Device) (d : Device) :
    served f d = d ∨ (f { d with waits := false }).waits = false ∧
      served f d = { f { d with waits := false } with waits := d.waits } := by
  cases w : (f { d with waits := false }).waits with
  | true => exact .inl (served_waits w)
  | false => exact .inr ⟨rfl, served_eq rfl w⟩

@[simp] theorem served_keeps_waits (f : Device → Device) (d : Device) : (served f d).waits = d.waits := by
  rcases served_cases f d with h | ⟨_, h⟩ <;> rw [h]

theorem act_whenServed {s : State} {f : Device → Device} {e : Device} (h : s.dev.phase = .run)
    (he : f { s.dev with waits := false } = e) (w : e.waits = false) :
    act (whenServed f) s = .next (s.withDev { e with waits := s.dev.waits }) := by
  rw [act_eq, whenServed, whenRun_run _ h, served_eq he w]

theorem act_whenServed_waits {s : State} {f : Device → Device} (w : (f { s.dev with waits := false }).waits = true) :
    act (whenServed f) s = .next s := by
  by_cases h : s.dev.phase = .run
  · exact act_of_eq (by rw [whenServed, whenRun_run _ h, served_waits w])
  · exact act_whenRun_other _ h

/-! ### Engine instructions -/

/-- An engine that cannot issue leaves its instruction without effect. -/
theorem precheck_of_not_issuable {x : Engine} (i : Instr) (h : issuable x = false) : precheck i x = (x, false) := by
  simp [precheck, h]

theorem not_issuable_of_run {x : Engine} (h : x.run ≠ .running) : issuable x = false := by
  simp [issuable, fetches, h]

/-- The checks change nothing of an engine but the CAM latch and the fault it carries. -/
theorem precheck_cases (i : Instr) (x : Engine) :
    precheck i x = (x, false) ∨
    (issuable x = true ∧ ∃ c v, precheck i x = (note (settleLatch x (wordOf i)) c v, false)) ∨
    (issuable x = true ∧ precheck i x = (settleLatch x (wordOf i), true)) := by
  unfold precheck
  by_cases h : issuable x
  · simp only [h, Bool.not_true, if_neg, Bool.false_eq_true, not_false_eq_true, true_and]
    right
    split
    · exact .inl ⟨_, _, rfl⟩
    · split
      · exact .inl ⟨_, _, rfl⟩
      · split
        · exact .inl ⟨_, _, rfl⟩
        · exact .inr rfl
  · simp [h]

theorem updEng_same (d : Device) (e : Eng) : (updEng d e fun x => x) = d := by
  simp [updEng]

theorem runEng_of_not_issuable {s : State} {e : Eng} {i : Instr} (f : Engine → Engine)
    (h : issuable (s.eng e) = false) : runEng e i f s = .next s := by
  refine act_of_eq ?_
  have : engInstr i f s.dev.engines[e] = s.dev.engines[e] := by
    simp only [engInstr, precheck_of_not_issuable i (show issuable s.dev.engines[e] = false from h)]; simp
  simp only [updEng, this]
  simp

theorem runDev_of_not_issuable {s : State} {e : Eng} {i : Instr} (f : Device → Device)
    (h : issuable (s.eng e) = false) : runDev e i f s = .next s := by
  refine act_of_eq ?_
  simp only [precheck_of_not_issuable i (show issuable s.dev.engines[e] = false from h), updEng]
  simp

/-! ### Registers of the control window -/

/-- A write of a register that is performed. -/
theorem gateWrite_takes {d : Device} {x : Nat} {w : RegAccess} (f : Device → Device) (h : d.TakesWrite x w.agent) :
    gateWrite d x w f = f d := by
  obtain ⟨hr, b, i, off, hb, hd, ha⟩ := h
  have hready : ready d = true := by rcases hr with hr | hr <;> simp [ready, hr]
  simp [gateWrite, hb, hd, hready, ha]

/-- Everything a write of a register can do. -/
theorem gateWrite_cases (d : Device) (x : Nat) (w : RegAccess) (f : Device → Device) :
    gateWrite d x w f = d ∨ gateWrite d x w f = f d ∨
    (∃ b i, gateWrite d x w f = deadAccess d b i x) ∨ ∃ b i, gateWrite d x w f = refuse d b i true := by
  unfold gateWrite
  split
  · exact .inl rfl
  · split
    · exact .inr (.inr (.inl ⟨_, _, rfl⟩))
    · split
      · exact .inl rfl
      · split
        · exact .inr (.inl rfl)
        · exact .inr (.inr (.inr ⟨_, _, rfl⟩))

/-! ### Registers of an engine -/

@[simp] theorem getV_setV_self (x : Engine) (n : BitVec 4) (c : Vector Cell 16) (m : Mask) : getV (setV x n c m) n = c := by
  simp [getV, setV]
@[simp] theorem getVm_setV_self (x : Engine) (n : BitVec 4) (c : Vector Cell 16) (m : Mask) :
    getVm (setV x n c m) n = m := by simp [getVm, setV]
theorem getV_setV_of_ne (x : Engine) {n k : BitVec 4} (c : Vector Cell 16) (m : Mask) (h : k ≠ n) :
    getV (setV x n c m) k = getV x k := by
  have : n.toNat ≠ k.toNat := fun e => h (BitVec.eq_of_toNat_eq e).symm
  simp [getV, setV, this]
theorem getVm_setV_of_ne (x : Engine) {n k : BitVec 4} (c : Vector Cell 16) (m : Mask) (h : k ≠ n) :
    getVm (setV x n c m) k = getVm x k := by
  have : n.toNat ≠ k.toNat := fun e => h (BitVec.eq_of_toNat_eq e).symm
  simp [getVm, setV, this]
@[simp] theorem getA_setA_self (x : Engine) (n : BitVec 3) (c : Vector Wide 16) : getA (setA x n c) n = c := by
  simp [getA, setA]
theorem getA_setA_of_ne (x : Engine) {n k : BitVec 3} (c : Vector Wide 16) (h : k ≠ n) : getA (setA x n c) k = getA x k := by
  have : n.toNat ≠ k.toNat := fun e => h (BitVec.eq_of_toNat_eq e).symm
  simp [getA, setA, this]

/-! ### Lists -/

theorem mem_insertNat (l : List Nat) (n k : Nat) : k ∈ insertNat l n ↔ k = n ∨ k ∈ l := by
  induction l with
  | nil => simp [insertNat]
  | cons a t ih =>
    by_cases h : n < a
    · simp [insertNat, h]
    · by_cases ha : a = n
      · subst ha; simp [insertNat]
      · simp only [insertNat, h, ha, if_false, List.mem_cons, ih]
        constructor
        · rintro (h | h | h) <;> simp [h]
        · rintro (h | h | h) <;> simp [h]

theorem takeFirst_some {α : Type} {p : α → Bool} {l r : List α} {x : α} (h : takeFirst p l = some (x, r)) :
    ∃ a b, l = a ++ x :: b ∧ r = a ++ b ∧ p x = true ∧ ∀ y ∈ a, p y = false := by
  induction l generalizing r with
  | nil => simp [takeFirst] at h
  | cons y t ih =>
    by_cases hy : p y
    · simp only [takeFirst, hy, if_true, Option.some.injEq, Prod.mk.injEq] at h
      obtain ⟨rfl, rfl⟩ := h
      exact ⟨[], _, rfl, rfl, hy, by simp⟩
    · simp only [takeFirst, hy, Bool.false_eq_true, if_false] at h
      cases ht : takeFirst p t with
      | none => simp [ht] at h
      | some q =>
        obtain ⟨z, w⟩ := q
        simp only [ht, Option.some.injEq, Prod.mk.injEq] at h
        obtain ⟨rfl, rfl⟩ := h
        obtain ⟨a, b, h1, h2, h3, h4⟩ := ih ht
        refine ⟨y :: a, b, by simp [h1], by simp [h2], h3, ?_⟩
        intro k hk
        rcases List.mem_cons.mp hk with rfl | hk
        · simpa using hy
        · exact h4 k hk

theorem takeFirst_none {α : Type} {p : α → Bool} {l : List α} (h : takeFirst p l = none) : ∀ y ∈ l, p y = false := by
  induction l with
  | nil => simp
  | cons y t ih =>
    by_cases hy : p y
    · simp [takeFirst, hy] at h
    · simp only [takeFirst, hy, Bool.false_eq_true, if_false] at h
      cases ht : takeFirst p t with
      | none =>
        intro k hk
        rcases List.mem_cons.mp hk with rfl | hk
        · simpa using hy
        · exact ih ht k hk
      | some q => simp [ht] at h

end Sys2Proof.Machine
end

