-- ==== Sys2Proof/Machine/Mesh.lean ====
section
/-! DEFINITION. The paths of the mesh: what a packet passes between two squares, and the port by which the Foyer's
traffic enters or leaves the board (R19 to R22, R516, R517). No command's values depend on a path (log entry 11). -/

namespace Sys2Proof.Machine

open Sys2Proof

/-- The numbers from `a` towards `b`, both included. -/
def walk (a b : Nat) : List Nat :=
  if a ≤ b then (List.range (b - a + 1)).map (a + ·) else (List.range (a - b + 1)).map (a - ·)

/-- The path of R20: along the source's rank to the destination's file, then along that file. -/
def rankPath (s t : Nat) : List Nat :=
  (walk (s % 8) (t % 8)).map (s / 8 * 8 + ·) ++ ((walk (s / 8) (t / 8)).drop 1).map (· * 8 + t % 8)

/-- The path along the source's file first, then along the destination's rank. -/
def filePath (s t : Nat) : List Nat :=
  (walk (s / 8) (t / 8)).map (· * 8 + s % 8) ++ ((walk (s % 8) (t % 8)).drop 1).map (t / 8 * 8 + ·)

/-- Whether two routers are joined by a link and all three are in service. -/
def linked (d : Device) (s t : Nat) : Bool :=
  routerUp d s && routerUp d t && [1, 2, 3, 4].any fun b => linkPeer s b == some t && regF d (MSH_STAT s) b 1 == 1

/-- Whether a path uses only routers and links in service. -/
def pathUp (d : Device) : List Nat → Bool
  | [] => false
  | [s] => routerUp d s
  | s :: t :: r => linked d s t && pathUp d (t :: r)

/-- The squares from which a square is reached in at most `k` hops. -/
def meshNear (d : Device) (t : Nat) : Nat → List Nat
  | 0 => [t]
  | k + 1 =>
    let l := meshNear d t k
    (List.range 64).filter fun s => l.contains s || l.any (linked d s)

/-- The least sequence of tile indices among the shortest paths, where one of `k` hops is left to go. -/
def shortestPath (d : Device) (t : Nat) : Nat → Nat → List Nat
  | 0, s => [s]
  | k + 1, s =>
    match (meshNear d t k).find? (linked d s) with
    | some n => s :: shortestPath d t k n
    | none => [s]

/-- The table path of R517, if the squares are joined at all. -/
def tablePath (d : Device) (s t : Nat) : Option (List Nat) :=
  ((List.range 64).find? fun k => (meshNear d t k).contains s).map fun k => shortestPath d t k s

/-- The path of a packet between two routers in service (R517). -/
def meshPath (d : Device) (s t : Nat) : Option (List Nat) :=
  if pathUp d (rankPath s t) then some (rankPath s t)
  else if pathUp d (filePath s t) then some (filePath s t)
  else tablePath d s t

/-- The router that serves a square: its own, or that of the neighbour which carries its local port (R516). -/
def routerOf (d : Device) (t : Nat) : Option Nat := if routerUp d t then some t else servingSquare d t

/-- The squares of the Foyer ports in the order in which a quadrant uses them: its own, the other of its hall, and
those of the other hall (R21, R22). -/
def portOrder (q : Nat) : List Nat :=
  match q with
  | 0 => [24, 31, 32, 39]
  | 1 => [31, 24, 39, 32]
  | 2 => [32, 39, 24, 31]
  | _ => [39, 32, 31, 24]

/-- The Foyer port that carries the traffic of a quadrant. -/
def foyerPort (d : Device) (q : Nat) : Option Nat := (portOrder q).find? (foyerUp d)

end Sys2Proof.Machine
end

