-- ==== Sys2Proof/Tests/Slice0.lean ====
section
/-! SUPPORT. Tests: ill-formed operands are refused, words of the spec decode to what they stand for, worked examples of
the spec, and for every statement states and operands that meet its hypotheses. -/

namespace Sys2Proof.Tests

open Sys2Proof Sys2Proof.Machine

set_option Elab.async false

/-! ### Small states -/

/-- A running part with nothing done. -/
def runDevice : Device := { resetDevice with phase := .run }

/-- A running part of which every engine is `x`. -/
def engineState (x : Engine) : State := ⟨[], { runDevice with engines := Vector.replicate 256 x }⟩

/-- A state of a device. -/
def stateOf (d : Device) : State := ⟨[], d⟩

/-- A running engine in kernel mode, and one in thread mode. -/
def kernelEngine : Engine := { resetEngine with run := .running }
def threadEngine : Engine := { resetEngine with run := .running, mode := .thread, pc := 0x2000 }

/-- An engine with scalar registers. -/
def withS (x : Engine) (l : List (Nat × Dword)) : Engine :=
  { x with s := Vector.ofFn fun i => (l.lookup i.val).getD 0 }

theorem eng_engineState (x : Engine) (e : Eng) : (engineState x).eng e = x := by simp [engineState, State.eng]

theorem kernelEngine_issues : kernelEngine.Issues :=
  ⟨rfl, rfl, rfl, rfl, fun _ h => (List.not_mem_nil h).elim, List.not_mem_nil, fun h => by cases h⟩
theorem threadEngine_issues : threadEngine.Issues :=
  ⟨rfl, rfl, rfl, rfl, fun _ h => (List.not_mem_nil h).elim, List.not_mem_nil, fun _ => by decide⟩

/-- An engine whose instruction passes the checks executes it. -/
theorem executes_of_precheck {x : Engine} {i : Instr} (h : (precheck i x).2 = true) : x.Executes i := by
  rcases precheck_cases i x with k | ⟨_, _, _, k⟩ | ⟨hi, _⟩
  · rw [k] at h; cases h
  · rw [k] at h; cases h
  · have hi' := hi
    simp only [issuable, fetches, Bool.and_eq_true, beq_iff_eq, Bool.not_eq_true', Option.isNone_iff_eq_none] at hi'
    obtain ⟨⟨⟨⟨⟨h1, h2⟩, h3⟩, h4⟩, h5⟩, h6⟩ := hi'
    simp only [precheck, hi, Bool.not_true, Bool.false_eq_true, if_false] at h
    have hf : fetchable (settleLatch x (wordOf i)) = true := by
      cases hf : fetchable (settleLatch x (wordOf i)) with
      | true => rfl
      | false => simp [hf] at h
    have hl : sirtoLegal i = true := by
      cases hl : sirtoLegal i with
      | true => rfl
      | false => simp [hf, hl] at h
    simp only [hf, hl, Bool.not_true, Bool.false_eq_true, if_false, settleLatch_mode] at h
    refine ⟨⟨h1, h2, h3, h4, ?_, by simpa using h6, ?_⟩, hl, ?_⟩
    · intro c hc
      have := List.any_eq_false.mp h5 c hc
      simpa using this
    · intro hm
      rw [fetchable_settleLatch] at hf
      simpa [fetchable, hm] using hf
    · intro hk
      cases hm : x.mode with
      | kernel => rfl
      | thread => simp [hk, hm] at h

/-- Every instruction of a list executes on an engine. -/
def allExecute (x : Engine) (l : List Instr) : Bool := l.all fun i => (precheck i x).2

theorem executes_of_all {x : Engine} {l : List Instr} (h : allExecute x l = true) (e : Eng) :
    ∀ i ∈ l, ((engineState x).eng e).Executes i := by
  intro i hi
  rw [eng_engineState]
  exact executes_of_precheck (List.all_eq_true.mp h i hi)

/-! ### Ill-formed operands are refused -/

/-- An access of a core, a start-up and a drain to vary. -/
def anAccess : CoreAccess := ⟨0x1000, 8, 0x1000, 0x1000, none, none, none, 0, .clean, 0, none, none⟩
def aBoot : BootEnv := ⟨true, 0, Vector.replicate 16 0x2005, none, none, [], [], [], [], false⟩
def aDrain : DrainEnv := ⟨none, [], 100, 150, 48000⟩

theorem test_wf_halfWrite : (Instr.engCtlWrite 0 ⟨.warden, .low, 0x100000000⟩).wf = false ∧
    (Instr.engCtlWrite 0 ⟨.warden, .low, 0xffffffff⟩).wf = true := by decide
theorem test_wf_registerOffset : (Instr.registerWrite 4 ⟨.warden, .whole, 0⟩).wf = false ∧
    (Instr.registerWrite (2 ^ 32) ⟨.warden, .whole, 0⟩).wf = false := by decide
theorem test_wf_flipUnit : (Instr.camSearchServe 0 [⟨262144, 0, false, 0⟩]).wf = false ∧
    (Instr.camSearchServe 0 [⟨262143, 0, true, 3⟩]).wf = true := by decide
theorem test_wf_flipTwice : (Instr.camSearchServe 0 [⟨5, 0, false, 0⟩, ⟨5, 1, false, 0⟩]).wf = false := by decide
theorem test_wf_splitCut : (Instr.beatTick ⟨[⟨0, ⟨0, 0, 0⟩, 3⟩], [], [], false⟩).wf = false ∧
    (Instr.errorInterruptRaise 0 .csParity ⟨0, some ⟨0, ⟨0, 0, 0⟩, 1⟩⟩).wf = false ∧
    (Instr.beatTick ⟨[⟨0, ⟨0, 0, 0⟩, 8⟩], [], [], false⟩).wf = true := by decide
theorem test_wf_lineFlip : (Instr.beatTick ⟨[], [⟨1, 3⟩], [], false⟩).wf = false ∧
    (Instr.beatTick ⟨[], [], [⟨64, 0⟩], false⟩).wf = false ∧ (Instr.beatTick ⟨[], [⟨64, 81⟩], [], false⟩).wf = false ∧
    (Instr.beatTick ⟨[], [⟨64, 80⟩], [⟨64, 1⟩], true⟩).wf = true := by decide
theorem test_wf_accessSize : (Instr.coreLoadStore 0 { anAccess with size := 3 }).wf = false ∧
    (Instr.coreLoadStore 0 anAccess).wf = true := by decide
theorem test_wf_accessAddress : (Instr.coreLoadStore 0 { anAccess with pa := 2 ^ 56 }).wf = false ∧
    (Instr.coreLoadStore 0 { anAccess with pa2 := 2 ^ 56 }).wf = false ∧
    (Instr.coreLoadStore 0 { anAccess with va := 2 ^ 64 }).wf = false := by decide
theorem test_wf_accessCause : (Instr.coreLoadStore 0 { anAccess with fault := some 64 }).wf = false ∧
    (Instr.coreLoadStore 0 { anAccess with fault2 := some 64 }).wf = false := by decide
theorem test_wf_accessData : (Instr.coreLoadStore 0 { anAccess with size := 1, store := some 256 }).wf = false :=
    by decide
theorem test_wf_boot : (Instr.coldReset { aBoot with slow := [1, 1] }).wf = false ∧
    (Instr.coldReset { aBoot with repaired := [(1, 0), (1, 0)] }).wf = false ∧
    (Instr.coldReset { aBoot with badHarts := [1, 1] }).wf = false ∧
    (Instr.coldReset { aBoot with badRouters := [1, 1] }).wf = false ∧ (Instr.coldReset aBoot).wf = true := by decide
theorem test_wf_drain : (Instr.pwrfailAccept { aDrain with lost := [1, 1] }).wf = false ∧
    (Instr.pwrfailAccept aDrain).wf = true := by decide
theorem test_wf_device : (Instr.inboundDeviceRequest 0 ⟨0, none, .memory, 4095, 2, none⟩).wf = false ∧
    (Instr.inboundDeviceRequest 0 ⟨0, none, .memory, 0, 0, none⟩).wf = false ∧
    (Instr.inboundDeviceRequest 0 ⟨0, none, .memory, 2 ^ 64, 1, none⟩).wf = false ∧
    (Instr.inboundDeviceRequest 0 ⟨0, none, .memory, 0, 1, some 256⟩).wf = false ∧
    (Instr.inboundDeviceRequest 0 ⟨0, some 0xfffff, .memory, 4094, 2, none⟩).wf = true := by decide
theorem test_wf_index : (Instr.ledgerRead 0 0 65536 []).wf = false ∧ (Instr.ledgerRead 0 0 65535 []).wf = true :=
    by decide
theorem test_wf_window : (Instr.controlWindowLoad 0 .manager 4 8).wf = false ∧
    (Instr.controlWindowLoad 0 .manager 0 2).wf = false ∧ (Instr.controlWindowLoad 0 .manager (2 ^ 32) 8).wf = false ∧
    (Instr.controlWindowLoad 0 .manager 8 8).wf = true := by decide
theorem test_wf_windowData : (Instr.controlWindowStore 0 .manager 0 4 (2 ^ 32)).wf = false := by decide
theorem test_wf_sector : (Instr.mezzanineSectorArrival 0 32).wf = false := by decide

/-! ### Words of the spec (R95, and the worked listings) -/

theorem test_decode_ld : decodeSirto 0 0x40A43000 = some (.ld 0 ⟨5, 4, 0⟩) := by decide
theorem test_decode_add : decodeSirto 0 0x04C62800 = some (.add 0 ⟨6, 6, 5⟩) := by decide
theorem test_decode_addi : decodeSirto 0 0x08840008 = some (.addi 0 ⟨4, 4, 8⟩) := by decide
theorem test_decode_bne : decodeSirto 0 0x6487FFFD = some (.bne 0 ⟨4, 7, 0xfffd⟩) := by decide
theorem test_decode_csrchins : decodeSirto 0 0x89204081 = some (.csrchins 0 ⟨9, 0, 8, 1⟩) := by decide
theorem test_decode_pld : decodeSirto 0 0xE8540000 = some (.pld 0 ⟨1, 10, 0, false, 0, 0⟩) := by decide
theorem test_decode_vld : decodeSirto 0 0xE0563010 = some (.vld 0 ⟨1, 11, 6, false, 0, 1⟩ false) := by decide
theorem test_decode_vldSigned : decodeSirto 0 0xE098FC10 = some (.vld 0 ⟨2, 12, 31, true, 0, 1⟩ false) := by decide
theorem test_decode_vcmplt : decodeSirto 0 0xA885C602 = some (.vcmplt 0 ⟨2, 1, 14, 1, true⟩ false) := by decide
theorem test_decode_vacc : decodeSirto 0 0xBC080800 = some (.vacc 0 ⟨0, 2, 0, 2, false⟩) := by decide

/-! ### Engine instructions: states that meet the hypotheses of the statements -/

/-- Addresses that stand in scalar registers of the engines below: the last byte of landing, of the kernel area's lower
neighbour, of the code window, and of memory space; and ones outside. -/
def addresses : List (Nat × Dword) :=
  [(1, 0x3ffff), (2, 0x3dfff), (3, 0x100000), (4, 0x10fff8), (5, 0x1000000000000), (6, 0x1ffffffffffc0), (7, 0x40000),
   (8, 0x3e000), (9, 0x101fff), (10, 0x102000), (11, 0x102002), (12, 0x1000000000001), (13, 0x110000), (14, 0x3fff8),
   (15, 0x3dff8), (16, 0xfffff), (17, 127), (18, 128)]
def kernelAt : Engine := withS kernelEngine addresses
def threadAt : Engine := withS threadEngine addresses

theorem meets_ScalarRegisterResults :
    allExecute kernelEngine ((scalarResults 0 ⟨31, 30, 0⟩ 0 0).map (·.1)) = true ∧
    allExecute threadEngine ((scalarResults 255 ⟨0, 1, 0⟩ 0 0).map (·.1)) = true := by decide
theorem meets_ScalarImmediateResults :
    allExecute kernelEngine ((immediateResults 0 ⟨31, 0, 0xffff⟩ ⟨31, 30, 0, 63⟩ ⟨31, 30, 0, 63, 0⟩ fun _ =>
        0).map (·.1)) = true ∧
    allExecute threadEngine ((immediateResults 0 ⟨0, 0, 0x8000⟩ ⟨0, 1, 0, 0⟩ ⟨0, 1, 0, 0, 63⟩ fun _ =>
        0).map (·.1)) = true := by
  decide
theorem meets_BranchTargets :
    allExecute kernelEngine ((branchResults 0 ⟨1, 2, 0x8000⟩ ⟨1, 0x7fff⟩ 0 0 0).map (·.1)) = true := by decide
/-- Both ways of each branch are taken by some operands. -/
theorem meets_BranchTargets_taken :
    ((0 : Dword) = 0) ∧ ((0 : Dword) ≠ 1) ∧ ((-1 : Dword).toInt < (0 : Dword).toInt) ∧
        ((0 : Dword).toNat < (-1 : Dword).toNat) ∧
    ¬ ((0 : Dword).toInt < (-1 : Dword).toInt) ∧ ((1 : Mask) ≠ 0) := by decide
theorem meets_JumpAndLink : allExecute kernelEngine [.jal 0 ⟨1, 0, 4⟩, .jalr 0 ⟨1, 1, 3⟩] = true := by decide
/-- A thread fetch outside its code, a kernel fetch anywhere, and the two instructions of the kernel in thread mode. -/
theorem meets_RefusedInstructionsFault :
    let x := { threadEngine with pc := 0x1ffc }
    x.mode = .thread ∧ ¬ (x.codeBase.toNat ≤ x.pc.toNat ∧ x.pc.toNat < x.codeLimit.toNat) ∧
    kernelEngine.Issues ∧ threadEngine.Issues ∧ (1 : BitVec 5) ≠ 0 ∧ legalNone ⟨0, 0, 0, 0⟩ = true :=
  ⟨rfl, by decide, kernelEngine_issues, threadEngine_issues, by decide, by decide⟩

theorem meets_LoadsFromLandingAndCode :
    allExecute kernelAt ((loadForms 0 ⟨20, 14, 0⟩).map (·.1)) = true ∧
        (addrOf kernelAt ⟨20, 14, 0⟩).toNat + 8 ≤ 0x40000 ∧
    allExecute threadAt ((loadForms 0 ⟨20, 15, 0⟩).map (·.1)) = true ∧
        (addrOf threadAt ⟨20, 15, 0⟩).toNat + 8 ≤ 0x3e000 ∧
    0x100000 ≤ (addrOf kernelAt ⟨20, 4, 0⟩).toNat ∧ (addrOf kernelAt ⟨20, 4, 0⟩).toNat + 8 ≤ 0x110000 ∧
    (addrOf kernelAt ⟨20, 16, 1⟩).toNat = 0x100000 := by decide
theorem meets_StoresToLanding :
    allExecute kernelAt ((storeForms 0 ⟨20, 14, 0⟩).map (·.1)) = true ∧
    allExecute threadAt ((storeForms 0 ⟨20, 15, 0⟩).map (·.1)) = true := by decide
theorem meets_AccessFaults_space :
    (addrOf kernelAt ⟨20, 7, 0⟩).toNat = 0x40000 ∧ (addrOf kernelAt ⟨20, 1, 0⟩).toNat + 2 = 0x40001 ∧
    (addrOf kernelAt ⟨20, 13, 0⟩).toNat = 0x110000 ∧ (addrOf kernelAt ⟨20, 7, 0⟩).toNat + 1 > 0x40000 := by decide
theorem meets_AccessFaults_kernelArea :
    0x3e000 < (addrOf threadAt ⟨20, 8, 0⟩).toNat + 1 ∧ (addrOf threadAt ⟨20, 14, 0⟩).toNat + 8 ≤ 0x40000 ∧
    0x3e000 < (addrOf threadAt ⟨20, 2, 0⟩).toNat + 2 := by decide
theorem meets_AccessFaults_code :
    0x100000 ≤ (addrOf kernelAt ⟨20, 3, 0⟩).toNat ∧ (addrOf kernelAt ⟨20, 9, 0⟩).toNat < 0x102000 ∧
    0x102000 ≤ (addrOf kernelAt ⟨20, 10, 0⟩).toNat ∧ (addrOf kernelAt ⟨20, 4, 0⟩).toNat + 8 ≤ 0x110000 ∧
    (addrOf kernelAt ⟨20, 11, 0⟩).toNat % 4 ≠ 0 := by decide
theorem meets_AccessFaults_align :
    2 ^ 48 ≤ (addrOf kernelAt ⟨20, 12, 0⟩).toNat ∧ (addrOf kernelAt ⟨20, 12, 0⟩).toNat % 2 ≠ 0 := by decide

/-- A running part with 16 GiB on every channel whose IOMMU passes addresses through. -/
def memDevice : Device := { runDevice with
  regs := [(DRC_CFG 0, 0x1005), (IOM_DDTP, 1)] }
def memState (x : Engine) : State := ⟨[], { memDevice with engines := Vector.replicate 256 x }⟩
theorem memState_eng (x : Engine) (e : Eng) : (memState x).eng e = x := by simp [memState, State.eng]

/-- With the IOMMU bare an address of main memory is its own translation, and nothing else happens. -/
theorem xlatMem_bare {d : Device} (p : Part) {va : Nat} (wr : Bool) (h : regF d IOM_DDTP 0 4 = 1)
    (m : inMain d va = true) : xlatMem d p va wr = (some va, d) := by
  simp [xlatMem, xlat, xlatDev, xlatReq, xlatFor, h, leafUpdate, m]

theorem memDevice_bare : regF memDevice IOM_DDTP 0 4 = 1 := by decide
theorem memDevice_main : inMain memDevice 0x1000 = true ∧ inMain memDevice 0x3ffffffff = true := by decide

/-- A full store buffer, and a line of L1 that it does not bear on. -/
def fullSb : List SbEntry := List.replicate 4 ⟨0x40, .store 0 0xff, false, false⟩
def heldLine : L1Line := ⟨0, 0x1234, true, false, 0, false⟩

theorem meets_MemorySpaceLoadsAndStores :
    let x := { kernelAt with l1 := [(0, heldLine)] }
    allExecute x ((loadForms 0 ⟨20, 5, 0⟩).map (·.1)) = true ∧
    allExecute x ((storeForms 0 ⟨20, 6, 0⟩).map (·.1)) = true ∧
    2 ^ 48 ≤ (addrOf x ⟨20, 5, 0⟩).toNat ∧ (addrOf x ⟨20, 6, 0⟩).toNat + 8 ≤ 2 ^ 49 ∧
    (addrOf x ⟨20, 5, 0⟩).toNat % 8 = 0 ∧ heldLine.bad = false ∧
    x.sb.length < 4 ∧ 4 ≤ fullSb.length := by decide
theorem meets_MemorySpace_line : l1Find { kernelAt with l1 := [(0, heldLine)] } (lineOf 0) = some (0, heldLine) :=
    by rfl
theorem meets_MemorySpace_apart : ∀ b ∈ fullSb, sbBytes b (lineOf 0) &&& enables 0 8 = 0 := by
  intro b hb
  rw [List.eq_of_mem_replicate hb]; decide
theorem meets_MemorySpace_translation (x : Engine) (e : Eng) (wr : Bool) :
    let d := ((memState x).withEng e x).dev
    xlatMem d (partOf x) ((addrOf kernelAt ⟨20, 5, 0⟩).toNat - 2 ^ 48) wr = (some 0, d) := by
  intro d
  have : (addrOf kernelAt ⟨20, 5, 0⟩).toNat - 2 ^ 48 = 0 := by decide
  rw [this]
  exact xlatMem_bare _ _ (show regF memDevice IOM_DDTP 0 4 = 1 by decide) (show inMain memDevice 0 = true by decide)

theorem meets_FenceFlushAndYield :
    allExecute kernelAt [.fence 0 ⟨0, 0, 0, 0⟩, .iflush 0 ⟨0, 0, 0, 0⟩, .yield 0 ⟨0, 0, 0, 0⟩] = true ∧
    allExecute threadAt [.fence 0 ⟨0, 0, 0, 0⟩, .iflush 0 ⟨0, 0, 0, 0⟩, .yield 0 ⟨0, 0, 0, 0⟩] = true ∧
    allExecute { kernelAt with sb := fullSb } [.fence 0 ⟨0, 0, 0, 0⟩] = true ∧ kernelAt.sb = [] ∧
        fullSb ≠ [] := by decide
theorem meets_BeatwaitAndReturn :
    allExecute kernelAt [.beatwait 0 ⟨0, 0, 0, 0⟩, .eret 0 ⟨0, 0, 0, 0⟩] = true ∧
    allExecute { kernelAt with rmode := .thread } [.eret 0 ⟨0, 0, 0, 0⟩] = true ∧
    allExecute { kernelAt with rmode := .thread, discard := true } [.eret 0 ⟨0, 0, 0, 0⟩] = true ∧
    kernelAt.pendErr = [] ∧ kernelAt.rmode = .kernel ∧ kernelAt.dispatch = none := by decide
theorem meets_ControlRegisters :
    allExecute kernelAt [.crr 0 ⟨20, 0, 0, 0⟩, .crr 0 ⟨20, 0, 0, 0x13⟩, .crr 0 ⟨20, 0, 0, 0x14⟩,
      .crw 0 ⟨0, 20, 0, 0⟩, .crw 0 ⟨0, 20, 0, 0x13⟩, .crw 0 ⟨0, 20, 0, 0x3f⟩] = true ∧
    allExecute threadAt [.crr 0 ⟨20, 0, 0, 3⟩, .crr 0 ⟨20, 0, 0, 4⟩, .crr 0 ⟨20, 0, 0, 0x0a⟩, .crr 0 ⟨20, 0, 0, 0x0b⟩,
      .crw 0 ⟨0, 20, 0, 0x0a⟩, .crw 0 ⟨0, 20, 0, 0x0b⟩] = true ∧ kernelAt.pendErr = [] := by decide
theorem meets_MaintenanceInstructions :
    allExecute kernelAt ((maintForms 0 ⟨0, 17, 0, 1⟩).map (·.1)) = true ∧
    allExecute kernelAt ((maintForms 0 ⟨0, 18, 0, 1⟩).map (·.1)) = true ∧
    allExecute kernelAt ((maintForms 0 ⟨0, 18, 0, 3⟩).map (·.1)) = true ∧
    allExecute threadAt ((maintForms 0 ⟨0, 5, 0, 0⟩).map (·.1)) = true ∧
    (getS kernelAt 17).toNat % 2 ^ 16 < 128 ∧ 128 ≤ (getS kernelAt 18).toNat % 2 ^ 16 ∧
    ¬ (2 ^ 48 ≤ (getS kernelAt 7).toNat) := by decide

/-- An engine of a running part with an open entry, and one that carries a synchronous fault in each mode. -/
theorem meets_HandlerEntry :
    let s := engineState { threadAt with entry := some ⟨0x2000, [⟨.tick, 0⟩, ⟨.accSpace, 7⟩]⟩ }
    s.dev.phase = .run ∧ (s.eng 0).entry = some ⟨0x2000, [⟨.tick, 0⟩, ⟨.accSpace, 7⟩]⟩ := by
  exact ⟨rfl, by rw [eng_engineState]⟩
theorem meets_SynchronousExceptions :
    let x := { threadAt with fault := some ⟨.align, 3⟩ }
    let y := { kernelAt with fault := some ⟨.align, 3⟩, halts24 := 1 }
    (engineState x).dev.phase = .run ∧ x.run = .running ∧ x.entry = none ∧ x.mode = .thread ∧ y.mode = .kernel ∧
    y.run = .running ∧ y.entry = none ∧ y.halts24 < 2 := by
  exact ⟨rfl, rfl, rfl, rfl, rfl, rfl, rfl, by decide⟩

/-! ### Vector instructions -/

theorem meets_LaneArithmetic :
    allExecute threadAt ((laneResults 0 ⟨15, 14, 13, 7, false⟩ 0 0).map (·.1)) = true ∧
    allExecute kernelAt ((laneResults 0 ⟨0, 0, 31, 0, true⟩ 0 0).map (·.1)) = true ∧
    allExecute kernelAt ((laneResults1 0 ⟨15, 14, 0, 1, false⟩ 0).map (·.1)) = true := by decide
theorem meets_PairArithmetic :
    allExecute threadAt ((pairResults 0 ⟨15, 14, 13, 7, false⟩ 0 0).map (·.1)) = true ∧
    allExecute kernelAt ((pairResults 0 ⟨0, 0, 31, 0, true⟩ 0 0).map (·.1)) = true := by decide
theorem meets_VectorCompares :
    allExecute threadAt ((compareResults (w := 40) 0 ⟨0, 14, 13, 7, false⟩ false 0 0).map (·.1)) = true ∧
    allExecute kernelAt ((compareResults (w := 40) 0 ⟨7, 0, 31, 0, true⟩ true 0 0).map (·.1)) = true := by decide
theorem meets_PredicateInstructions :
    allExecute threadAt [.pand 0 ⟨7, 6, 5, 0, false⟩, .por 0 ⟨0, 6, 5, 0, false⟩, .pxor 0 ⟨7, 6, 5, 0, false⟩,
      .pandn 0 ⟨7, 6, 5, 0, false⟩, .pnot 0 ⟨7, 6, 0, 0, false⟩, .pmovs 0 ⟨0, 7, 31, 0, true⟩,
      .ppopc 0 ⟨0, 7, 31, 0, true⟩, .pfirst 0 ⟨0, 7, 0, 0, true⟩, .pset 0 ⟨7, 0, 31, 0, true⟩,
      .vmtop 0 ⟨7, 15, 0, 0, false⟩, .ptovm 0 ⟨15, 7, 0, 0, false⟩, .vmand 0 ⟨15, 7, 0, 0, false⟩] = true := by decide
theorem meets_LaneMoves :
    allExecute threadAt [.vsplat 0 ⟨15, 0, 31, 7, true⟩, .viota 0 ⟨15, 0, 31, 7, true⟩, .vsel 0 ⟨15, 14, 13, 7, false⟩,
      .vcompress 0 ⟨15, 14, 0, 7, false⟩, .vexpand 0 ⟨15, 14, 0, 7, false⟩, .vperm 0 ⟨15, 14, 12, 7, false⟩,
      .vmovv 0 ⟨15, 0, 31, 0, true⟩ 15, .vmovs 0 ⟨0, 15, 31, 0, true⟩ 15] = true := by decide
theorem meets_VectorSort :
    allExecute threadAt [.vsort 0 ⟨14, 15, 13, 0, false⟩ ⟨true, true, false⟩] = true := by decide
/-- Two registers of equal keys are ordered. -/
theorem meets_VectorMerge :
    allExecute threadAt [.vmerge 0 ⟨14, 15, 13, 0, false⟩ ⟨false, false, true⟩] = true ∧
    sortedBy ⟨false, false, true⟩ (fun i => ⟨0, true, i⟩) (List.range 16) ∧
    sortedBy ⟨false, false, true⟩ (fun i => ⟨0, true, i⟩) ((List.range 16).map (16 + ·)) := by
  refine ⟨by decide, ?_, ?_⟩ <;> simp only [sortedBy] <;> decide
theorem meets_ScansAndReductions :
    allExecute threadAt [.vscan 0 ⟨15, 14, 31, 7, true⟩, .vscanx 0 ⟨15, 14, 0, 7, false⟩,
        .vrsum 0 ⟨15, 14, 0, 7, false⟩,
      .vrsumu 0 ⟨15, 14, 0, 7, false⟩, .vrcnt 0 ⟨15, 14, 0, 7, false⟩, .vrasum 0 ⟨15, 7, 0, 7, false⟩,
      .vrmin 0 ⟨15, 14, 0, 7, false⟩, .vrmax 0 ⟨15, 14, 0, 7, false⟩, .vrminu 0 ⟨15, 14, 0, 7, false⟩,
      .vrmaxu 0 ⟨15, 14, 0, 7, false⟩] = true := by decide
theorem meets_Accumulators :
    allExecute threadAt [.vacc 0 ⟨7, 14, 0, 7, false⟩, .vaccu 0 ⟨7, 14, 0, 7, false⟩, .vaccm 0 ⟨7, 14, 13, 7, false⟩,
      .vaccmu 0 ⟨7, 14, 31, 7, true⟩, .vaclr 0 ⟨7, 0, 0, 7, false⟩, .vamov 0 ⟨14, 7, 0, 0, false⟩] = true := by decide
theorem meets_FloatArithmetic :
    allExecute threadAt ((floatResults 0 ⟨15, 14, 0, 7, false⟩ false).map (·.1)) = true ∧
    allExecute kernelAt ((floatResults 0 ⟨15, 14, 0, 7, false⟩ true).map (·.1)) = true := by decide
theorem meets_FloatCompares :
    allExecute threadAt [.vfeq 0 ⟨7, 14, 13, 7, false⟩ false, .vflt 0 ⟨7, 14, 31, 7, true⟩ true,
      .vfle 0 ⟨7, 14, 13, 7, false⟩ true] = true := by decide
theorem meets_Conversions :
    allExecute threadAt ((laneConversions 0 ⟨15, 14, 0, 7, false⟩).map (·.1)) = true ∧
    allExecute threadAt ((pairConversions 0 ⟨15, 14, 0, 7, false⟩ true).map (·.1)) = true ∧
    allExecute threadAt [.vnarrowi 0 ⟨15, 14, 0, 7, false⟩ true, .vnarrowf 0 ⟨15, 14, 0, 7,
        false⟩ false] = true := by decide

/-- Bit addresses at the end of landing in each mode. -/
def bitsAt : List (Nat × Dword) := [(1, 0x200000 - 16), (2, 0x1f0000 - 16), (3, 0), (4, 0x3fff8), (5, 0x3dff8)]
theorem meets_PackedLoads :
    allExecute (withS kernelEngine bitsAt) [.vld 0 ⟨15, 1, 0, false, 0, 0⟩ false,
        .vld 0 ⟨14, 3, 63, true, 0, 0⟩ true] = true ∧
    (getS (withS kernelEngine bitsAt) 1).toNat + topActive (fun k =>
        (getP kernelEngine 0).getLsbD k) 16 * 1 ≤ 8 * 0x40000 ∧
    (getS (withS threadEngine bitsAt) 2).toNat + 16 * 1 ≤ 8 * 0x3e000 := by decide
theorem meets_PackedStores :
    allExecute (withS threadEngine bitsAt) [.vst 0 ⟨15, 2, 0, false, 0, 0⟩ false,
        .vst 0 ⟨14, 3, 63, false, 0, 0⟩ true] = true ∧
    (getS (withS threadEngine bitsAt) 3).toNat + 8 * 64 ≤ 8 * 0x3e000 := by decide
theorem meets_BitmapLoadsAndStores :
    allExecute (withS threadEngine bitsAt) [.pld 0 ⟨7, 2, 0, false, 0, 0⟩, .pst 0 ⟨7, 2, 0, false, 0, 0⟩,
      .vmld 0 ⟨15, 2, 0, false, 0, 0⟩, .vmst 0 ⟨15, 2, 0, false, 0, 0⟩] = true ∧
    (getS (withS threadEngine bitsAt) 2).toNat + 16 ≤ 8 * 0x3e000 ∧
    (getS (withS kernelEngine bitsAt) 1).toNat + 16 ≤ 8 * 0x40000 := by decide
theorem meets_GatherAndTableAccumulate :
    allExecute (withS threadEngine bitsAt) [.vgather 0 ⟨15, 14, 5, 0, true⟩ ⟨3, true, true⟩,
        .vacct 0 ⟨15, 14, 5, 0, true⟩] = true ∧
    ((getS (withS threadEngine bitsAt) 5).toNat + 0 * 5) % 2 ^ 64 + 5 ≤ 0x3e000 ∧
    ((getS (withS threadEngine bitsAt) 5).toNat + 8 * 0) % 2 ^ 64 + 8 ≤ 0x3e000 := by decide

/-! ### Worked results -/

/-- An engine after an instruction of engine 0. -/
def after (i : Instr) (x : Engine) : Engine :=
  match exec i (engineState x) with
  | .next t => t.eng 0
  | _ => x

/-- R99: division by zero, and the most negative number by −1. -/
theorem test_div : divS 5 0 = -1 ∧ remS 5 0 = 5 ∧ divS 0x8000000000000000 (-1) = 0x8000000000000000 ∧
    remS 0x8000000000000000 (-1) = 0 := by decide
/-- R98: MULH of −1 by −1 is 0 and MULHU is 2^64 − 2. -/
theorem test_mulh : mulHigh (-1 : Dword) (-1) = 0 ∧ mulHighU (-1 : Dword) (-1) = 0xfffffffffffffffe := by decide
/-- R103: BNE with off16 = −3 goes back 12 bytes. -/
theorem test_bne : (after (.bne 0 ⟨1, 2, 0xfffd⟩) { kernelAt with pc := 0x2010 }).pc = 0x2004 := by decide
/-- R90: a write of s0 is discarded. -/
theorem test_s0 : (after (.addi 0 ⟨0, 0, 5⟩) kernelAt).s = kernelAt.s ∧
    (after (.addi 0 ⟨0, 0, 5⟩) kernelAt).pc = 4 := by decide
/-- R101: LB extends the sign of the byte 0x80. -/
theorem test_lb : getS (after (.lb 0 ⟨20, 2, 0⟩) { kernelAt with landing := [(0x3dfff,
    0x80)] }) 20 = 0xffffffffffffff80 := by
  decide
/-- R53: a store of 8 bytes at an odd address of landing. -/
theorem test_sd : mread (after (.sd 0 ⟨5, 17, 0⟩) kernelAt).landing 127 8 = 0x1000000000000 := by decide

/-! ### Registers -/

/-- Whether a write or read of a register is performed, as a Bool. -/
def takes (d : Device) (x : Nat) (ag : Agent) (wr : Bool) : Bool :=
  ready d && (match blkOf x with | some (b, i, off) => !deadBlk d b i && accepts b off ag wr | none => false)

theorem takes_block {d : Device} {x : Nat} {ag : Agent} {wr : Bool} (h : takes d x ag wr = true) :
    (d.phase = .run ∨ d.phase = .recovery) ∧
    ∃ b i off, blkOf x = some (b, i, off) ∧ deadBlk d b i = false ∧ accepts b off ag wr = true := by
  simp only [takes, Bool.and_eq_true] at h
  obtain ⟨hr, h⟩ := h
  refine ⟨by simpa [ready] using hr, ?_⟩
  cases hb : blkOf x with
  | none => simp [hb] at h
  | some q =>
    obtain ⟨b, i, off⟩ := q
    simp only [hb, Bool.and_eq_true, Bool.not_eq_true'] at h
    exact ⟨b, i, off, rfl, h.1, h.2⟩

theorem takesWrite_of {d : Device} {x : Nat} {ag : Agent} (h : takes d x ag true = true) : d.TakesWrite x ag :=
  ⟨(takes_block h).1, (takes_block h).2⟩
theorem takesRead_of {d : Device} {x : Nat} {ag : Agent} (h : takes d x ag false = true) : d.TakesRead x ag :=
  ⟨(takes_block h).1, (takes_block h).2⟩

/-- A write of the whole register. -/
def whole (ag : Agent) (v : Dword) : RegAccess := ⟨ag, .whole, v⟩

/-! ### Caches -/

/-- An engine whose oldest store meets its line in L1, one whose store waits for a miss, one with a maintenance entry.
-/
def storingEngine : Engine := { kernelAt with
  sb := [⟨0x1000, .store 0xff 1, true, false⟩], l1 := [(l1Key 0x1000 0, ⟨0x1000, 0, true, false, 0, false⟩)] }
def missingEngine : Engine := { kernelAt with
  sb := [⟨0x1000, .store 0xff 1, true, false⟩], miss := some ⟨0x2000, 0, false, none⟩ }
def cleaningEngine : Engine := { kernelAt with sb := [⟨0x1000, .maintAddr true true false, true, false⟩] }
theorem meets_StoreBufferDrains :
    (engineState storingEngine).dev.phase = .run ∧ storingEngine.discard = false ∧
    l1Find storingEngine 0x1000 = some (l1Key 0x1000 0, ⟨0x1000, 0, true, false, 0, false⟩) ∧
    l1Find missingEngine 0x1000 = none ∧ (1 : BitVec 64) ≠ BitVec.allOnes 64 ∧ l1Find cleaningEngine 0x1000 = none ∧
    cleaningEngine.miss = none := ⟨rfl, rfl, rfl, rfl, by decide, rfl, rfl⟩
theorem meets_DiscardEnds :
    let x := { kernelAt with discard := true, sb := [⟨0, .store 0 1, true, true⟩] }
    (engineState x).dev.phase = .run ∧ (∃ b ∈ x.sb, b.thread = true ∧ b.old = true) ∧
    ∀ b ∈ fullSb, b.thread = true → b.old = false := by
  refine ⟨rfl, ⟨_, List.mem_singleton.mpr rfl, rfl, rfl⟩, ?_⟩
  intro b hb
  rw [List.eq_of_mem_replicate hb]; exact fun h => by cases h
theorem meets_L1Fills :
    let m : L1Miss := ⟨0x1000, 0, true, some (some 5)⟩
    (∃ w < 4, sfind kernelAt.l1 (l1Key m.line w) = none) ∧ m.answer = some (some 5) ∧
    ({ m with answer := some none } : L1Miss).load = true ∧ { kernelAt with eie := true }.entry = none :=
  ⟨⟨0, by decide, rfl⟩, rfl, rfl, rfl⟩

def noSector : MezSector := ⟨false, false, false, 0, 0, false⟩
/-- A mezzanine with a fill that waits for two sectors, of which one has been answered. -/
def fillMez : Mez := { resetMez with
  fill := some ⟨0x1000, [0, 1], 0, 0⟩, answers := [(0x1000, some 7)]
  lines := [(mezKey 0x1000 0, ⟨0x1000, 0, Vector.replicate 4 noSector⟩)] }
def victimMez (b : Bool) : Mez := { resetMez with vb := [⟨0x1000, Vector.replicate 4 noSector, b⟩] }
theorem meets_MezzanineFills :
    runDevice.phase = .run ∧ (updMez runDevice 3 fun _ => fillMez).mez[3].fill = some ⟨0x1000, [0, 1], 0, 0⟩ ∧
    (0x1000 / 64 % 4 ∈ [0, 1]) ∧ ([0, 1].filter (· != 0x1000 / 64 % 4)) ≠ [] ∧
    mezFind fillMez 0x1000 = some (mezKey 0x1000 0, ⟨0x1000, 0, Vector.replicate 4 noSector⟩) :=
  ⟨rfl, rfl, by decide, by decide, rfl⟩
theorem meets_VictimWrites :
    ∀ b, (updMez runDevice 3 fun _ => victimMez b).mez[3].vb = [⟨0x1000, Vector.replicate 4 noSector, b⟩] ∧
      (victimMez b).queue = [] ∧ ∀ j : Fin 4, winHolds runDevice (0x1000 + 64 * j.val) = false := by
  intro b
  refine ⟨rfl, rfl, ?_⟩
  decide
theorem meets_CoherentWriteThenRead :
    0x1000 % 64 = 0 ∧ inMain memDevice 0x1000 = true ∧ chanFailed memDevice (chanOf memDevice 0x1000) = false ∧
    memDevice.mirrors = [] ∧ winHolds memDevice 0x1000 = false := by decide
def aGalLine : GalLine := ⟨0x1000, 5, true, false, 0, 2⟩
/-- A slice with a request that it hits, one that it misses, and one with a dirty victim. -/
theorem meets_GalleryRequests :
    let g : Gallery := { resetGal with reqs := [⟨0, 0x1000, 0⟩], lines := [(galKey 0x1000 0, aGalLine)] }
    galFind g 0x1000 = some (galKey 0x1000 0, aGalLine) ∧ galFind resetGal 0x1000 = none ∧ g.victims = [] ∧
    modified memDevice 0x1000 = none ∧ inDram memDevice 0x1000 = true ∧ inDram memDevice aGalLine.line = true ∧
    memDevice.mirrors = [] := ⟨rfl, rfl, rfl, rfl, by decide, by decide, rfl⟩

/-! ### The engine's registers, and the beat -/

theorem meets_EngineControlWrite :
    takes runDevice (ENG_CTL 255) .warden true = true ∧ deadBlk runDevice .eng 255 = false ∧ Agent.manager ≠ .warden ∧
    runDevice.phase = .run := by decide
theorem meets_CodeStoreAccess :
    takes runDevice (ENG_CS_DATA 255) .warden true = true ∧ takes runDevice (ENG_CS_DATA 0) .warden false = true ∧
    (runDevice.engines[0]).run = .held ∧ kernelEngine.run ≠ .held ∧ regF runDevice (ENG_CTL 0) 1 1 = 0 ∧
    regF runDevice (ENG_CS_ADDR 0) 2 14 < 0x800 ∧ regF (setReg runDevice (ENG_CTL 0) 1 1 1) (ENG_CTL 0) 1 1 = 1 ∧
    0x800 ≤ regF (setReg runDevice (ENG_CS_ADDR 0) 2 14 0x3fff) (ENG_CS_ADDR 0) 2 14 := by decide
theorem meets_KernelReload :
    let x := { kernelAt with run := .halted, reload := true }
    x.run = .halted ∧ x.reload = true ∧ keysRise runDevice.warden.image.kernel = true ∧ kernelAt.run ≠ .halted :=
  ⟨rfl, rfl, rfl, by decide⟩
theorem meets_ErrorInterrupts :
    threadEngine.Issues ∧ 0x2000 ≤ threadEngine.pc.toNat ∧ kernelEngine.Issues ∧ kernelEngine.pc.toNat < 0x2000 ∧
    kernelEngine.halts24 < 2 ∧ resetEngine.run ≠ .running :=
  ⟨threadEngine_issues, by decide, kernelEngine_issues, by decide, by decide, by decide⟩
theorem meets_BeatTick :
    let d := setReg runDevice (ENG_CTL 1) 0 1 0
    threadAt.entry = none ∧ threadAt.dirty24 < 3 ∧ regF d (ENG_CTL 1) 0 1 = 0 ∧ d.ras.fatal = false ∧
    d.engines[1].run = .held := by decide
theorem meets_BeatRegisterWrites :
    takes runDevice BEAT_PERIOD .manager true = true ∧ takes runDevice BEAT_PHASE .manager true = true ∧
    takes runDevice BEAT_CTL .warden true = true ∧ regF runDevice BEAT_CTL 63 1 = 0 ∧
    (whole .manager 400).value.toNat % 2 ^ 9 = 400 ∧ (whole .manager 401).value.toNat % 2 ^ 9 = 401 ∧
    (whole .manager 9).value.toNat % 2 ^ 9 = 9 ∧ (whole .manager 10).part = .whole ∧
    regF (setReg runDevice BEAT_CTL 63 1 1) BEAT_CTL 63 1 = 1 := by decide
theorem meets_ExternalLock :
    let d := setReg { runDevice with beat := { runDevice.beat with lastEdge := some 0 } } BEAT_CTL 0 1 1
    regF runDevice BEAT_CTL 0 1 = 0 ∧ regF d BEAT_CTL 0 1 = 1 ∧ d.beat.lastEdge = some 0 ∧
    2 * (19999 - 0) < 1000 * regF d BEAT_PERIOD 16 9 ∧ 1000 * regF d BEAT_PERIOD 16 9 ≤ 2 * (20000 - 0) ∧
    0 + 8 * (1000 * regF d BEAT_PERIOD 16 9) ≤ 320000 ∧ regF d BEAT_STAT 0 2 ≠ 3 ∧
    regF (setReg d BEAT_STAT 0 2 3) BEAT_STAT 0 2 = 3 := by decide

/-! ### Streams and sieve -/

/-- Landing with a stream descriptor at 0x1000: handle 5, buffer at 0x2000 of 4 KiB. -/
def descLanding : List Host.Cell := [(0x1008, 5), (0x1021, 0x20), (0x1029, 0x10)]
/-- Landing with a descriptor whose buffer would end past the kernel area's start. -/
def farLanding : List Host.Cell := [(0x1008, 5), (0x1020, 0xc0), (0x1021, 0xdf), (0x1022, 3), (0x1029, 0x10)]
def streamRegs : List (Nat × Dword) := [(1, 0x1000), (2, 0x3dfc0), (3, 0x3ffc1), (4, 0x3df81), (5, 0x3dfc1), (6, 4),
    (7, 3), (8, 2)]
def streamEngine : Engine := { withS threadEngine streamRegs with landing := descLanding }
def busyStreamer (st : StreamState) : Streamer := { freeStreamer with st := st, filled := 64 }

theorem meets_StreamOpen :
    allExecute streamEngine [.sopen 0 ⟨20, 1, 0, 0⟩, .sopen 0 ⟨20, 3, 0, 0⟩, .sopen 0 ⟨20, 4, 0, 0⟩] = true ∧
    (getS streamEngine 1).toNat + 64 ≤ 0x3e000 ∧ (getS streamEngine 2).toNat + 64 = 0x3e000 ∧
    (mget streamEngine.landing 0x1000).toNat % 4 ≠ 1 ∧ mread streamEngine.landing 0x1020 8 + 0x1000 ≤ 0x3e000 ∧
    mread streamEngine.landing 0x1028 4 = 0x1000 ∧ streamEngine.streams[0].st = .free ∧
    0x40000 < (getS streamEngine 3).toNat + 64 ∧ (getS streamEngine 5).toNat + 64 = 0x3e001 ∧
    (getS streamEngine 4).toNat % 64 ≠ 0 ∧ (getS streamEngine 4).toNat + 64 ≤ 0x3e000 ∧
    mread farLanding 0x1020 8 < 0x3e000 ∧ 0x3e000 < mread farLanding 0x1020 8 + mread farLanding 0x1028 4 := by decide
theorem meets_StreamOpen_full :
    ∀ k : StreamNo, ({ streamEngine with streams := Vector.replicate 4 (busyStreamer .running) }).streams[k].st ≠ .free := by decide
theorem meets_StreamWaitAndClose :
    allExecute streamEngine [.swait 0 ⟨20, 7, 8, 0⟩, .sclose 0 ⟨0, 7, 0, 0⟩, .swait 0 ⟨20, 6, 8, 0⟩,
        .sclose 0 ⟨0, 6, 0, 0⟩] = true ∧
    (getS streamEngine 7).toNat = (3 : StreamNo).val ∧ 4 ≤ (getS streamEngine 6).toNat ∧
    (busyStreamer .running).filled = 64 ∧ streamEngine.streams[(3 : StreamNo)].job = none := by decide
def oneJob : SieveJob := ⟨0, 0x3df00, none, [0], false, 5, 0, 0, 0, 0, 0, [], 0, 0, none, false, 0⟩
theorem meets_StreamWaitAndClose_job :
    let x := { streamEngine with jobs := [oneJob],
                                 streams := streamEngine.streams.set 0 { busyStreamer .running with job := some 0 } }
    x.streams[(0 : StreamNo)].job = some 0 ∧ jobOf x 0 = some oneJob ∧ oneJob.att = [0] := ⟨rfl, rfl, rfl⟩

/-- A segment stream in OPENING, and one whose descriptor has a reserved value. -/
def openingStreamer (d : Line) : Streamer := { freeStreamer with st := .opening, desc := d, descAt := 0x1000 }
def goodDesc : Line := BitVec.ofNat 512 (2 ^ 8 + 8 * 2 ^ 16 + 5 * 2 ^ 64 + 16 * 2 ^ 192 + 0x2000 * 2 ^ 256 + 0x1000 * 2 ^ 320)
theorem meets_StreamHeaders :
    (openingStreamer 0xff).st = .opening ∧ (openingStreamer 0xff).hdr = none ∧
        isSieve (openingStreamer goodDesc) = false ∧
    isSieve (openingStreamer (0xe0 : Line)) = false ∧ descWrong (openingStreamer (0xe0 : Line)) = true ∧
    descWrong (openingStreamer goodDesc) = false ∧ bufferWrong (openingStreamer goodDesc) = false ∧
    isRing (openingStreamer goodDesc) = false ∧ segOf runDevice 0 (lineRead goodDesc 8 8) = none := by decide
/-- A segment of 16 rows of 8 bits, with its header in memory. -/
def aSegment : Segment := ⟨0, 0, 4, 1, 8, false, .resident, [0x100], 0, 0x100000, none, 0, false, none, false⟩
def segHandle : Nat := 5
def segHdr : Nat := 0x5347 + 2 ^ 16 + 2 ^ 24 + 8 * 2 ^ 32 + 16 * 2 ^ 64 + 16 * 2 ^ 128
def segDevice : Device := { memDevice with
  pager := { resetPager with segs := [(segKey segHandle, aSegment)] }
  mem := mwrite [] 0x100000 64 segHdr }
theorem meets_StreamHeaders_checks :
    (openChecks segDevice 0 [0] (lineRead goodDesc 8 8) (lineRead goodDesc 1 1) (lineRead goodDesc 2 1) 3).1 =
      some (.inr (aSegment, BitVec.ofNat 512 segHdr)) := by decide +kernel
theorem meets_StreamHeaders_header :
    let h : Line := BitVec.ofNat 512 segHdr
    let x := openingStreamer goodDesc
    codeWrong x (hdrFormat h) (hdrWidth h) = false ∧ lengthWrong x (lineRead goodDesc 0x18 5) (hdrWidth h) = false ∧
    hdrFormat h ≠ 4 ∧ isRing x = false := by decide

/-- A running stream of the segment: line 0 asked for; and one with a full unit staged whose turn it is. -/
def runningStreamer : Streamer := { openingStreamer goodDesc with
  st := .running, handle := 5, asked := [0], nextLine := 1, bitPos := 512, bitsLeft := 128 }
def unitStreamer : Streamer := { runningStreamer with asked := [], bitsLeft := 513, nextLine := 2,
                                                      stage := [(0, 0, []), (1, 0, [])] }
theorem meets_StreamDelivery :
    (0 ∈ runningStreamer.asked) ∧ runningStreamer.asked.Nodup ∧
        openSeg segDevice 0 runningStreamer.handle = some aSegment ∧
    runningStreamer.rle = none ∧ (∀ n ∈ runningStreamer.asked, n < runningStreamer.nextLine) ∧
        (1 ∉ runningStreamer.asked) := by
  decide
theorem meets_StreamDelivery_unit :
    grantee { threadEngine with streams := threadEngine.streams.set 0 unitStreamer } = some 0 ∧
    isSieve unitStreamer = false ∧ isRing unitStreamer = false ∧ unitStreamer.job = none ∧ unitStreamer.st = .running ∧
    bufAddr unitStreamer < 0x40000 ∧ 512 < unitStreamer.bitsLeft ∧ stagedBits unitStreamer 512 512 = some (some 0) ∧
    grantee threadEngine ≠ some 0 := by decide +kernel
/-- A ring of 1,024 bytes that is full, and one with room. -/
def ringDesc : Line := BitVec.ofNat 512 (4 + 0x2000 * 2 ^ 256 + 0x400 * 2 ^ 320)
theorem meets_StreamPolls :
    isRing { busyStreamer .running with desc := ringDesc } = true ∧
        bufBytes { busyStreamer .running with desc := ringDesc } = 1024 ∧
    (64 + 2 ^ 32 - 0) % 2 ^ 32 + 64 ≤ 1024 ∧ 1024 < (1024 + 2 ^ 32 - 0) % 2 ^ 32 + 64 ∧
        1024 < (1025 + 2 ^ 32 - 0) % 2 ^ 32 ∧
    isRing (openingStreamer goodDesc) = false := by decide

def sieveJob : ChanJob := ⟨0, 0, [0, 1], 0, 0, false, false, []⟩
theorem meets_SieveJobs :
    let y := { threadEngine with jobs := [oneJob] }
    y.jobs = [oneJob] ∧ oneJob.owner = 0 ∧ oneJob.desc = none ∧ oneJob.failed = none ∧ oneJob.addr % 64 = 0 ∧
    oneJob.addr + 256 = 0x3e000 ∧ sieveJob.eng = 0 ∧ sieveJob.owner = 0 ∧
    runDevice.sieves[(0 : Chan)].waiting = [] ∧ runDevice.sieves[(0 : Chan)].active.length < 64 ∧
    64 ≤ (List.replicate 64 sieveJob).length := by decide +kernel
def jobWords : BitVec 2048 := BitVec.ofNat 2048 (2 ^ 8 + 8 * 2 ^ 16)
def readyJob : SieveJob := { oneJob with desc := some jobWords, rows := 16, sent := true }
def sieveDevice : Device := { segDevice with
  engines := Vector.replicate 256 { threadEngine with jobs := [readyJob] }
  sieves := Vector.replicate 16 ⟨[sieveJob], [], [], none, 0⟩ }
theorem meets_SieveTurns :
    sieveDevice.chans[(0 : Chan)].quiet = false ∧ sieveDevice.ras.armed = [] ∧
        sieveDevice.sieves[(0 : Chan)].active = sieveJob :: [] ∧
    jobStalls sieveDevice sieveJob = false ∧ sieveJob.pieces = 0 :: [1] ∧
        jobOf sieveDevice.engines[sieveJob.eng] 0 = some readyJob ∧
    openSeg sieveDevice 0 readyJob.handle = some aSegment := by decide +kernel
theorem meets_SieveTurns_none :
    (updChan runDevice 0 fun c => { c with quiet := true }).chans[(0 : Chan)].quiet = true ∧
    (∀ j ∈ runDevice.sieves[(0 : Chan)].active, j.stalled = true) ∧
    jobStalls runDevice sieveJob = true := by decide +kernel
theorem meets_SieveResults :
    let j := { sieveJob with results := [⟨0, 0, none⟩] }
    j.eng = 0 ∧ j.owner = 0 ∧ j.results = ⟨0, 0, none⟩ :: [] ∧ j.pieces ≠ [] ∧ readyJob.owner = 0 ∧
        sieveJob.results = [] := by
  decide

/-! ### The CAM fabric -/

/-- A running part whose banks 254 and 255 hold entries of 2 units for partition 3, shadowed, and an engine of it whose
context 1 names them both; contexts 0, 2 and 3 name width 3, a bank of nobody, and banks past the last. -/
def camDevice : Device := { memDevice with
  regs := (CAM_CFG 63 2, 0x430001) :: (CAM_CFG 63 3, 0x430001) :: (CAM_SHADOW 63, 2 ^ 63 + 2 ^ 20) :: memDevice.regs }
def camEngine : Engine := { withS kernelEngine [(20, 260096), (21, 262142), (22, 262144), (23, 261121)] with
  owner := some 3, camr := #v[0x300fe, 0x101fe, 0x101fd, 0x102fe] }
def camState (l : List CamWait) (ents : List (Nat × List Cell)) : State :=
  stateOf { updBank camDevice 255 fun b => { b with ents := ents } with
    engines := camDevice.engines.set 7 { camEngine with cam := l } }

/-- The instructions and the banks and entries their checks look at, at the ends of the ranges. -/
theorem meets_CamInstructions :
    allExecute camEngine [.csrch 7 ⟨2, 0, 4, 1⟩, .csrchins 7 ⟨2, 0, 4, 1⟩, .cins 7 ⟨2, 20, 4, 1⟩, .cdel 7 ⟨2, 20, 0, 1⟩,
      .crd 7 ⟨2, 20, 0, 1⟩, .cwr 7 ⟨2, 20, 4, 1⟩] = true ∧
    (camEngine.camr[1].toNat % 256 = 254 ∧ camEngine.camr[1].toNat / 256 % 256 = 1 ∧
        camEngine.camr[1].toNat / 65536 % 4 = 1) ∧
    (∀ n ≤ 1, bankOwner camDevice (bankNo (254 + n)) = camEngine.owner) ∧
        bankOwner camDevice (bankNo 253) ≠ camEngine.owner ∧
    (getS camEngine 20).toNat = 254 * 1024 ∧ (getS camEngine 21).toNat = 256 * 1024 - 2 ∧
    256 * 1024 ≤ (getS camEngine 22).toNat ∧ (getS camEngine 23).toNat % 2 ≠ 0 ∧ (30 : BitVec 5).toNat % 2 ^ 1 = 0 ∧
    (31 : BitVec 5).toNat % 2 ^ 1 ≠ 0 := by decide +kernel
theorem meets_CamInstructions_latch :
    let x := { camEngine with afterRet := true, latch := some ⟨0, wordOf (.csrch 7 ⟨2, 0, 4, 1⟩), ⟨5, [], 0⟩⟩ }
    (precheck (.csrch 7 ⟨2, 0, 4, 1⟩) x).2 = true ∧ x.afterRet = true ∧
    (precheck (.csrch 7 ⟨2, 0, 4, 1⟩) x).1.latch = x.latch := by decide +kernel

def aRequest (op : CamOp) (a : Nat) : CamReq := ⟨op, 254, 2, 1, a, [9, 9], List.replicate 4 0xffffffffff, some 3⟩
def aWait (op : CamOp) (a : Nat) (st : CamStage) : CamWait := ⟨0, 0, 2, aRequest op a, st, true, false⟩

theorem meets_CamReplies (r : CamRep) (op : CamOp) (live : Bool) :
    let s := camState [{ aWait op 0 (.done r) with live := live, discard := !live }] []
    s.dev.phase = .run ∧ (s.eng 7).cam = { aWait op 0 (.done r) with live := live, discard := !live } :: [] := by
  exact ⟨rfl, rfl⟩
theorem bankFrozen_congr (d d' : Device) (h : d.regs = d'.regs) (h' : d.parts = d'.parts) (b : Bank) :
    bankFrozen d b = bankFrozen d' b := by
  have : bankOwner d b = bankOwner d' b := by simp only [bankOwner, cfgF, regF, h]; rfl
  simp only [bankFrozen, this, h']
theorem meets_Serves (op : CamOp) (a : Nat) (ents : List (Nat × List Cell)) (h : ents = [] ∨
    ents = [(1020, [1, 2]), (1022, [3, 4])]) :
    Serves (camState [aWait op a .sent] ents) 7 (aWait op a .sent) [] := by
  refine ⟨rfl, rfl, rfl, show 254 + 2 ≤ 256 by decide, show 1 < 3 by decide, ?_⟩
  intro b hb
  have hb' : b = 254 ∨ b = 255 := by
    have : b ∈ [(254 : Bank), 255] := hb
    simpa using this
  have h0 : bankWidth camDevice 254 = 1 ∧ bankWidth camDevice 255 = 1 ∧ bankFrozen camDevice 254 = false ∧
    bankFrozen camDevice 255 = false := by decide +kernel
  rw [← bankFrozen_congr (camState [aWait op a .sent] ents).dev camDevice rfl rfl,
    ← bankFrozen_congr (camState [aWait op a .sent] ents).dev camDevice rfl rfl] at h0
  rcases hb' with rfl | rfl <;> rcases h with rfl | rfl
  · exact ⟨h0.1, rfl, h0.2.2.1, rfl, rfl, rfl, fun p hp => (List.not_mem_nil hp).elim⟩
  · exact ⟨h0.1, rfl, h0.2.2.1, rfl, rfl, rfl, fun p hp => (List.not_mem_nil hp).elim⟩
  · exact ⟨h0.2.1, rfl, h0.2.2.2, rfl, rfl, rfl, fun p hp => (List.not_mem_nil hp).elim⟩
  · refine ⟨h0.2.1, rfl, h0.2.2.2, rfl, rfl, rfl, fun p hp => ?_⟩
    have : p = (1020, [1, 2]) ∨ p = (1022, [3, 4]) := by
      have : p ∈ [((1020, [1, 2]) : Nat × List Cell), (1022, [3, 4])] := hp
      simpa using this
    rcases this with rfl | rfl <;> exact ⟨by decide, show _ % 2 = 0 by decide, show _ = 2 by decide⟩
/-- A search at the last entry of the fabric hits, one key misses, and an insertion point is a hole. -/
theorem meets_CamSearches :
    camMatch [3, 4] [3, 4] (List.replicate 4 0xffffffffff) = true ∧ camMatch [3, 4] [9,
        9] (List.replicate 4 0xffffffffff) = false ∧
    inRange (aRequest .search 0) 262142 ∧ ¬ inRange (aRequest .search 0) 262144 ∧
    insertPoint [] 2 (254 * 1024) (keyValue [9, 9]) = 254 * 1024 ∧ inRange (aRequest .search 0) (254 * 1024) := by
  simp only [inRange, aRequest]; decide
theorem meets_CamEdits :
    inRange (aRequest .insert 260096) 260096 ∧ inRange (aRequest .read 262142) 262142 ∧ 262142 % 2 ^ 1 = 0 ∧
    (entAt (camState [] [(1022, [3, 4])]).dev 262142).isSome = true ∧ entAt (camState [] [(1022,
        [3, 4])]).dev 260096 = none := by
  simp only [inRange, aRequest]; refine ⟨by decide, by decide, by decide, rfl, rfl⟩
/-- A square whose port has credit and a request that waits, one without credit, a shadow queue that holds a change. -/
theorem meets_CamUpkeep_port (n : Int) :
    let d := (camState [aWait .search 0 .queued] []).dev
    let s := stateOf (updCamSq d 1 fun q => { q with waiting := [7], credits := n })
    s.dev.camSq[1].waiting = [7] ∧ (s.eng 7).cam = [aWait .search 0 .queued] ∧
        (camState [] []).dev.camSq[1].credits = 65536 := by
  refine ⟨rfl, rfl, rfl⟩
theorem meets_CamUpkeep_scan :
    let d := updBank camDevice 255 fun b => { b with bad := [(1023, 5)], scan := 1023 }
    sfind d.banks[255].bad d.banks[255].scan = some 5 ∧
        sfind camDevice.banks[255].bad camDevice.banks[255].scan = none ∧
    d.banks[255].retired = false := ⟨rfl, rfl, rfl⟩
/-- An ordered bank of one-unit entries whose first entries stand close. -/
def packedBank : Device := updBank (setReg runDevice (CAM_CFG 0 0) 0 11 0x14) 0 fun b => { b with
  ents := [(0, [1]), (1, [2]), (2, [3]), (3, [4]), (4, [5])] }
theorem meets_CamUpkeep_respacer :
    bankWidth packedBank 0 = 0 ∧ respaces packedBank 0 = true ∧ sfind packedBank.banks[0].ents 5 = none ∧
    sfind packedBank.banks[0].ents 4 = some [5] := by decide +kernel
theorem meets_CamUpkeep_idle : bankBusy packedBank 0 = false := by
  have h : ∀ e : Eng, packedBank.engines[e].cam = [] := fun e => by
    simp [packedBank, updBank, setReg, runDevice, resetDevice, resetEngine]
  simp only [bankBusy, h, List.any_nil, List.any_eq_false]
  exact fun _ _ => by simp
theorem meets_CamConfiguration :
    takes camDevice (CAM_CFG 63 3) .warden true = true ∧ (whole .warden (2 ^ 22)).value.getLsbD 22 = true ∧
    regF camDevice (CAM_SHADOW 63) 63 1 = 1 ∧ regF camDevice (CAM_SHADOW 0) 63 1 = 0 ∧
    takes camDevice (CAM_CFG 0 0) .warden true = true ∧ (whole .warden (2 ^ 23)).value.getLsbD 23 = true ∧
    (whole .warden 0).value.getLsbD 23 = false := by decide +kernel

/-! ### The scheduler -/

def instance0 : Instance :=
  { part := 0, queue := 5, index := 0, descAddr := 0x1000, desc := 0, firstRow := 0, rows := 10, cursor := 10,
    cost := 256
    nextSlot := 0, flow := none, stop := none, published := 0, rowsDone := 0, mismatch := none, held := [], unread := []
    failed := none, seqFrom := 0, seqTo := 3, released := false, abort := false, decided := false }
def thread0 : Thread := newThread 9 0 0 false 0
def dispatch0 : Dispatch :=
  { fate := .running, thread := 4, inst := 9, first := 0, rows := 5, slot := 0, seq := 0, beat := 0, started := false
    yielded := none }

/-- An engine to which a new unit has been given: the return from its handler starts it. -/
theorem meets_UnitStart :
    let x := { kernelAt with rmode := .thread, dispatch := some dispatch0 }
    let s := stateOf { runDevice with engines := Vector.replicate 256 x, sched := { resetDevice.sched with
      insts := [(9, instance0)], threads := [(4, thread0)] } }
    (precheck (.eret 255 ⟨0, 0, 0, 0⟩) x).2 = true ∧ x.pendErr = [] ∧ dispatch0.fate = .running ∧
    instOf s.dev dispatch0.inst = some instance0 ∧ threadOf s.dev dispatch0.thread = some thread0 ∧
        thread0.ctx = none :=
  ⟨by decide, rfl, rfl, rfl, rfl, rfl⟩

/-- A descriptor that passes every check: 4 bytes of code in a segment that is paged out, morsels of 1 to 4 rows. -/
def descriptor : Nat :=
  0x4654 + 2 ^ 16 + 2 ^ 32 * 4 + 2 ^ 64 * handleOf 0 0 1 + 2 ^ (8 * 0x18) + 2 ^ (8 * 0x1c) * 4 + 2 ^ (8 * 0x20) * 256 +
  2 ^ (8 * 0x80) * 0xffff0000ffff0000ffff0000ffff
def pagedSegment : Segment :=
  { part := 0, gen := 0, sizeK := 0, format := 5, width := 32, mirror := false, state := .paged, granules := [],
    quad := 0
    addr := 0, copy := none, last := 0, freeing := false, freeBy := none, avoid := false }
/-- A RUN entry of ten rows from row 3, whose descriptor is at 0x1000. -/
def runEntryRaw : BitVec 512 := BitVec.ofNat 512 (2 ^ 8 + 2 ^ 64 * 0x1000 + 2 ^ 128 * 3 + 2 ^ 192 * 10)
def anAccepted (raw : BitVec 512) : Accepted := ⟨1, 0, raw, none, none, [], [], 0, none⟩
def aQueue (type : Nat) (l : List Accepted) : Queue :=
  { type := type, base := 0x8000, log2 := 6, cons := 0, poll := true, msiEn := false, msiAddr := 0, msiData := 0,
    count := 0
    timer := 0, enabled := true, closing := false, n := 0, timerOn := false, error := false, cause := .none,
    errIndex := 0
    due := false, entries := l, skip := [], kept := [], heldBack := false, msiDue := false }
/-- A partition with engine 0, one thread and one flow. -/
def aPartition : Partition := { resetPart with desc := BitVec.ofNat 1024 (2 ^ 64 + 2 ^ (8 * 0x50) + 2 ^ (8 * 0x54)) }
def flightDevice (desc : Nat) (raw : BitVec 512) (insts : Sparse Instance) : Device := { memDevice with
  parts := [(0, aPartition)], queues := [(qKey 0 5, aQueue 1 [anAccepted raw])]
  mem := mwrite [] 0x1000 192 desc, pager := { memDevice.pager with segs := [(1, pagedSegment)] }
  sched := { memDevice.sched with insts := insts }
  engines := memDevice.engines.set 0 { kernelEngine with owner := some 0 } }

theorem meets_FlightRuns_admit :
    let d := flightDevice descriptor runEntryRaw []
    let v := descriptor
    let g := fun b n => v / 2 ^ (8 * b) % 2 ^ (8 * n)
    partFrozen d 0 = false ∧ instOfEntry d 0 5 0 = none ∧ openEntryOf d 0 5 0 1 1 = some (anAccepted runEntryRaw) ∧
    runBad d 0 runEntryRaw = false ∧ admitChecks d 0 g 0 = 0 ∧ v < 2 ^ 1536 ∧ heldBits d 0 false false = [] ∧
    lineRead runEntryRaw 0x18 8 = 10 := by decide +kernel
theorem meets_FlightRuns_read :
    (ioRead (flightDevice descriptor runEntryRaw []) 0 0x1000 192 1).1 = (some descriptor, false) := by decide +kernel
theorem meets_FlightRuns_bad :
    admitChecks (flightDevice 0 runEntryRaw []) 0 (fun b n => 0 / 2 ^ (8 * b) % 2 ^ (8 * n)) 0 = 3 ∧
    lineRead (BitVec.ofNat 512 (2 ^ 8 + 2 ^ 64 * 0x1001)) 8 8 % 64 ≠ 0 ∧
    2 ^ 40 ≤ lineRead (BitVec.ofNat 512 (2 ^ 168)) 0x10 8 ∧ 2 ^ 40 ≤ lineRead (BitVec.ofNat 512 (2 ^ 232)) 0x18 8 ∧
    lineRead (BitVec.ofNat 512 (2 ^ 272)) 0x22 6 ≠ 0 ∧
    quotaFlows (flightDevice 0 0 []) 0 < lineRead (BitVec.ofNat 512 (2 * 2 ^ 256)) 0x20 2 ∧
    quotaFlows (flightDevice 0 0 []) 0 = 1 := by decide +kernel
/-- An instance that has drawn every row has come to its end; one that has not runs on. -/
def endedDevice (x : Instance) : Device := { runDevice with sched := { runDevice.sched with insts := [(9, x)] } }
theorem unitRuns_endedDevice (x : Instance) (k : Nat) : unitRuns (endedDevice x) k = false := by
  have h : ∀ e : Eng, (endedDevice x).engines[e].dispatch = none := fun e => by
    simp [endedDevice, runDevice, resetDevice, resetEngine]
  simp only [unitRuns, h, List.any_eq_false]
  exact fun _ _ => by simp
theorem meets_FlightRuns_end :
    instOfEntry (endedDevice instance0) 0 5 0 = some 9 ∧ instDone (endedDevice instance0) 9 instance0 = true ∧
    instDone (endedDevice { instance0 with cursor := 9 }) 9 { instance0 with cursor := 9 } = false := by
  simp only [instDone, unitRuns_endedDevice]
  exact ⟨rfl, rfl, rfl⟩

def doneUnit : DoneUnit := ⟨0, 0, 5, 0, 0⟩
def flow0 (l : List DoneUnit) : Flow := ⟨0, 2, [(0, 5), (1, 5)], [9], l⟩
theorem meets_FlowsAndService_flow (l : List DoneUnit) :
    let d := { runDevice with sched := { runDevice.sched with
      insts := [(9, { instance0 with flow := some 1 })], flows := [(flowKey 0 1, flow0 l)] } }
    flowOf d 0 1 = some (flow0 l) ∧ instOf d 9 = some { instance0 with flow := some 1 } ∧
    sget (flow0 l).drawn 0 0 = doneUnit.rows ∧ sget (sdel (flow0 l).drawn 0) 1 0 ≠ 0 ∧ goodStatus 0 = true ∧
    partFrozen d 0 = false := ⟨rfl, rfl, rfl, by show (5 : Nat) ≠ 0; decide, rfl, rfl⟩
theorem meets_FlowsAndService_service :
    let w := pageInWork 1
    let l := [(⟨.pager, 3, 2⟩ : SystemThread)]
    (∀ v ∈ ([] : List SystemThread), v.unit ≠ .pager) ∧ w.unit = .pager ∧ w.prio ≤ 8 ∧
        (∀ v ∈ l, v.unit = .pager → w.prio < v.prio) ∧
    (∀ v ∈ [w], v.unit = .pager → w.prio ≤ v.prio) ∧ w ∈ [w] := by decide
theorem meets_FlowsAndService_promotion :
    let d := { runDevice with parts := [(0, aPartition)], sched := { runDevice.sched with
      insts := [(9, { instance0 with cursor := 0 })], threads := [(4, thread0)] } }
    let s := { d with regs := [(SCH_CTL, 1)] }
    eligible s (beatNow s + 1) thread0 = true ∧ thread0.readyBeat + regF s SCH_CTL 0 16 ≤ beatNow s + 1 ∧
    beatNow d + 1 < thread0.readyBeat + regF { d with regs := [(SCH_CTL, 2)] } SCH_CTL 0 16 := by decide +kernel

/-! ### Queues -/

/-- An entry with OWN, an opcode and fields as byte and value. -/
def entry (op : Nat) (l : List (Nat × Nat)) : BitVec 512 :=
  BitVec.ofNat 512 (l.foldl (fun n f => n + f.2 * 2 ^ (8 * f.1)) (1 + 2 ^ 8 * op))

/-- A running part with queue `q` of partition 0 whose ring at 0x8000 holds an entry at index 0; no engines or
threads. -/
def ringDevice (q : QueueId) (x : Queue) (raw : BitVec 512) : Device := { memDevice with
  parts := [(0, { resetPart with desc := BitVec.ofNat 1024 (2 ^ (8 * 0x4e) + 2 ^ (8 * 0x4b) * 3) })],
  queues := [(qKey 0 q, x)]
  mem := mwrite [] 0x8000 64 raw.toNat }
/-- A queue that is due. -/
def dueQueue (type : Nat) (l : List Accepted) : Queue := { aQueue type l with due := true }
def aCompress : BitVec 512 := entry 1 [(8, 1), (0xa, 1), (0x10, 0x1000), (0x18, 16), (0x20, 0x2000)]

theorem meets_QueueReads :
    let d := ringDevice 16383 (dueQueue 3 []) aCompress
    queueReads d 0 (dueQueue 3 []) = true ∧ queueReads d 0 (aQueue 3 []) = false ∧
    malformed 3 aCompress = false ∧ waitsOrdered (dueQueue 3 []) aCompress = false ∧
    backPressure d 0 (dueQueue 3 []) aCompress = [] ∧ aCompress.toNat % 2 = 1 ∧ aCompress.toNat < 2 ^ 512 ∧
    malformed 3 (entry 3 []) = true ∧ (entry 3 []).toNat % 2 = 1 ∧ (0 : Nat) % 2 = 0 ∧ (dueQueue 3 []).skip = [] := by
  decide +kernel
theorem meets_QueueReads_ring :
    (ioRead (ringDevice 16383 (dueQueue 3 []) aCompress) 0 0x8000 64 1).1 = (some aCompress.toNat,
        false) := by decide +kernel
/-- An address beyond main memory faults. -/
theorem meets_QueueReads_fault :
    (ioRead (ringDevice 16383 (dueQueue 3 []) aCompress) 0 (2 ^ 63) 64 1).1 = (none, false) := by decide +kernel

theorem meets_DoorbellsAndTimers :
    let d := ringDevice 16383 (aQueue 3 []) aCompress
    takes d (PRT_DB 0 16383) .manager true = true ∧ qFind d 0 16383 = some (aQueue 3 []) ∧
        (aQueue 3 []).enabled = true ∧
    partRuns d 0 = true ∧ partRuns d 1 = false ∧ qFind d 0 1 = none ∧ partFrozen d 0 = false ∧
    ({ aQueue 3 [] with timerOn := true }).timerOn = true ∧ ({ aQueue 3 [] with msiEn := true,
                                                                                n := 1 }).n = 1 := by decide +kernel
/-- A RELEASE whose outcome is decided. -/
def decided : Accepted := { anAccepted (entry 3 [(0, 8)]) with outcome := some ⟨0, []⟩ }
theorem meets_EntryCompletions :
    let d := ringDevice 5 (aQueue 4 [decided]) 0
    accFind d 0 5 0 = some decided ∧ mayComplete d (aQueue 4 [decided]) decided = true ∧
    accFind (ringDevice 5 (aQueue 4 [anAccepted 0]) 0) 0 5 0 = some (anAccepted 0) ∧
    lineRead decided.raw 0 1 / 8 % 2 = 1 ∧ lineRead (entry 3 []) 0 1 / 8 % 2 = 0 ∧
    completionWrites 4 decided.raw ⟨0, []⟩ = [(4, 2, 0), (0, 1, 11), (0, 1, 10)] := by decide +kernel
theorem meets_EntryCompletions_write :
    (writeCompletion (ringDevice 5 (aQueue 4 [decided]) 0) 0 0x8000 [(4, 2, 0), (0, 1, 11), (0, 1, 10)]).1 = true ∧
    (writeCompletion (ringDevice 5 (aQueue 4 [decided]) 0) 0 0x8000 [(4, 2, 0), (0, 1, 11), (0, 1, 10)]).2.queues =
      [(5, aQueue 4 [decided])] ∧
    (writeCompletion (ringDevice 5 (aQueue 4 [decided]) 0) 0 (2 ^ 63) [(4, 2, 0), (0, 1, 11),
        (0, 1, 10)]).1 = false := by decide +kernel

theorem meets_AdminRegisters :
    let d := ringDevice 0 (aQueue 0 []) 0
    takes d (PRT_ADMIN_CFG 0) .manager true = true ∧ regF d (PRT_ADMIN_CFG 0) 0 1 = 0 ∧
    takes d (PRT_ADMIN_MOD 0) .manager true = true ∧ takes d (PRT_ADMIN_RESET 0) .manager true = true ∧
    (whole .manager (2 ^ 48 * 1024 + 2 ^ 32 * 4095)).value.toNat / 2 ^ 48 % 2 ^ 11 = 1024 ∧
    (whole .manager (2 ^ 48 * 1024 + 2 ^ 32 * 4095)).value.toNat / 2 ^ 32 % 2 ^ 12 = 4095 ∧
    (ownedRaw d 0 (aQueue 0 []) 0).1 = (none, false) ∧
        ({ aQueue 0 [] with error := true }).error = true := by decide +kernel

/-- A part whose ADMIN queue of partition 0 has accepted an entry, beside queue 7. -/
def adminDevice (raw : BitVec 512) (x : Queue) : Device := { ringDevice 7 x 0 with
  queues := [(qKey 0 0, aQueue 0 [anAccepted raw]), (qKey 0 7, x)], regs := (CAM_CFG 63 3, 0x400000) :: memDevice.regs }
def aCreate (q : Nat) : BitVec 512 :=
  entry 1 [(8, q), (0xa, 5), (0xb, 16), (0x10, 0x3000), (0x24, 4095), (0x26, 1024)]
theorem meets_AdminCommands_create :
    adminEntry (adminDevice (aCreate 9) (aQueue 3 [])) 0 0 1 = some (anAccepted (aCreate 9)) ∧
    createBad (aCreate 9) = false ∧ createBad (aCreate 0) = true ∧ createBad (aCreate 16383) = false ∧
    namedQ (aCreate 7) = 7 ∧ qFind (adminDevice (aCreate 9) (aQueue 3 [])) 0 9 = none ∧
    (qFind (adminDevice (aCreate 9) (aQueue 3 [])) 0 7).isSome = true ∧
    quotaQueues (adminDevice (aCreate 9) (aQueue 3 [])) 0 = 1 ∧
        queueCount (adminDevice (aCreate 9) (aQueue 3 [])) 0 = 1 ∧
    queueCount { adminDevice (aCreate 9) (aQueue 3 []) with queues := [] } 0 = 0 := by decide +kernel
/-- The other commands, each with a body as it wants it. -/
def adminBodies (q : Nat) : List (Nat × BitVec 512) :=
  [(2, entry 2 [(8, q)]), (3, entry 3 [(8, q), (0xa, 1)]), (4, entry 4 [(8, q), (0xa, 77)]), (5, entry 5 [(8, q)]),
   (6, entry 6 [(8, q), (0xc, 3), (0x18, 0x100), (0x24, 1), (0x26, 1)]),
   (7, entry 7 [(8, 255), (0xa, 2), (0xb, 1), (0xc, 64), (0xd, 1)])]
theorem meets_AdminCommands :
    (∀ r ∈ adminBodies 7, adminEntry (adminDevice r.2 (aQueue 3 [])) 0 0 r.1 = some (anAccepted r.2)) ∧
    (∀ r ∈ (adminBodies 7).take 3 ++ (adminBodies 16383).take 3, qidBad r.2 = false) ∧
    bodyClear (entry 2 [(8, 7)]) [(8, 2)] = true ∧ bodyClear (entry 3 [(8, 7), (0xa, 1)]) [(8, 2), (0xa, 1)] = true ∧
    bodyClear (entry 4 [(8, 7), (0xa, 77)]) [(8, 2), (0xa, 2)] = true ∧ lineRead (entry 2 []) 8 2 = 0 ∧
    16383 < lineRead (entry 2 [(8, 16384)]) 8 2 ∧ bodyClear (entry 2 [(8, 7), (63, 1)]) [(8, 2)] = false ∧
    modBad (entry 6 [(8, 7), (0xc, 3), (0x18, 0x100), (0x24, 1), (0x26, 1)]) = false ∧
    qFind (adminDevice 0 { aQueue 3 [] with closing := true }) 0 7 = some { aQueue 3 [] with closing := true } := by
  decide +kernel
theorem meets_AdminCommands_bank :
    let r := entry 7 [(8, 255), (0xa, 2), (0xb, 1), (0xc, 64), (0xd, 1)]
    lineRead r 8 2 ≤ 255 ∧ lineRead r 0xa 1 ≤ 2 ∧ lineRead r 0xb 1 ≤ 1 ∧ 4 ≤ lineRead r 0xc 1 ∧ lineRead r 0xc 1 ≤ 64 ∧
    lineRead r 0xd 1 ≤ 1 ∧ bodyClear r [(8, 2), (0xa, 1), (0xb, 1), (0xc, 1), (0xd, 1)] = true ∧
    bankOf (adminDevice r (aQueue 3 [])) 255 0 = true ∧
        bankOf (adminDevice r (aQueue 3 [])) 254 0 = false := by decide +kernel
/-- No entry of an empty ring of two carries the tag of an ABORT, one that is accepted does, and an empty queue owns
nothing to abort. -/
theorem meets_AdminCommands_abort :
    let x := { aQueue 3 [] with log2 := 1 }
    let d := { ringDevice 7 x 0 with queues := [(qKey 0 7, x)] }
    let r := findUnread d 0 x 77 0 2
    r.1 = (none, false) ∧ r.2.waits = false ∧ r.2.queues = d.queues ∧
    takeFirst (fun c : Accepted => lineRead c.raw 2 2 == 77) [anAccepted (entry 1 [(2, 77)])] =
      some (anAccepted (entry 1 [(2, 77)]), []) := by decide +kernel
theorem meets_AdminCommands_owned :
    let x := { aQueue 3 [] with log2 := 1 }
    let d := { ringDevice 7 x 0 with queues := [(qKey 0 7, x)], waits := false }
    let r := abortOwned d 0 7 x 0 2
    r.1 = false ∧ r.2.waits = false ∧ r.2.queues = d.queues := by decide +kernel

/-! ### Segments -/

def aSeg (st : SegState) : Segment := { pagedSegment with state := st, granules := [1], addr := 0x10000 }
/-- A part with segment 1 of partition 0 in a state, and an entry of the SEGMENT queue 5 that names a handle. -/
def segmentDevice (st : SegState) (raw : BitVec 512) : Device := { ringDevice 5 (aQueue 5 [anAccepted raw]) 0 with
  pager := { resetPager with
    segs := [(1, aSeg st)], quota := [(0, BitVec.ofNat 64 (100 + 2 ^ 28 * 100 + 2 ^ 48))]
    ranges := [⟨0, 0, 0x10000, [1, 2, 3], false⟩] } }
/-- The commands on handle 1 with the results each may leave in its body. -/
def handleCommands (h : Nat) : List (Nat × BitVec 512 × List (Nat × Nat)) :=
  [(2, entry 2 [(0x10, h)], []), (3, entry 3 [(0x10, h)], [(0x18, 8)]), (4, entry 4 [(0x10, h)], []),
   (5, entry 5 [(0x10, h)], [(0x18, 8), (0x20, 1), (0x21, 1), (0x22, 1), (0x23, 1)]), (6, entry 6 [(0x10, h)], [])]
theorem meets_SegmentCommands :
    (∀ c ∈ handleCommands 1, openEntryOf (segmentDevice .resident c.2.1) 0 5 0 5 c.1 = some (anAccepted c.2.1) ∧
      lineRead c.2.1 0x10 8 < 2 ^ 40 ∧ bodyClear c.2.1 ((0x10, 8) :: c.2.2) = true) ∧
    (∀ c ∈ handleCommands (2 ^ 40), 2 ^ 40 ≤ lineRead c.2.1 0x10 8) ∧
    (∀ st ∈ [SegState.resident, .paged, .movingOut, .movingIn, .pinned],
      segOf (segmentDevice st 0) 0 1 = some (aSeg st)) ∧
    segOf (segmentDevice .resident 0) 0 2 = none ∧
    pinQ (segmentDevice .resident 0) 0 = 64 ∧ pinnedGran (segmentDevice .resident 0) 0 = 0 ∧
    pinnedGran (segmentDevice .pinned 0) 0 = 1 ∧ pageInWork 1 = ⟨.pager, 0, 1⟩ := by decide +kernel
theorem meets_SegmentAllocation :
    let raw := entry 1 [(8, 1), (9, 1), (0xa, 40)]
    let d := segmentDevice .paged raw
    let e := { d with pager := { d.pager with segs := [], ranges := [⟨0, 0, 0x10000, [2, 3], false⟩] } }
    openEntryOf e 0 5 0 5 1 = some (anAccepted raw) ∧ allocStatus e 0 raw = 0 ∧
    choosePlace (allocPlaces e 0 raw) 0 = some (0x10000, [2, 3]) ∧ windowWait e [2, 3] = [] ∧
    (segsOf e 0).length < segMax e 0 ∧ allocStatus e 0 (entry 1 [(8, 11)]) = 3 ∧
    (∀ k g, (k, g) ∈ d.pager.segs → g.part.val * 2 ^ 20 < k ∧ k < g.part.val * 2 ^ 20 + 2 ^ 20) := by
  refine ⟨by decide +kernel, by decide +kernel, by decide +kernel, by decide +kernel, by decide +kernel,
      by decide +kernel, ?_⟩
  intro k g h
  have : (k, g) = (1, aSeg .paged) := by simpa [segmentDevice] using h
  cases this; decide

/-! ### The pager -/

/-- A paged segment with a copy in the CXL tier, and one that is being freed. -/
def copied (st : SegState) (gs : List Nat) : Segment := { aSeg st with copy := some (.cxl gs) }
def heldSegment (g : Segment) (ranges : List DonRange) : Device := { segmentDevice .resident 0 with
  pager := { (segmentDevice .resident 0).pager with segs := [(1, g)], ranges := ranges }
  sched := { resetDevice.sched with serving := [pageInWork 1] } }
theorem movable_of {d : Device} (h : Nat) (hi : d.sched.insts = []) (he : d.engines = Vector.replicate 256 resetEngine) :
    movable d h = true := by
  have hs : streamsOn d h = false := by
    have : resetEngine.streams.any (fun s => s.handle == h && s.st != .free && s.st != .opening) = false := by
      simp [resetEngine, resetStreamer]
    simp only [streamsOn, he, Vector.any_eq_false]
    simp [this]
  simp [movable, heldByInst, hs, hi]
theorem meets_SegmentsLeave :
    let g := { aSeg .resident with freeing := true, freeBy := some (5, 0) }
    segHeld (heldSegment g []) (hPart 1) 1 = some g ∧ movable (heldSegment g []) 1 = true ∧ g.freeing = true ∧
    movable { heldSegment g [] with sched := { resetDevice.sched with insts := [(9,
        { instance0 with held := [1] })] } } 1 = false := by
  refine ⟨rfl, movable_of 1 rfl rfl, rfl, rfl⟩
/-- With a page-out asked for by the watermark the oldest resident segment is the victim. -/
theorem meets_SegmentsLeave_victim :
    let d := { heldSegment (aSeg .resident) [⟨0, 0, 0x10000, [1], false⟩] with regs := [(PGR_CTL, 0x3c32)] }
    (markActive d 0).pager.active = [0] ∧ inReclaim (markActive d 0) (aSeg .resident) = false ∧
    isVictim (markActive d 0) 1 (aSeg .resident) = true := by
  refine ⟨by decide +kernel, by decide +kernel, ?_⟩
  have hm : ∀ d' : Device, d'.sched.insts = [] → d'.engines = Vector.replicate 256 resetEngine →
      d'.pager.segs = [(1, aSeg .resident)] → d'.pager.active = [0] → d'.pager.ranges.any (·.reclaiming) = false →
      isVictim d' 1 (aSeg .resident) = true := by
    intro d' h1 h2 h3 h4 h5
    have m := movable_of (d := d') 1 h1 h2
    have m' : movable d' (handleOf 0 0 1) = true := m
    simp [isVictim, victimsIn, h3, outNeeded, h4, oldestSeg, aSeg, pagedSegment, segKey, hPart, hIndex, m', fieldN]
  exact hm _ rfl rfl rfl (by decide +kernel) (by decide +kernel)
theorem meets_SegmentsReturn :
    let d := heldSegment (copied .movingIn [8]) []
    segHeld d (hPart 1) 1 = some (copied .movingIn [8]) ∧ pageInWork 1 ∈ d.sched.serving ∧ d.sched.serving.Nodup ∧
    segHeld (heldSegment (aSeg .paged) []) (hPart 1) 1 = some (aSeg .paged) ∧
    placesOf (heldSegment (aSeg .paged) []) 0 0 (some 0) 0 = [] ∧
    choosePlace (placesOf (heldSegment (aSeg .paged) [⟨0, 0, 0x20000, [2],
        false⟩]) 0 0 (some 0) 0) 5 = some (0x20000, [2]) ∧
    windowWait (heldSegment (aSeg .paged) [⟨0, 0, 0x20000, [2], false⟩]) [2] = [] := by
  refine ⟨rfl, by decide +kernel, by decide +kernel, rfl, by decide +kernel, by decide +kernel, by decide +kernel⟩
theorem meets_SegmentsReturn_move :
    let d := heldSegment (copied .paged [8]) [⟨0, 2, 0, [8], true⟩, ⟨0, 2, 0x20000, [9], false⟩]
    cxlNext d 1 (copied .paged [8]) = true ∧ copyInReclaim d (copied .paged [8]) = true ∧
    (placesOf d 0 2 none 0).head? = some (0x20000, [9]) ∧
    cxlNext (heldSegment (copied .paged [8]) []) 1 (copied .paged [8]) = false := by
  refine ⟨by decide +kernel, by decide +kernel, by decide +kernel, by decide +kernel⟩

theorem meets_Donation :
    let w := whole .manager (BitVec.ofNat 64 (2 ^ 63 + 2 ^ 34 + 2 ^ 8))
    let d := { segmentDevice .paged 0 with pager := resetPager, regs := (PGR_DON_IOVA, 0x20000) :: memDevice.regs }
    takes d PGR_DON_CMD .manager true = true ∧ w.value.toNat / 2 ^ 34 % 4 = 1 ∧ w.value.toNat / 2 ^ 8 % 2 ^ 24 = 1 ∧
    regF d PGR_DON_STAT 0 2 ≠ 1 ∧ donChecks d 0 0 0x20000 1 [0x20] = 0 ∧
    donChecks d 0 2 0x20000 1 [0x20] = 10 ∧
    blocking d ⟨0, 0, 0x20000, [0x20], false⟩ = 0 ∧
    takes d PGR_CTL .manager true = true ∧ regF d PGR_CTL 63 1 = 0 := by decide +kernel
theorem meets_Donation_granules :
    granList memDevice 0 0x20000 1 = .ok [0x20] ∧ granList runDevice 0 0x20000 1 = .error 2 := ⟨rfl, rfl⟩
theorem meets_Donation_watermarks :
    (1 ≤ 50 ∧ 50 ≤ 50 ∧ 60 ≤ 60 ∧ (50 : Nat) < 60) ∧ ¬ (1 ≤ 51 ∧ 51 ≤ 50 ∧ 60 ≤ 60 ∧ (51 : Nat) < 60) ∧
    (2 ^ 63 + 2 * 2 ^ 34) / 2 ^ 34 % 4 = 2 := by decide

/-! ### Codecs and the digest engine -/

def codecDevice (raw : BitVec 512) : Device := { ringDevice 5 (aQueue 3 [anAccepted raw]) raw with
  mem := mwrite (mwrite [] 0x1000 16 0x55) 0x2000 16 (0x3000 + 2 ^ 64 * 4096) }
def aDecompress : BitVec 512 := entry 2 [(0xa, 1), (0x10, 0x1000), (0x18, 16), (0x20, 0x2000)]
def onCodec (d : Device) (k : CodecId) : Device := { d with codecs := d.codecs.set k.val (some ⟨0, 5, 0⟩) }
theorem meets_CodecRoundTrip : ∀ e ∈ [1, 2, 4, 5, 8],
    decodeBlock (blockBytes (encodeBlock e [7, 7, 7, 7, 7, 7, 7, 7, 1, 2]) ++ [9]) =
      some ([7, 7, 7, 7, 7, 7, 7, 7, 1, 2], (blockBytes (encodeBlock e [7, 7, 7, 7, 7, 7, 7, 7, 1, 2])).length) := by
  decide +kernel
theorem meets_CodecJobs_dispatch :
    codecFree (codecDevice aCompress) 7 = true ∧ codecFree (onCodec (codecDevice aCompress) 7) 7 = false ∧
    codecWaiting (codecDevice aCompress) 0 7 = [(1, ⟨0, 5, 0⟩)] ∧
        codecWeight (codecDevice aCompress) 0 = 3 := by decide +kernel
theorem meets_CodecJobs_waiting (p : Part) (h : codecWaiting (codecDevice aCompress) p 7 ≠ []) : p = 0 := by
  refine Decidable.byContradiction fun hp => h ?_
  have hf : (codecDevice aCompress).queues.filter (fun x => x.1 / 16384 == p.val && x.2.type == 3) = [] := by
    have : ¬ (5 / 16384 = p.val) := fun e => hp (Fin.ext e.symm)
    show [((5 : Nat), aQueue 3 [anAccepted aCompress])].filter _ = []
    simp [this]
  simp only [codecWaiting, hf, List.flatMap_nil]
theorem meets_CodecJobs_run :
    openEntryOf (codecDevice aCompress) 0 5 0 3 1 = some (anAccepted aCompress) ∧
    openEntryOf (codecDevice aDecompress) 0 5 0 3 2 = some (anAccepted aDecompress) ∧
        noCodec (codecDevice aCompress) = false ∧
    noCodec { codecDevice aCompress with regs := (List.range 8).map fun k => (RLE_STAT k, 2) } = true ∧
    codecOf (onCodec (codecDevice aCompress) 7) 0 5 0 = some 7 ∧ codecOf (codecDevice aCompress) 0 5 0 = none := by
  decide +kernel
/-- The input and the buffer of a job as its checks give them. -/
def runsWith : CodecIn × Device → Option (List (Nat × Nat) × List Byte)
  | (.runs caps src, _) => some (caps, src)
  | _ => none
theorem meets_CodecJobs_checks :
    runsWith (codecChecks (onCodec (codecDevice aCompress) 7) 0 aCompress true) = some ([(0x3000, 4096)],
        0x55 :: List.replicate 15 0) ∧
    runsWith (codecChecks (codecDevice 0) 0 (entry 1 []) true) = none := by decide +kernel
theorem meets_CodecJobs_output :
    let r := packInput 1 (0x55 :: List.replicate 15 0) [4096]
    (writeOutput (codecDevice aCompress) 0 (r.out.map fun o => (0x3000 + o.2.1, o.2.2))).1 = true ∧ r.done = true := by
  decide +kernel

/-- A slot assigned to partition 0, and one that no partition has. -/
def slotDevice (x : Slot) : Device := { codecDevice 0 with
  regs := (DGST_SLOT 14, 0x40) :: memDevice.regs, slots := (codecDevice 0).slots.set 14 x }
def freshSlot : Slot := ⟨Vector.replicate 25 0, 0, 0, none, .none, false⟩
theorem meets_DigestSlots :
    let d := slotDevice freshSlot
    takes d (DGST_SCTL 14) .manager true = true ∧ slotAssigned d 14 = true ∧ slotAssigned d 0 = false ∧
    takes d (DGST_DATA 14) .manager true = true ∧ takes d (DGST_SLOT 14) .warden true = true ∧
        regF d (DGST_SLOT 14) 0 7 = 0x40 ∧
    freshSlot.owner = .none ∧ freshSlot.busy = false ∧ (8 + 256 * 127 : Nat) / 256 % 256 < 128 ∧
    ({ freshSlot with owner := .queue } : Slot).owner = .queue ∧
        ({ freshSlot with busy := true } : Slot).busy = true := by
  decide +kernel
def aHash (op : Nat) (l : List (Nat × Nat)) : Device := { slotDevice freshSlot with
  queues := [(qKey 0 5, aQueue 4 [anAccepted (entry op l)])] }
theorem meets_DigestQueues :
    let l := [(0x10, 0x1000), (0x18, 16), (0x28, 32)]
    openEntryOf (aHash 2 l) 0 5 0 4 2 = some (anAccepted (entry 2 l)) ∧ hashBad (entry 2 l) = false ∧
    hashBad (entry 2 [(0x10, 0x1000), (0x18, 16), (0x28, 31)]) = true ∧ lineRead (entry 2 l) 8 1 < 3 ∧
    0 < lineRead (entry 2 l) 0x18 8 ∧ slotOf (slotDevice freshSlot) 14 0 = true ∧
        slotOf (slotDevice freshSlot) 14 1 = false ∧
    bodyClear (entry 1 [(9, 14), (0x10, 0x1000), (0x18, 256)]) [(9, 1), (0x10, 8), (0x18, 8), (0x20, 8),
        (0x28, 8)] = true ∧
    bodyClear (entry 3 [(9, 14)]) [(9, 1)] = true ∧ bodyClear (entry 3 [(8, 1)]) [(9, 1)] = false := by decide +kernel
theorem meets_DigestQueues_read :
    (ioRead (aHash 2 []) 0 0x1000 16 3).1 = (some 0x55, false) ∧ badPage (aHash 2 []) 0 0x4000 32 = none ∧
    (ioWrite (aHash 2 []) 0 0x4000 32 5).1 = true := by decide +kernel
/-! ### The general cores -/

/-- A running part whose hart 127 holds a line and owns it. -/
def hartDevice (x : HartState) : Device := { memDevice with
  harts := memDevice.harts.set 127 x
  gal := memDevice.gal.set (homeOf memDevice 0x1000).val { resetGal with
    dir := [(0x1000, ⟨[], some 127⟩)], lines := [(galKey 0x1000 0, aGalLine)] } }
def holding (p : Bool) : HartState := { resetHart with lines := [(0x1000, ⟨7, true, p, true⟩)] }
theorem meets_HartRuns (x : HartState) (h : x.held = false) (i : x.idle = .running) : HartRuns (stateOf (hartDevice x)) 127 :=
  ⟨rfl, h, i⟩
/-- Accesses at the end of their 16 bytes, and across them. -/
theorem meets_CoreLoadsAndStores :
    let a := { anAccess with va := 0x1008, pa := 0x1008 }
    let b := { anAccess with va := 0x100c, pa := 0x100c, pa2 := 0x1010 }
    inMain memDevice a.pa = true ∧ inControl a.pa = false ∧ ¬ 16 - a.va % 16 < a.size ∧ 16 - b.va % 16 < b.size ∧
    inMain memDevice b.pa2 = true ∧ a.fault = none ∧ a.ecc = .clean ∧ lineOf b.pa2 = 0x1000 ∧
    (holding false).lines.lookup (lineOf a.pa) = some ⟨7, true, false, true⟩ ∧ inMain memDevice (2 ^ 52) = false ∧
    inMmio (2 ^ 52) = false ∧ inImsic (2 ^ 52) = false ∧ inControl (2 ^ 52) = false ∧ anAccess.size ∈ [1, 2, 4, 8] := by
  decide +kernel
theorem meets_CoreAtomics :
    let x := { holding false with reserve := some 0x1000 }
    sbHas (hartDevice x) 127 0x1000 = false ∧ sfind (hartDevice x).harts[127].lines 0x1000 = some ⟨7, true, false,
        true⟩ ∧
    owns (hartDevice x) 127 0x1000 = true ∧ winHolds (hartDevice x) 0x1000 = false ∧ x.reserve = some (lineOf 0x1000) ∧
    (holding false).reserve ≠ some 0x1000 ∧ 0x1004 % 8 ≠ 0 ∧ 16 < 0x100c % 16 + 8 := by
  refine ⟨rfl, rfl, by decide +kernel, by decide +kernel, rfl, by decide, by decide, by decide⟩
theorem meets_CoreFences :
    let x := { holding false with sb := [⟨0x1008, 8, 5⟩] }
    owns (hartDevice x) 127 (lineOf 0x1008) = true ∧ winHolds (hartDevice x) 0x1008 = false ∧
        (hartDevice x).hup.strict = [] ∧
    sfind x.lines (lineOf 0x1008) = some ⟨7, true, false, true⟩ ∧ x.sb = [⟨0x1008, 8, 5⟩] ∧
        (holding false).sb = [] := by
  refine ⟨by decide +kernel, by decide +kernel, rfl, rfl, rfl, rfl⟩
theorem meets_CoreCacheOperations :
    let d := hartDevice (holding false)
    modified d 0x1000 = some (7, false) ∧ modified d 0x2000 = none ∧ inMain d 0x1000 = true ∧
    galFind d.gal[homeOf d 0x1000] 0x1000 = some (galKey 0x1000 0, aGalLine) ∧ sbHas d 127 0x1000 = false := by
  refine ⟨by decide +kernel, by decide +kernel, by decide +kernel, by decide +kernel, rfl⟩
theorem meets_CoreWindowAccesses :
    noRegion 0xfffffff8 = true ∧ noRegion WRD_STAT = false ∧ WRD_STAT % 8 = 0 ∧ isConfig WRD_STAT = false ∧
    blkOf WRD_STAT = some (.wrd, 0, WRD_STAT - (WRD_STAT / 65536 * 65536)) ∧ deadBlk runDevice .eng 0 = false ∧
    takes runDevice WRD_STAT .manager false = true := by decide +kernel
theorem meets_IdleStates :
    let x := { resetHart with idle := .light }
    irqPending resetHart = false ∧ resetHart.idle = .running ∧ x.since + 400000 ≤ 400000 ∧ ¬ x.since + 400000 ≤ 399999 ∧
    ({ resetHart with idle := .deep } : HartState).idle = .deep ∧ x.sb = [] := by decide
theorem meets_IdleStates_package :
    let d := { runDevice with harts := Vector.replicate 128 { resetHart with idle := .deep }, queues := [] }
    (∀ k : Hart, d.harts[k].held = true ∨ d.harts[k].idle = .deep) ∧ enginesQuiet d = true ∧ d.queues = [] := by
  refine ⟨fun k => .inr (by simp), ?_, rfl⟩
  simp only [enginesQuiet, List.all_eq_true]
  intro e _
  have h : obsOf { runDevice with harts := Vector.replicate 128 { resetHart with idle := .deep }, queues := [] } e.val =
    obsOf runDevice e.val := rfl
  have hb : (obsOf runDevice e.val).busy = [] := rfl
  rw [h, hb]
  simp [runDevice, resetDevice, resetEngine]
theorem meets_InterruptFiles :
    (2047 : BitVec 32).toNat ≤ 2047 ∧ ¬ (2048 : BitVec 32).toNat ≤ 2047 ∧ ¬ 0 < (0 : BitVec 32).toNat ∧
    ofBytes (bytesOf (0xff070000 : BitVec 32).toNat 4).reverse = 0x7ff ∧ resetHart.held = false := by decide
theorem meets_DeviceRequests :
    let d := { memDevice with pkg := { memDevice.pkg with up := [7] } }
    (7 ∈ d.pkg.up) ∧ 0xfff % 4096 + 1 ≤ 4096 ∧ ¬ 0xfff % 4096 + 2 ≤ 4096 ∧ inControl 0xfff = false ∧
    inControl 0xf000000000000 = true ∧ inMain d 0xfff = true ∧
        (xlatDev d 0x700 0xfff true).1 = some 0xfff := by decide +kernel
theorem meets_DeviceRequests_bare (wr : Bool) :
    let d := { memDevice with pkg := { memDevice.pkg with up := [7] } }
    xlatDev d 0x700 0xfff wr = (some 0xfff, d) := by
  have : regF { memDevice with pkg := { memDevice.pkg with up := [7] } } IOM_DDTP 0 4 = 1 := by decide
  simp [xlatDev, xlatReq, xlatFor, this, leafUpdate]
/-- A command queue of two entries whose head is a translation invalidation, and one of a command that does not exist.
-/
def iommuDevice (w : Nat) : Device := { memDevice with
  regs := (IOM_CSR, 0x10000) :: (IOM_CQB, 2 ^ 10 * 4) :: (IOM_CQ, 2 ^ 32) :: memDevice.regs,
  mem := mwrite [] 0x4000 8 w }
theorem meets_IommuCommands :
    let d := iommuDevice 129
    let head := regF d IOM_CQ 0 32
    let a := regF d IOM_CQB 10 44 * 4096 + 16 * head
    regF d IOM_CSR 16 1 = 1 ∧ regF d IOM_CSR 8 3 = 0 ∧ head ≠ regF d IOM_CQ 32 32 % 2 ^ (regF d IOM_CQB 0 5 + 1) ∧
    inMain d a = true ∧ (cohRead d a 8).1 = 129 ∧ 129 % 128 ∈ [1, 3, 4] ∧ 129 / 128 % 8 ≤ 1 ∧ regF d IOM_CSR 1 1 = 0 ∧
    (cohRead (iommuDevice 5) a 8).1 % 128 ∉ [1, 2, 3, 4] ∧ inMain { d with regs := (DRC_CFG 0,
        0) :: d.regs } a = false := by
  decide +kernel

/-! ### DRAM channels -/

def aRead (a : Nat) (p : Bool) : ReadReq := ⟨homeOf memDevice a, ⟨0, a, 0⟩, 0, p⟩
def aWrite (u : Nat) : WriteReq := ⟨0x1000, 5, 0xff, false, u, 0⟩
/-- Channel 1, which holds address 0x1000, with reads and writes. -/
def chanDevice (r : List ReadReq) (w : List WriteReq) : Device := { memDevice with
  chans := memDevice.chans.set 1 { resetChan with rdq := r, wrq := w } }
theorem meets_ChanServes (r : List ReadReq) (w : List WriteReq) : ChanServes (stateOf (chanDevice r w)) 1 :=
  ⟨rfl, by show chanReady (chanDevice [] []) 1 = true; decide +kernel,
   by show chanFailed memDevice 1 = false; decide, rfl, rfl⟩
theorem meets_DramReads :
    let d := chanDevice [aRead 0x1000 false, aRead 0x1040 true] []
    chanOf d 0x1000 = 1 ∧ burst d 1 = false ∧ urgentWrite d 1 = none ∧
    (pickRead d 1).map (·.1) = some (aRead 0x1040 true) ∧ (mediaLine d 0x1040).2 = false ∧
    (pickRead (chanDevice [aRead 0x1000 false] []) 1).map (·.1) = some (aRead 0x1000 false) ∧
    (urgentWrite (chanDevice [] [aWrite 0]) 1).isSome = true ∧
        galFind d.gal[homeOf memDevice 0x1040] 0x1040 = none := by
  decide +kernel
theorem meets_DramErrors :
    let d := chanDevice [] []
    let a := globalOf d 1 d.chans[1].scrub
    0 < chanCap d ∧ chanOf d a = 1 ∧ localOf d a = d.chans[1].scrub ∧ inDram d a = true ∧ (mediaLine d a).2 = false ∧
    d.chans[1].scrub + 64 < chanCap d ∧
        sget d.chans[1].ceRows (rowKey d d.chans[1].scrub) 0 + 1 < regF d (DRC_CTL 1) 22 8 ∧
    healSource d a = none ∧ partnerOf d a = none ∧ d.pager.ranges = [] := by decide +kernel
theorem meets_DramWrites :
    writesGo (chanDevice [] [aWrite 2]) 1 = true ∧ urgentWrite (chanDevice [] [aWrite 2]) 1 = none ∧
    writesGo (chanDevice [aRead 0 false] [aWrite 2]) 1 = false ∧
    urgentWrite (chanDevice [] [aWrite 2, aWrite 0]) 1 = some (aWrite 0) ∧
    [aWrite 2, aWrite 0].find? (fun y => y.line == (aWrite 0).line) = some (aWrite 2) ∧ 0x1000 % 64 = 0 ∧
    chanFailed (setReg memDevice (DRC_STAT 1) 0 2 3) 1 = true ∧ fullLine 0xff = false := by decide +kernel
theorem meets_DramRefresh :
    regF (setReg memDevice (DRC_STAT 1) 0 2 1) (DRC_STAT 1) 0 2 = 1 ∧ regF memDevice (DRC_STAT 1) 0 2 ≠ 1 ∧
    memDevice.chans[1].quiet = false := by decide
def fullTable : List RowCount := (List.range 32).map fun i => ⟨i, i + 1⟩
theorem meets_ActivationTable : fullTable.length ≤ 32 ∧ (fullTable.map (·.row)).Nodup ∧
    ∀ x ∈ fullTable, x.row ≠ 32 := by
  decide
theorem meets_DramDrift :
    beatNow memDevice % 1024 = 0 ∧ chanFailed memDevice 1 = false ∧ windowAgo memDevice 1 = true ∧
    windowAgo (updChan memDevice 1 fun c => { c with lastWindow := some 0 }) 1 = false ∧
    beatNow { memDevice with regs := [(BEAT_COUNT, 1)] } % 1024 ≠ 0 ∧
    (let th := regF memDevice (DRC_TRAIN 1) 0 8
     th < 2 ^ 16 ∧ th < (BitVec.ofNat 16 (4 * th)).toNat ∧ (BitVec.ofNat 16 (4 * th)).toNat ≤ 4 * th ∧
      4 * th < (BitVec.ofNat 16 (4 * th + 1)).toNat) ∧ regF memDevice (BEAT_QW_NEXT 1) 63 1 = 0 := by decide +kernel
theorem meets_DramLink :
    sfind ({ resetChan with since := [(0, 32)] }).since 0 = some 32 ∧ sfind resetChan.since 0 = none ∧
    sget ({ resetChan with replayFails := [(0, 2)] }).replayFails 0 0 + 1 = 3 ∧
        sget resetChan.replayFails 0 0 + 1 ≠ 3 := by decide

/-! ### The ledger -/

/-- Namespace 64 of one GiB of partition 0, and a LEDGER queue that has accepted an entry. -/
def ledgerDevice (l : List Accepted) (staged : List Staged) : Device := { ringDevice 5 (aQueue 2 l) 0 with
  ledger := { resetLedger with nss := [(64, ⟨1, some 0, 0⟩)], staged := staged }
  mem := mwrite [] 0x2000 16 (0x10000 + 2 ^ 64 * 4096) }
/-- Commands on the last block of the namespace. -/
def aLedger (op : Nat) (lba : Nat) : BitVec 512 :=
  if op = 3 then entry 3 [(8, 64)]
  else if op ≤ 2 then entry op [(8, 64), (0xc, 1), (0x10, lba), (0x18, 0x2000), (0x20, 1)]
  else entry op [(8, 64), (0xc, 1), (0x10, lba)]
theorem meets_LedgerRuns : ∀ op ∈ [1, 2, 3, 4, 5],
    let d := ledgerDevice [anAccepted (aLedger op 262143)] []
    openEntryOf d 0 5 0 2 op = some (anAccepted (aLedger op 262143)) ∧ ldgState d ≠ 3 ∧
    ldgOrdered d 0 (anAccepted (aLedger op 262143)) = false ∧
        ldgChecks d 0 op (aLedger op 262143) = 0 := by decide +kernel
theorem meets_LedgerCommands :
    let b := { anAccepted (entry 3 [(8, 64)]) with num := 0, index := 1 }
    let a := anAccepted (entry 3 [(0, 4), (8, 64)])
    ldgState (setReg (ledgerDevice [] []) LDG_STAT 8 2 3) = 3 ∧ ldgOrdered (ledgerDevice [b, a] []) 0 a = true ∧
    ldgBad 1 (entry 1 []) = true ∧ nsOf (ledgerDevice [] []) 1 64 = none ∧
        nsOf (ledgerDevice [] []) 0 64 = some ⟨1, some 0, 0⟩ ∧
    1 * 262144 < lineRead (aLedger 1 262144) 0x10 8 + lineRead (aLedger 1 262144) 0xc 4 ∧
    ¬ 1 * 262144 < lineRead (aLedger 1 262143) 0x10 8 + lineRead (aLedger 1 262143) 0xc 4 := by decide +kernel
def aStaged (data : List Nat) (zeros : Nat) : Staged :=
  { cmd := 0, done := some 1, key := 2 ^ 40 * 64 + 262143, data := data, zeros := zeros }
theorem meets_LedgerCommands_flush :
    [aStaged [5] 0].any (flushCovers (anAccepted (aLedger 3 0))) = true ∧
    [aStaged [5] 0].any (flushCovers { anAccepted (aLedger 3 0) with num := 0 }) = false := by decide +kernel
theorem meets_LedgerCommands_abort :
    let r := entry 6 [(8, 5), (0xa, 77)]
    openEntryOf (ledgerDevice [anAccepted r] []) 0 5 0 2 6 = some (anAccepted r) ∧
    bodyClear r [(8, 2), (0xa, 2), (0x28, 8), (0x30, 4)] = true ∧ lineRead r 8 2 = 5 ∧ fieldN (lineRead r 0 1) 2 1 = 0 ∧
    qFind (ledgerDevice [] []) 0 6 = none ∧ (qFind (ledgerDevice [] []) 0 5).map (·.type) = some 2 := by decide +kernel
theorem meets_LedgerReads :
    let a := anAccepted (aLedger 1 262143)
    let w := { anAccepted (aLedger 2 262143) with num := 0, index := 1 }
    readWaits (ledgerDevice [a] []) 0 5 a = false ∧ readWaits (ledgerDevice [w, a] []) 0 5 a = true ∧
    (sglRead (ledgerDevice [a] []) 0 a.raw).1 = (0, [(0x10000, 4096)]) ∧
    blockNow (ledgerDevice [a] [aStaged [5] 0]) (2 ^ 40 * 64 + 262143) = some 5 ∧
    blockNow { ledgerDevice [a] [] with ledger := { resetLedger with lost := [2 ^ 40 * 64 + 262143] } } (2 ^ 40 * 64 + 262143) = none ∧
    a.saved = [] := by decide +kernel
theorem meets_LedgerWrites :
    let a := anAccepted (aLedger 2 262143)
    ldgState (setReg (ledgerDevice [a] []) LDG_STAT 8 2 2) = 2 ∧ a.progress = 0 ∧ a.covered = [] ∧
    regF (setReg (ledgerDevice [a] []) LDG_STAT 10 1 0) LDG_STAT 10 1 = 0 ∧ ldgFua a.raw = false ∧
        ldgFua (entry 5 [(9, 1)]) = true ∧
    regF (setReg (ledgerDevice [a] []) LDG_STAT 10 1 1) LDG_STAT 10 1 = 1 ∧
        bufferBlocks (ledgerDevice [a] [aStaged [5] 0]) = 1 ∧
    bufferBlocks (ledgerDevice [a] [aStaged (List.replicate 8192 0) 0]) = 8192 := by decide +kernel
theorem meets_LedgerWriteBuffer :
    (aStaged [5] 0).zeros = 0 ∧ (aStaged [] 7).data = [] ∧ ldgState (ledgerDevice [] []) < 2 ∧
    ldgState (setReg (ledgerDevice [] []) LDG_STAT 8 2 3) = 3 := by decide +kernel
theorem meets_StackFailures :
    let d := setReg runDevice LDG_STAT 0 2 1
    regF d LDG_STAT (2 * 0) 2 = 1 ∧ (∀ j : StackId, j ≠ 0 → regF d LDG_STAT (2 * j.val) 2 ≠ 1) ∧
    ldgState (setReg runDevice LDG_STAT 8 2 2) = 2 ∧ 8388608 < 100 * 83887 ∧ 100 * 83886 ≤ 8388608 := by decide +kernel
theorem meets_SelfTests :
    takes runDevice LDG_ST_CTL .manager true = true ∧ carried (whole .manager 1) 0 2 = some 1 ∧
    carried (whole .manager 2) 0 2 = some 2 ∧ carried (whole .manager 3) 0 2 = some 3 ∧
        regF runDevice LDG_ST_STAT 0 2 = 0 ∧
    regF (setReg runDevice LDG_ST_STAT 0 2 1) LDG_ST_STAT 0 2 = 1 ∧
        regF (setReg runDevice LDG_ST_STAT 0 2 2) LDG_ST_STAT 0 2 = 2 := by
  decide +kernel
theorem meets_SelfTests_idle (p : Part) : ldgEntries { runDevice with queues := [] } p = [] := rfl

/-! ### The hold-up store and the persistent window -/

/-- A part with the store of the worked example, in coulomb mode, and a window of `n` pages at 0x100000. -/
def storeDevice (n : Nat) (x : Holdup) : Device := { memDevice with
  regs := (HUP_CFG, 3) :: (HUP_STORE, BitVec.ofNat 64 (2000 + 2 ^ 24 * 5000 + 2 ^ 40 * 12000)) :: (HUP_WIN, 2 ^ 20) ::
    (HUP_LIMIT, BitVec.ofNat 64 (n + 2 ^ 21 * 2)) :: memDevice.regs
  hup := x }
/-- The worked example of R440: the window limits at 8.0 V and at 12.0 V, twice the fixed energy and twice the energy of
R439, and the voltage below which WT is set. -/
theorem test_limit : limitOf (78 * 10 ^ 15) (564 * 10 ^ 12) 120 48000 262144 = 155249 ∧
    limitOf (238 * 10 ^ 15) (564 * 10 ^ 12) 120 48000 262144 = 262144 := by decide
theorem test_energy :
    let d := { storeDevice 262144 { resetHoldup with volts := 8000000 } with
      regs := (HUP_CFG, 1) :: (HUP_STORE, BitVec.ofNat 64 (2000 + 2 ^ 24 * 5000)) :: memDevice.regs }
    energy2 d = 78 * 10 ^ 15 ∧ energyFixed d = 564 * 10 ^ 12 := by decide
theorem meets_WindowLimitIsAffordable : (0 : Nat) < 120 ∧ 3 * (564 * 10 ^ 12) ≤ (78 * 10 ^ 15 : Nat) ∧
    (1691 * 10 ^ 12 : Nat) ≤ 3 * (564 * 10 ^ 12) := by decide
theorem meets_HoldupSamples :
    ({ resetHoldup with dischEn := true } : Holdup).dischEn = true ∧ resetHoldup.dischEn = false := by decide
theorem meets_HoldupLoop :
    let x := { resetHoldup with chargeFrom := some 0, volts := 12000000, amps := -1 }
    let d := storeDevice 4 x
    beatNow d % 1000 = 0 ∧ beatNow { d with regs := (BEAT_COUNT, 1) :: d.regs } % 1000 ≠ 0 ∧ regF d HUP_CFG 0 2 = 3 ∧
    storeFull d = true ∧ storeFull (storeDevice 4 resetHoldup) = false ∧ d.hup.chgEn = false := by decide +kernel
/-- A window of four pages, of which pages 2 and 3 are clean and a write to page 3 waits. -/
def windowHold : Holdup := { resetHoldup with
  clean := [2, 3], order := [0, 1], mapClean := [2, 3], held := [⟨0x130000, 5, 0xff, 0, true⟩] }
theorem meets_WindowPages :
    let d := storeDevice 4 windowHold
    let e := storeDevice 4 { windowHold with clean := [3] }
    pageWanted d 3 = true ∧ pageWanted d 2 = false ∧ unprotected (setReg d HUP_STAT 3 1 0) = false ∧
        unprotected (setReg d HUP_STAT 3 1 1) = true ∧
    winLimit d < dirtyPages d + 1 ∧ dirtyPages (storeDevice 3 windowHold) + 1 ≤ winLimit (storeDevice 3 windowHold) ∧
    dirtyPages e = 3 ∧ ldgState d ≠ 3 ∧ winPage d 0x130000 = some 3 ∧ winPage d 0x13ffff = some 3 ∧
        winPage d 0x140000 = none ∧
    releasable d 0 ⟨0x130000, 5, 0xff, 0, true⟩ = false ∧
    releasable (storeDevice 4 { windowHold with clean := [2] }) 0 ⟨0x130000, 5, 0xff, 0,
        true⟩ = true := by decide +kernel
theorem meets_WindowCleaner :
    let d := storeDevice 4 { windowHold with clean := [1, 2, 3], order := [0], held := [] }
    nextDirty d = some 0 ∧ nextDirty (storeDevice 4 { windowHold with strict := [1] }) = some 1 ∧
    nextDirty (storeDevice 0 resetHoldup) = none := by decide +kernel
theorem meets_WindowCleaner_runs : cleanerRuns (storeDevice 4 { windowHold with cleaning := true }) = true ∧
    cleanerRuns (storeDevice 4 { windowHold with kept := true }) = false := by decide +kernel
theorem meets_PowerFailure :
    let d := storeDevice 4 windowHold
    let e := { d with pkg := { d.pkg with bootDone := true } }
    e.phase = .run ∧ regF e HUP_CFG 0 1 = 1 ∧ e.hup.kept = false ∧ e.pkg.bootDone = true ∧ ldgState e ≠ 3 ∧
        aDrain.lost = [] ∧
    aDrain.copied = none ∧ regF memDevice HUP_CFG 0 1 = 0 := by decide +kernel

/-! ### The Warden -/

/-- The value of parameter bytes. -/
def paramsOf (l : List (Nat × Nat)) : Nat := l.foldl (fun n f => n + f.2 * 2 ^ (8 * f.1)) 0
/-- The registers of a command that executes: opcode, tag 7 and parameters. -/
def boxRegs (op : Nat) (l : List (Nat × Nat)) : Sparse Dword :=
  (WRD_STAT, 1) :: (List.range 32).map fun k =>
    (WRD_CMD k, BitVec.ofNat 64 ((op + 2 ^ 16 * 7 + 2 ^ 64 * paramsOf l) / 2 ^ (64 * k)))
/-- A part whose mailbox executes a command, with a bulk buffer of `n` bytes at 0x1000 that holds `bulk`. -/
def boxDevice (op : Nat) (l : List (Nat × Nat)) (n bulk : Nat) : Device := { memDevice with
  regs := boxRegs op l ++ (WRD_DMA_ADDR, 0x1000) :: (WRD_DMA_LEN, BitVec.ofNat 64 n) :: memDevice.regs
  mem := mwrite [] 0x1000 n bulk, parts := [(0, resetPart), (5, aPartition)] }
theorem boxExecutes_of {d : Device} {op : Nat} (h : ready d = true ∧ regF d WRD_STAT 0 1 = 1 ∧ cmdOp d = op) :
    BoxExecutes (stateOf d) op :=
  ⟨by simpa [ready, stateOf] using h.1, h.2.1, h.2.2⟩
/-- Every opcode of a statement about a command that executes. -/
theorem meets_BoxExecutes : ∀ op ∈ [0x100, 0x101, 0x102, 0x103, 0x104, 0x105, 0x106, 0x107, 0x200, 0x201, 0x202, 0x203,
    0x204, 0x300, 0x301, 0x302, 0x303, 0x400, 0x401, 0x402, 0x500, 0x501, 0x502, 0x600, 0x601, 0x700, 0x701, 0x800,
        0x900,
    0x901, 0xa00, 0xa01, 0xa02, 0xb00], BoxExecutes (stateOf (boxDevice op [] 0 0)) op := by
  intro op h
  apply boxExecutes_of
  revert op
  decide +kernel

theorem meets_MailboxDoorbell :
    let d := { memDevice with regs := (WRD_STAT, 0) :: (boxRegs 0x200 []).tail ++ memDevice.regs }
    takes d WRD_DOORBELL .manager true = true ∧ takes d WRD_DOORBELL .bmc true = true ∧ strobe (whole .bmc 1) 0 = true ∧
    strobe (whole .bmc 2) 0 = false ∧ regF d WRD_STAT 0 1 = 0 ∧ regF (boxDevice 0x200 [] 0 0) WRD_STAT 0 1 = 1 ∧
    boxStatus d false = 0 ∧ boxStatus (boxDevice 0xfff [] 0 0) false = 0x622 ∧ cmdRow 0xfff = none ∧
    (cmdRow 0x100).map (·.i3c) = some false ∧ recoveryOp 0x100 = false := by decide +kernel
theorem meets_MailboxEvents :
    let c : LongCmd := ⟨7, 0x202, 0, 0, 0, 0⟩
    let d := { boxDevice 0xb00 [(0, 7)] 0 0 with warden := { resetWarden with longs := [c],
                                                                              ended := [⟨7, 0x301, 0, 0⟩] } }
    takes d WRD_EVENT_CTL .manager true = true ∧ d.warden.longs[0]? = some c ∧ d.warden.longs[1]? = none ∧
    d.warden.ended.find? (fun e => e.tag == param d 0 2) = some ⟨7, 0x301, 0, 0⟩ ∧ paused d = false ∧
    regF d WRD_EVENT_MSI 32 1 = 0 ∧ (∀ e ∈ d.warden.ended, e.tag ≠ param (boxDevice 0xb00 [(0, 8)] 0 0) 0 2) ∧
    regF d SNAP_STAT 0 2 = 0 := by decide +kernel
theorem meets_MailboxEvents_ends :
    let p := { aPartition with state := .freezing }
    let d := { boxDevice 0xb00 [] 0 0 with
      parts := [(5, p)], queues := [], ledger := { resetLedger with nss := [(64, ⟨1, none, 0⟩)] } }
    sfind d.parts (5 % 64) = some p ∧ p.freezeAt = none ∧ p.destroying = false ∧ (sfind d.ledger.nss 64).isSome = true ∧
    (sfind d.ledger.nss 63).isNone = true ∧ nsBusy d 64 = false := by decide +kernel
theorem meets_MailboxEvents_frozen : freezeDone { runDevice with queues := [] } (partNo 5) = true := by
  have h : ∀ e : Eng, ({ runDevice with queues := [] } : Device).engines[e].owner = none := fun e => by
    simp [runDevice, resetDevice, resetEngine]
  simp only [freezeDone, h]
  simp [partQueues, segsOf, runDevice, resetDevice, resetPager, resetSched]

/-- Partition 5 has a quota of 2 GiB, and namespace 1 is free. -/
def nsDevice (op : Nat) (l : List (Nat × Nat)) (n : Namespace) : Device := { boxDevice op l 0 0 with
  parts := [(5, { resetPart with desc := BitVec.ofNat 1024 (2 * 2 ^ (8 * 0x56)) })]
  ledger := { resetLedger with nss := [(1, n)] } }
theorem meets_NamespaceCommands :
    let d := nsDevice 0x300 [(0, 5), (1, 2)] ⟨2, none, 0⟩
    param d 0 1 = 5 ∧ param d 1 1 = 2 ∧ freeNsid d = some 2 ∧ freeGib d = 93 ∧ ledgerQuota d 5 = 2 ∧
        attachedGib d 5 = 0 ∧
    attachedGib (nsDevice 0x300 [] ⟨1, some 5, 5⟩) 5 = 1 ∧ (sfind d.parts 5).isSome = true ∧ sfind d.parts 63 = none ∧
    sfind d.ledger.nss 1 = some ⟨2, none, 0⟩ ∧ sfind d.ledger.nss 64 = none ∧
        param (nsDevice 0x300 [(0, 63), (1, 95)] ⟨1, none, 0⟩) 1 1 = 95 ∧
    freeNsid { d with ledger := { resetLedger with nss := (List.range 64).map fun k =>
                                                   (k + 1, ⟨1, none, 0⟩) } } = none := by
  decide +kernel

/-- A descriptor of partition 9 with engine 255, bank 255 and one thread. -/
def newDescriptor : Nat :=
  0x5052 + 2 ^ 16 + 2 ^ 24 * 9 + 2 ^ (64 + 255) + 2 ^ (8 * 0x28 + 255) + 2 ^ (8 * 0x4a) + 2 ^ (8 * 0x4b) + 2 ^ (8 * 0x50) + 2 ^ (8 * 0x58)
theorem meets_PartitionCommands_create :
    let d := boxDevice 0x100 [] 128 newDescriptor
    bulkStatus d (dmaAddr d) (dmaLen d) 128 = 0 ∧ bulkStatus (boxDevice 0x100 [] 127 0) 0x1000 127 128 = 0x618 ∧
    (cohRead d (dmaAddr d) 128).1 = newDescriptor ∧ rdBad newDescriptor = false ∧ rdBad 0 = true ∧
        rdF newDescriptor 3 1 = 9 ∧
    sfind d.parts 9 = none := by decide +kernel
theorem meets_PartitionCommands_available : rdAvailable (boxDevice 0x100 [] 128 newDescriptor) newDescriptor = true := by
  have h : ∀ e : Eng, engInPool (boxDevice 0x100 [] 128 newDescriptor) e = true := fun e => by
    simp [engInPool, boxDevice, memDevice, runDevice, resetDevice, resetEngine]
  have hb : (rdBanks newDescriptor).all (bankInPool (boxDevice 0x100 [] 128 newDescriptor)) = true := by decide +kernel
  have hs : (rdSlots newDescriptor).all (slotInPool (boxDevice 0x100 [] 128 newDescriptor)) = true := by decide +kernel
  have hq : decide ((boxDevice 0x100 [] 128 newDescriptor).parts.foldl (fun n x => n + rdF x.2.desc.toNat 0x54 2)
      (rdF newDescriptor 0x54 2) ≤ 65536) = true ∧ decide ((boxDevice 0x100 [] 128 newDescriptor).parts.foldl
      (fun n x => n + rdF x.2.desc.toNat 0x4e 2 + 1) (rdF newDescriptor 0x4e 2 + 1) ≤ 16384) = true := by decide +kernel
  have he : (rdEngines newDescriptor).all (engInPool (boxDevice 0x100 [] 128 newDescriptor)) = true :=
    List.all_eq_true.mpr fun e _ => h e
  unfold rdAvailable
  rw [he, hb, hs, hq.1, hq.2]; rfl
theorem meets_PartitionCommands :
    let d := boxDevice 0x103 [(0, 5)] 16 0
    param d 0 1 = 5 ∧ sfind d.parts 5 = some aPartition ∧ aPartition.destroying = false ∧ aPartition.state = .running ∧
    (∀ q ∈ d.queues, q.1 / 16384 ≠ 5) ∧ ({ aPartition with state := .frozen } : Partition).restored = false ∧
    ({ aPartition with state := .frozen } : Partition).places = [] ∧ d.sched.insts = [] ∧
    rangesMet d 5 { aPartition with needs := [⟨0, 0, 1⟩] } = false ∧ param (boxDevice 0x105 [(0, 5),
        (1, 1)] 16 0) 1 1 = 1 ∧
    bulkStatus d (dmaAddr d) (dmaLen d) (dmaLen d / 16 * 16) = 0 ∧ param (boxDevice 0x101 [(0, 63)] 0 0) 0 1 = 63 ∧
    sfind d.parts 63 = none := by decide +kernel
theorem meets_PartitionCommands_engines :
    let v := newDescriptor
    (255 : Eng) ∈ rdEngines v ∧ engInPool { runDevice with engines := runDevice.engines.set 255 { resetEngine with owner := some 5 } } 255 = false ∧
    engInPool runDevice 255 = true := by decide +kernel
theorem meets_PartitionReport :
    let r := entry 8 [(0x10, 0x1000)]
    let d := adminDevice r (aQueue 3 [])
    adminEntry d 0 0 8 = some (anAccepted r) ∧ bodyClear r [(0x10, 8)] = true ∧ lineRead r 0x10 8 % 4096 = 0 ∧
    lineRead (entry 8 [(0x10, 0x1001)]) 0x10 8 % 4096 ≠ 0 := by decide +kernel
theorem meets_PartitionReport_page (p : Part) (v : Nat) : (ioWrite memDevice p 0x1000 4096 v).1 = true ∧
    (ioWrite runDevice p 0x1000 4096 v).1 = false := by
  have h := xlatMem_bare (d := memDevice) p true memDevice_bare memDevice_main.1
  have k : (xlatMem runDevice p 0x1000 true).1 = none := by
    have : regF runDevice IOM_DDTP 0 4 = 0 := by decide
    simp [xlatMem, xlat, xlatDev, xlatReq, xlatFor, devCtx, this]
  constructor
  · simp [ioWrite, ioWriteGo, h]
  · rw [ioWrite, ioWriteGo]
    cases hy : xlatMem runDevice p 0x1000 true with
    | mk r d => rw [hy] at k; simp only at k; subst k; simp [hy]

/-! ### Firmware, settings, identity and the Warden's other commands -/

theorem meets_WardenReports :
    let d := { boxDevice 0x203 [(0, 1)] 0 0 with warden := { resetWarden with set0 := some ⟨3, [(1, 5), (2, 6)]⟩ } }
    settingsNow d = some ⟨3, [(1, 5), (2, 6)]⟩ ∧ [((1 : Nat), (5 : Dword)), (2, 6)][param d 0 2]? = some (2, 6) ∧
    [((1 : Nat), (5 : Dword)), (2, 6)][param (boxDevice 0x203 [(0, 2)] 0 0) 0 2]? = none ∧
    slotState (bootRec d) (1 - (bootRec d).active) ≠ 1 ∧ slotState ⟨0, 0, false, 0, 2, 1, 0⟩ 1 = 1 := by decide +kernel
/-- The bytes of a settings list of one pair, and its length. -/
def settingsBytes : List Byte :=
  let body := bytesOf (7 + 2 ^ 32 * 9) 12
  bytesOf (3 + 2 ^ 32) 8 ++ bytesOf (crc32c body) 4 ++ bytesOf 0 4 ++ body
theorem meets_FirmwareCommands :
    let d := boxDevice 0x204 [] 28 (ofBytes settingsBytes)
    parseSettings settingsBytes = some ⟨3, [(7, 9)]⟩ ∧ settingsBytes.length = 28 ∧ (bootRec d).trial = false ∧
    bulkStatus d (dmaAddr d) (dmaLen d) 28 = 0 ∧ bulkStatus d (dmaAddr d) (dmaLen d) 40 = 0x618 ∧ pendingCmds d = 0 ∧
    slotState (bootRec d) (idleSlot d) ≠ 1 ∧ param (boxDevice 0x201 [(0, 2 ^ 23), (4, 0)] 0 0) 0 4 + 0 ≤ 2 ^ 23 ∧
    2 ^ 23 < param (boxDevice 0x201 [(0, 2 ^ 23), (4, 0)] 1 0) 0 4 + 1 ∧
    parseSettings (bytesOf 5 16) = some ⟨5, []⟩ ∧ parseSettings (bytesOf (2 ^ 64) 16) = none := by decide +kernel
theorem meets_FirmwareActivation :
    let r : BootRecord := ⟨0, 0, true, 0, 2, 1, 0⟩
    let d := { runDevice with warden := { resetWarden with longs := [⟨7, 0x202, 0, 0, 0, 0⟩] } }
    let e := { runDevice with warden := { resetWarden with rec0 := some r, trialOn := true } }
    d.warden.pause = none ∧ (activateAt d).isSome = true ∧ paused d = false ∧ (bootRec d).active ≤ 1 ∧
    activateAt runDevice = none ∧ e.warden.trialOn = true ∧ (bootRec e).trial = true ∧ (bootRec d).trial = false ∧
    d.warden.image.svn ≤ d.warden.fuses ∧
    ({ resetWarden with image := ⟨0, 1, 0, 0, []⟩ } : Warden).fuses < ({ resetWarden with image := ⟨0, 1, 0, 0,
        []⟩ } : Warden).image.svn ∧
    regF d WRD_EVENT_MSI 32 1 = 0 := by decide +kernel
theorem meets_FirmwareActivation_held : enginesHeld (engineState kernelEngine).dev = false := by
  simp only [enginesHeld, List.all_eq_false]
  exact ⟨0, List.mem_finRange _, by simp [engineState, kernelEngine]⟩
theorem meets_BootRecordUpdates :
    recSecond { resetWarden with rec1 := some ⟨1, 1, false, 0, 2, 2, 0⟩ } = true ∧ recSecond resetWarden = false ∧
    resetWarden.rec0.isSome = true := by decide
theorem meets_RecoveryInjectionIdentity :
    param (boxDevice 0xa01 [(0, 2 ^ 23 - 240), (4, 240)] 0 0) 0 4 + param (boxDevice 0xa01 [(0, 2 ^ 23 - 240),
        (4, 240)] 0 0) 4 4 = 2 ^ 23 ∧
    param (boxDevice 0xa01 [(0, 0), (4, 241)] 0 0) 4 4 = 241 ∧
    (let d := setReg (boxDevice 0x800 [(0, 0x0d), (2, 15), (0x10, 256)] 0 0) LIFE_CTL 0 1 1
     regF d LIFE_CTL 0 1 ≠ 0 ∧ injectable (param d 0 1) = some 16 ∧ param d 2 2 = 15 ∧ param d 0x10 2 = 256) ∧
    regF (boxDevice 0x800 [] 0 0) LIFE_CTL 0 1 = 0 ∧ injectable 0 = none ∧ 0x0d ∉ [0x03, 0x06, 0x15] ∧
    dmaLen (boxDevice 0x900 [] 8191 0) < 8192 ∧ dmaLen (boxDevice 0x901 [] 149 0) < 150 := by decide +kernel
/-- A bulk buffer that is large enough for any data of up to a gigabyte, in main memory. -/
theorem meets_RecoveryInjectionIdentity_bulk (n : Nat) (h : n ≤ 2 ^ 30) :
    let d := { memDevice with regs := (WRD_DMA_ADDR, 0x1000) :: (WRD_DMA_LEN, 0xffffffff) :: memDevice.regs }
    bulkStatus d (dmaAddr d) (dmaLen d) n = 0 ∧ 8192 ≤ dmaLen d := by
  intro d
  have h1 : dmaLen d = 0xffffffff := by decide +kernel
  have h2 : dmaAddr d = 0x1000 := by decide +kernel
  have h3 : chanCap d = 16 * 2 ^ 30 := by decide +kernel
  rw [h1, h2]
  refine ⟨?_, by decide⟩
  have a : inDram d 0x1000 = true := by simp [inDram, h3]
  have b : inDram d (0x1000 + n - 1) = true := by simp only [inDram, h3]; exact decide_eq_true (by omega)
  have c : ¬ 4294967295 < n := by omega
  unfold bulkStatus
  rw [if_neg c, a, b]; simp
theorem meets_WardenControl :
    (let d := boxDevice 0x402 [(0, 400), (4, 0xffff), (7, 15)] 0 0
     param d 0 2 = 400 ∧ param d 2 1 = 0 ∧ param d 6 1 = 0 ∧ param d 7 1 = 15 ∧ regF d BEAT_CTL 63 1 = 0 ∧
         d.phase = .run) ∧
    param (boxDevice 0x402 [(0, 401)] 0 0) 0 2 = 401 ∧ regF (boxDevice 0x500 [] 0 0) HUP_CFG 63 1 = 0 ∧
    param (boxDevice 0x400 [(0x10, 3000)] 0 0) 0x10 2 = 3000 ∧ param (boxDevice 0x400 [(0x10,
        850)] 0 0) 0x10 2 % 100 ≠ 0 ∧
    (let d := boxDevice 0x501 [(0, 0x10000), (8, 2)] 0 0
     windowStatus d (param d 0 8) (param d 8 4) = 0) ∧ windowStatus memDevice 1 1 = 3 ∧
    ({ resetHoldup with kept := true } : Holdup).kept = true ∧ regF memDevice SNAP_STAT 0 2 = 0 ∧
    regF (setReg memDevice SNAP_STAT 0 2 1) SNAP_STAT 0 2 ≠ 0 := by decide +kernel

/-! ### Records, mesh, snapshots and the log -/

def anEvent (cls : Nat) : RasEvent := ⟨cls, 3, 0x1000, 0, none, false, 0, 1⟩
/-- An event waits; the ring is on, of 32 records, with its producer before its last one. -/
def eventDevice (cls cons : Nat) (ws : List Coalesce) : Device := { memDevice with
  regs := (SNAP_CTL, 1) :: (LIFE_EVQ_CFG, BitVec.ofNat 64 (1 + 4 * 5)) :: (LIFE_EVQ_IDX,
  BitVec.ofNat 64 (31 + 2 ^ 16 * cons)) :: memDevice.regs
  ras := { resetRas with raised := [anEvent cls], windows := ws } }
theorem meets_EventRecords :
    let d := eventDevice 0x16 5 []
    let n := 2 ^ regF d LIFE_EVQ_CFG 2 5
    n = 32 ∧ regF d LIFE_EVQ_IDX 0 16 = 31 ∧ regF d LIFE_EVQ_CFG 0 1 = 1 ∧ regF d LIFE_EVQ_CFG 1 1 = 0 ∧
    (31 + 1) % n ≠ regF d LIFE_EVQ_IDX 16 16 ∧ (31 + 1) % n = regF (eventDevice 0x16 0 []) LIFE_EVQ_IDX 16 16 ∧
    (anEvent 0x16).part = none ∧ coalesced 0x16 = false ∧ coalesced 0x06 = true ∧ regF d SNAP_CTL 2 1 = 0 ∧
    regF memDevice LIFE_EVQ_CFG 0 1 = 0 ∧ beatNow d < 0 + 1000 ∧
    0 + 1000 ≤ beatNow { d with regs := (BEAT_COUNT, 1000) :: d.regs } := by decide +kernel
theorem meets_EventRecords_window :
    let w : Coalesce := ⟨0x06, 3, 0, none⟩
    (∃ v ∈ (eventDevice 0x06 5 [w]).ras.windows, v.cls = (anEvent 0x06).cls ∧ v.inst = (anEvent 0x06).inst) ∧
    takeFirst (fun w : Coalesce => w.cls == (0x06 : BitVec 8).toNat &&
        w.inst == (3 : BitVec 16).toNat) [w] = some (w, []) ∧
    ({ w with since := some (anEvent 0x06) } : Coalesce).since = some (anEvent 0x06) := ⟨⟨_,
        List.mem_singleton.mpr rfl, rfl, rfl⟩, rfl, rfl⟩
theorem meets_FatalAndMeshFailures :
    linkPeer 0 (linkBit .rankUp) = some 8 ∧ linkPeer 0 (linkBit .rankDown) = none ∧
        regF runDevice (MSH_STAT 0) (linkBit .rankUp) 1 = 1 ∧
    (0, linkBit .rankUp) ∉ runDevice.mesh.pend ∧ regF (setReg runDevice (MSH_STAT 0) 0 1 0) (MSH_STAT 0) 0 1 = 0 ∧
    regF runDevice (MSH_STAT 63) 0 1 = 1 ∧ 63 ∉ runDevice.mesh.cut ∧ resetHart.held = false ∧
        runDevice.ras.marks = [] := by decide +kernel
theorem meets_SnapshotsAndLog :
    regF (setReg runDevice SNAP_CTL 0 1 0) SNAP_CTL 0 1 = 0 ∧ regF runDevice SNAP_CTL 0 1 = 1 ∧
        regF runDevice SNAP_STAT 0 2 = 0 ∧
    runDevice.ras.snapWait = none ∧ takes runDevice SNAP_CTL .manager true = true ∧ strobe (whole .manager 8) 3 = true ∧
    strobe (whole .manager 7) 3 = false ∧
        halfSeq runDevice.life.half0 ≤ halfSeq runDevice.life.half1 := by decide +kernel

/-! ### Register writes -/

theorem meets_RegisterWrites :
    takes runDevice PGR_PART_SEL .manager true = true ∧ takes runDevice (DRC_ERR 15) .manager true = true ∧
    (∀ x ∈ [BEAT_COUNT, HUP_ENERGY, PWR_HALL, LDG_STAT], takes runDevice x .warden true = true) ∧
    blkOf (DRC_ERR 15) = some (.drc, 15, DRC_ERR 15 % 65536) ∧ deadBlk runDevice .drc 15 = false ∧ DRC_ERR 15 % 8 = 0 ∧
    accepts .drc (DRC_ERR 15 % 65536) (.guest 3) true = false ∧ ready runDevice = true ∧
        blkOf 0xfffffff8 = none := by decide +kernel
/-- A block of a gallery slice whose square has failed is dead. -/
theorem meets_RegisterWrites_dead :
    deadBlk { setReg runDevice (MSH_STAT 5) 0 1 0 with mesh := ⟨[], [5], []⟩ } .gal 5 = true := by decide +kernel

/-! ### Power, clock and sideband -/

theorem meets_PowerControl :
    beatNow runDevice % 1000 = 0 ∧ regF runDevice PWR_CTL 8 8 < 256 ∧ regF runDevice PWR_STAT 14 1 = 0 ∧
    regF (setReg runDevice PWR_CTL 16 1 1) PWR_CTL 16 1 = 1 ∧ regF (setReg runDevice PWR_CTL 16 1 0) PWR_CTL 16 1 = 0 ∧
    vrWaits runDevice .west = 0 ∧ vrWaits { runDevice with pkg := { runDevice.pkg with setW := 900 } } .west = 900 ∧
    (99 : Nat) < 100 ∧ (114 : Nat) < 115 ∧ (115 : Nat) ≤ 115 := by decide +kernel
theorem meets_ClockAndSideband :
    let full := { runDevice with pkg := { runDevice.pkg with rx := List.replicate 64 0, tx := List.replicate 16 0 } }
    regF runDevice PWR_STAT 15 1 = 0 ∧ regF (setReg runDevice PWR_STAT 15 1 1) PWR_STAT 15 1 = 1 ∧
    takes runDevice PWR_UART_DATA .manager true = true ∧ strobe (whole .manager (2 ^ 24)) 24 = true ∧
    strobe (whole .manager (2 ^ 24)) 25 = false ∧ strobe (whole .manager (2 ^ 25)) 25 = true ∧
    regF (setReg runDevice PWR_UART_CTL 0 1 1) PWR_UART_CTL 0 1 = 1 ∧
        regF (setReg runDevice PWR_UART_CTL 0 1 0) PWR_UART_CTL 0 1 = 0 ∧
    regF (setReg runDevice PWR_UART_CTL 1 1 0) PWR_UART_CTL 1 1 = 0 ∧ 64 ≤ full.pkg.rx.length ∧
        full.pkg.tx.length = 16 ∧
    (3 : BitVec 5) ∉ [0, 1, 2, 0x10, 0x11] ∧ regF (setReg runDevice PWR_CTL 17 1 1) PWR_CTL 17 1 = 1 ∧
    regF (setReg runDevice PWR_CTL 17 1 0) PWR_CTL 17 1 = 0 ∧
    portExists (setReg runDevice PWR_LINKCFG 0 24 0) 0 = true ∧
        portExists (setReg runDevice PWR_LINKCFG 0 24 0) 1 = false ∧
    ({ runDevice.pkg with perst := false } : Package).perst = false ∧ runDevice.pkg.perst = true := by decide +kernel
theorem meets_ChargeExpiry : runDevice.phase = .run ∧ ({ runDevice with phase := .recovery }).phase = .recovery ∧
    256 ≠ 0 := by decide

/-! ### Resets, and rules of the whole part -/

theorem meets_WarmReset :
    runDevice.phase = .run ∧ resetDevice.phase = .startup ∧ resetDevice.pkg.bootErr = 0 ∧
    blkOf (DRC_ECC 3) = some (.drc, 3, DRC_ECC 3 % 65536) ∧ (blkInfo .drc).cold = true ∧
    blkOf PGR_PART_SEL = some (.pgr, 0, PGR_PART_SEL - 0x13700000) ∧ (blkInfo .pgr).cold = false ∧
    keptFields .pgr (PGR_PART_SEL - 0x13700000) = [] := by decide +kernel
theorem meets_ColdReset :
    let bad := { resetDevice with warden := { resetWarden with slotA := .bytes [] } }
    resetDevice.phase = .startup ∧ aBoot.pwrok = true ∧ (bootRec resetDevice).trial = false ∧
        (bootRec resetDevice).active = 0 ∧
    imageFault resetDevice 0 = 0 ∧ resetDevice.hup.saved = [] ∧ aBoot.badPop = none ∧
        ({ aBoot with badPop := some 15 }).badPop = some 15 ∧
    ({ aBoot with badTrain := some 15 }).badTrain = some 15 ∧ imageFault bad 0 ≠ 0 ∧
        imageFault bad 1 ≠ 0 := by decide +kernel
theorem meets_ColdReset_plain :
    let d := { resetDevice with warden := { resetWarden with set0 := some ⟨imgField (slotData resetDevice 0) 0x10 4,
        []⟩ } }
    ∃ x, settingsNow d = some x ∧ x.pairs = [] ∧ x.schema = imgField (slotData d (bootRec d).active) 0x10 4 :=
  ⟨_, rfl, rfl, rfl⟩
theorem meets_ColdReset_release :
    let d := { resetDevice with phase := .warm, pkg := { resetPackage with bootDone := true } }
    d.phase = .warm ∧ imageFault d (bootRec d).active = 0 ∧ d.pkg.bootDone = true := by decide +kernel
/-- A store in thread mode below the kernel area leaves a next state. -/
theorem meets_KernelAreasAreProtected :
    (encodeSirto (.sd 0 ⟨4, 15, 0⟩)).isSome = true ∧ (threadAt).mode = .thread ∧
    ∃ t, exec (.sd 0 ⟨4, 15, 0⟩) (engineState threadAt) = .next t := ⟨by decide, rfl, _, rfl⟩
theorem meets_PersistedIsFinal :
    let s := stateOf { resetDevice with phase := .persisted }
    s.dev.phase = .persisted ∧ (∀ e : Eng, (s.eng e).run ≠ .running) ∧ ∃ t, exec (.pwrokFall aDrain) s = .next t := by
  refine ⟨rfl, fun e => ?_, _, rfl⟩
  simp [State.eng, stateOf, resetDevice, resetEngine]

/-! ### The queue and the encoding -/

theorem meets_EmptyQueueIdles : State.reset.pending = [] := rfl
theorem meets_QueueRunsInOrder (d : Device) : [Instr.uartTxByteSent, .uartTxByteSent][1]? = some .uartTxByteSent ∧
    [d][0]? = some d :=
  ⟨rfl, rfl⟩
/-- A state in canonical form that steps. -/
theorem meets_StepsKeepMemoryCanonical (h : State.reset.dev.MemoryOk) :
    State.reset.dev.MemoryOk ∧ ∃ t, Steps State.reset t := ⟨h, _, rfl⟩
theorem meets_SirtoDecodeOfEncode :
    encodeSirto (.addi 0 ⟨4, 4, 8⟩) = some 0x08840008 ∧ sirtoLegal (.addi 0 ⟨4, 4, 8⟩) = true ∧
    decodeSirto 0 0x08840008 = some (.addi 0 ⟨4, 4, 8⟩) := by decide
/-- The table gives no row any bits, so no word spells a command and the queue stays as it is. -/
theorem test_fetch : (State.reset.withFetchWord 32 0x08840008).pending = [] := by decide

/-! ### Values of the standards that the spec names: the check value of CRC-32C, and SHA3-256 of the empty message
(FIPS 202), whose first 8 bytes are a7 ff c6 f8 bf 1e d7 66 -/

theorem test_crc32c_check_value :
    crc32c [0x31, 0x32, 0x33, 0x34, 0x35, 0x36, 0x37, 0x38, 0x39] = 0xE3069283 := by decide +kernel

theorem test_sha3_256_empty : sha3 [] % 2 ^ 64 = 0x66d71ebff8c6ffa7 := by decide +kernel


/-! ### More states that meet hypotheses: engine instructions -/

theorem meets_StoresToLanding_code :
    (addrOf kernelAt ⟨20, 10, 0⟩).toNat = 0x102000 ∧ (addrOf kernelAt ⟨20, 4, 0⟩).toNat + 8 = 0x110000 ∧
    (addrOf kernelAt ⟨20, 4, 4⟩).toNat + 4 = 0x110000 ∧ (addrOf kernelAt ⟨20, 4, 0⟩).toNat % 8 = 0 := by decide
/-- A store buffer whose middle entry is the youngest that overlaps 8 bytes of line 0, all of them or half. -/
def forwardSb (en : BitVec 64) : List SbEntry :=
  [⟨0, .store 0 0xff, false, false⟩, ⟨0, .store 0x1234 en, false, false⟩, ⟨0x40, .store 0 0xff, false, false⟩]
theorem meets_MemorySpace_forward :
    allExecute { kernelAt with sb := forwardSb 0xff } ((loadForms 0 ⟨20, 5, 0⟩).map (·.1)) = true ∧
    enables (0 % 64) 8 = 0xff ∧ (0xff : BitVec 64) &&& enables 0 8 = enables 0 8 ∧
        (0x0f : BitVec 64) &&& enables 0 8 ≠ 0 ∧
    (0x0f : BitVec 64) &&& enables 0 8 ≠ enables 0 8 ∧
    ∀ q ∈ [(⟨0x40, .store 0 0xff, false, false⟩ : SbEntry)], sbBytes q (lineOf 0) &&& enables 0 8 = 0 := by decide
/-- With the IOMMU off no address has a translation. -/
theorem xlatMem_off {d : Device} (p : Part) (va : Nat) (wr : Bool) (h : regF d IOM_DDTP 0 4 = 0) :
    (xlatMem d p va wr).1 = none := by
  simp [xlatMem, xlat, xlatDev, xlatReq, xlatFor, devCtx, h]
theorem meets_MemorySpace_untranslated (x : Engine) (e : Eng) (wr : Bool) :
    (xlatMem ((engineState x).withEng e x).dev (partOf x) 0 wr).1 = none :=
  xlatMem_off _ _ _ (show regF runDevice IOM_DDTP 0 4 = 0 by decide)
theorem meets_UnitStart_saved :
    let t := { thread0 with ctx := some (ctxOf kernelAt) }
    t.ctx = some (ctxOf kernelAt) := rfl
/-- No active element, and elements that end past landing in each mode. -/
theorem meets_PackedLoads_edges :
    let x := { withS threadEngine [(1, 0x1f0000 - 15), (2, 0x200000 - 15)] with p := Vector.replicate 8 0xffff }
    let y := { x with mode := .kernel }
    topActive (fun k => (getP (withS threadEngine []) 1).getLsbD k) 16 = 0 ∧
    topActive (fun k => (getP x 1).getLsbD k) 16 = 16 ∧ 8 * 0x3e000 < (getS x 1).toNat + 16 * 1 ∧
    8 * 0x40000 < (getS y 2).toNat + 16 * 1 ∧
    allExecute x [.vld 0 ⟨15, 1, 0, false, 0, 1⟩ false, .vst 0 ⟨15, 1, 0, false, 0, 1⟩ false,
        .pld 0 ⟨7, 1, 0, false, 0, 0⟩] = true := by
  decide
/-- Lane 0 of a gather and of an accumulation starts at the last byte that thread mode may touch. -/
theorem meets_GatherAndTableAccumulate_fault :
    let x := { withS threadEngine [(5, 0x3dfff)] with p := Vector.replicate 8 1, vm := Vector.replicate 16 1 }
    active x ⟨15, 14, 5, 1, true⟩ 0 = true ∧ ok1 x ⟨15, 14, 5, 1, true⟩ 0 = true ∧ (getVm x 15).getLsbD 0 = true ∧
    (getS x 5).toNat + 1 = 0x3e000 ∧ allExecute x [.vgather 0 ⟨15, 14, 5, 1, true⟩ ⟨3, true, true⟩,
        .vacct 0 ⟨15, 14, 5, 1, true⟩] = true := by
  decide

/-! ### Caches -/

theorem meets_StoreBufferDrains_more :
    let full : List SbEntry := [⟨0x1000, .store 5 (BitVec.allOnes 64), true, false⟩]
    let inv : List SbEntry := [⟨0x1000, .maintAddr false true false, true, false⟩]
    let x := { kernelAt with sb := full }
    let y := { storingEngine with sb := inv }
    x.miss = none ∧ l1Find x 0x1000 = none ∧ sfind x.l1 (l1Key 0x1000 3) = none ∧ (engineState x).dev.ras.armed = [] ∧
    l1Find y 0x1000 = some (l1Key 0x1000 0, ⟨0x1000, 0, true, false, 0, false⟩) ∧
        y.miss = none := ⟨rfl, rfl, rfl, rfl, rfl, rfl⟩
/-- A set of L1 whose four ways hold clean lines. -/
theorem meets_L1Fills_full :
    let l := (List.range 4).map fun w => (l1Key 0x1000 w, (⟨0x1000 + 0x10000 * (w + 1), 0, false, false, w,
        false⟩ : L1Line))
    ∀ w < 4, ∃ v, sfind l (l1Key 0x1000 w) = some v ∧ v.dirty = false := by
  intro l w h
  have : w = 0 ∨ w = 1 ∨ w = 2 ∨ w = 3 := by omega
  rcases this with rfl | rfl | rfl | rfl <;> exact ⟨_, rfl, rfl⟩
theorem meets_L1Fills_poison :
    kernelAt.run = .running ∧ kernelAt.eie = false ∧ kernelAt.entry = none ∧
        ({ kernelAt with eie := true }).eie = true ∧
    (⟨0x1000, 0, true, some none⟩ : L1Miss).load = true := ⟨rfl, rfl, rfl, rfl, rfl⟩
theorem meets_MezzanineFills_last : ([0].filter (· != 0x1000 / 64 % 4)) = [] ∧ resetMez.queue = [] := ⟨by decide, rfl⟩
theorem meets_GalleryRequests_more :
    sget memDevice.galFlips aGalLine.line 0 = 0 ∧ inDram memDevice (2 ^ 48) = false ∧
    modified memDevice (2 ^ 48) = none ∧ modified (hartDevice (holding true)) 0x1000 = some (7, true) ∧
    memDevice.chans[chanOf memDevice 0x1000].wrq.length < 64 ∧ 64 ≤ (List.replicate 64 (aWrite 2)).length := by
  refine ⟨rfl, by decide, by decide +kernel, by decide +kernel, by decide, by simp⟩

/-! ### The engine's registers, and the beat -/

theorem meets_EngineRegisters_parts :
    takes runDevice (ENG_CTL 255) .warden true = true ∧ (⟨.warden, .high, 3⟩ : RegAccess).part = .high ∧
    takes runDevice (ENG_CS_DATA 0) .manager false = true ∧ ({ kernelAt with run := .halted }).reload = false ∧
    regF (setReg runDevice (ENG_CS_ADDR 0) 63 1 1) (ENG_CS_ADDR 0) 63 1 = 1 := by decide
theorem meets_ErrorInterrupts_cut :
    let x := { withS threadEngine [(5, 0x1001)] with eie := true }
    let c : SplitCut := ⟨0, ⟨4, 5, 0⟩, 8⟩
    x.Issues ∧ x.eie = true ∧ c.e = 0 ∧ c.size = 8 ∧ sirtoLegal (.sd c.e c.f) = true ∧ (addrOf x c.f).toNat % 8 ≠ 0 ∧
    (addrOf x c.f).toNat + 8 ≤ 0x3e000 :=
  ⟨⟨rfl, rfl, rfl, rfl, fun _ h => (List.not_mem_nil h).elim, List.not_mem_nil, fun _ => by decide⟩, rfl, rfl, rfl,
   by decide,
    by decide, by decide⟩
/-- An L1 line and a mezzanine sector, clean and dirty, and a load whose fill is poison. -/
theorem meets_CacheErrorInterrupts (dirty : Bool) :
    let l : L1Line := ⟨0x1000, 0, dirty, false, 0, false⟩
    let x := { kernelAt with l1 := [(l1Key 0x1000 0, l)], miss := some ⟨0x2000, 0x2008, true, some none⟩ }
    let z : MezLine := ⟨0x1000, 0, Vector.replicate 4 ⟨true, dirty, false, 2, 0, false⟩⟩
    let m := { resetMez with lines := [(mezKey 0x1000 0, z)] }
    l1Find x (lineOf 0x1000) = some (l1Key 0x1000 0, l) ∧ mezFind m 0x1000 = some (mezKey 0x1000 0, z) ∧
    z.sec[mezSec 0x1000].valid = true ∧ z.sec[mezSec 0x1000].dirty = dirty ∧ x.run = .running ∧ x.entry = none ∧
    l1Find kernelAt (lineOf 0x1000) = none ∧ mezFind resetMez 0x1000 = none := by
  cases dirty <;> exact ⟨rfl, rfl, rfl, rfl, rfl, rfl, rfl, rfl⟩
theorem meets_BeatTick_more :
    (∀ q ∈ runDevice.queues, q.2.msiDue = false) ∧ (∀ l ∈ resetMez.lines, ∀ j : Fin 4, l.2.sec[j].bad = false) ∧
    (aQueue 1 []).poll = true ∧ (aQueue 1 []).enabled = true ∧ sfind [(5, aQueue 1 [])] 5 = some (aQueue 1 []) := by
  refine ⟨by decide, fun l h => (List.not_mem_nil h).elim, rfl, rfl, rfl⟩
theorem meets_BeatRegisterWrites_more :
    takes runDevice BEAT_PERIOD .manager true = true ∧ (⟨.manager, .high, 0x80000000⟩ : RegAccess).part = .high ∧
    (whole .manager 1).value.toNat % 2 ≠ regF runDevice BEAT_CTL 0 1 := by decide
theorem meets_ExternalLock_early :
    let d := setReg { runDevice with beat := { runDevice.beat with lastEdge := some 0 } } BEAT_CTL 0 1 1
    319999 < 0 + 8 * (1000 * regF d BEAT_PERIOD 16 9) := by decide

/-! ### Streams and sieve -/

/-- A descriptor of a sieve stream for the bitmap, and a job that reads the segment of 16 rows. -/
def sieveDesc : Line := BitVec.ofNat 512 (1 + 0x2000 * 2 ^ 256 + 0x1000 * 2 ^ 320 + 0x3000 * 2 ^ 384)
def goodJob : BitVec 2048 := BitVec.ofNat 2048 (1 + 2 ^ 8 + 8 * 2 ^ 16 + 5 * 2 ^ 64 + 16 * 2 ^ 192)
def openJob : SieveJob := { oneJob with desc := some goodJob }
theorem meets_StreamOpen_sieve :
    let x := { streamEngine with landing := [(0x1000, 1), (0x1021, 0x20), (0x1029, 0x10), (0x1031, 0x30)] }
    allExecute x [.sopen 0 ⟨20, 1, 0, 0⟩] = true ∧ (mget x.landing 0x1000).toNat % 4 = 1 ∧
    mread x.landing 0x1020 8 + 0x1000 ≤ 0x3e000 ∧ x.jobs = [] ∧ x.streams[0].st = .free := by decide
theorem meets_StreamHeaders_sieve :
    let x := { openingStreamer sieveDesc with job := some 0 }
    let y := { threadEngine with jobs := [openJob], streams := threadEngine.streams.set 0 x }
    isSieve x = true ∧ x.hdr = none ∧ jobOf y 0 = some openJob ∧ openJob.failed = none ∧ openJob.desc = some goodJob ∧
    descWrong x = false ∧ bufferWrong x = false ∧ jobAreaOk x.kernel openJob.addr = true ∧ jobWrong goodJob = false ∧
    attachWrong y 0 openJob goodJob = false ∧ jobWrong jobWords = true ∧ (0 : StreamNo) ∈ openJob.att ∧
    ({ openJob with failed := some 3 }).failed = some 3 ∧
    (∀ h : Line, h = BitVec.ofNat 512 segHdr → codeWrong x (hdrFormat h) (hdrWidth h) = false) ∧
    lengthWrong x (jobF goodJob 0x18 5) 1 = false ∧ lineRead x.desc 3 1 = 0 := by
  refine ⟨by decide, rfl, rfl, rfl, rfl, by decide, by decide, by decide, by decide +kernel, by decide +kernel,
    by decide +kernel, by decide, rfl, ?_, by decide +kernel, by decide⟩
  rintro h rfl; decide
theorem meets_StreamHeaders_served :
    let r := openChecks segDevice 0 [0] (jobF goodJob 8 8) (jobFormat goodJob) (jobWidth goodJob) 0
    r.1 = some (.inr (aSegment, BitVec.ofNat 512 segHdr)) ∧ r.2.waits = false := by decide +kernel
/-- The line that a stream asks for is served, and its last unit. -/
theorem meets_StreamDelivery_line :
    let r := streamLine segDevice (tileOf 0) (segPhys aSegment 0) (hintOf runningStreamer) 0
    (r.map fun x => x.2.waits) = some false := by decide +kernel
theorem meets_StreamDelivery_last :
    let x := { runningStreamer with asked := [], bitsLeft := 128, nextLine := 2, stage := [(0, 0, []), (1, 0, [])] }
    grantee { threadEngine with streams := threadEngine.streams.set 0 x } = some 0 ∧ x.accLen = 0 ∧ x.st = .running ∧
    stagedBits x x.bitPos x.bitsLeft = some (some 0) := by decide +kernel
theorem meets_SieveTurns_stall :
    (noticeStalls sieveDevice 0).sieves[(0 : Chan)].active = [{ sieveJob with stalled := false }] ∧
    turnOf (noticeStalls sieveDevice 0).sieves[(0 : Chan)] = some (sieveJob, []) := by decide +kernel
/-- A line of the job whose turn it is: clean, the first and the only one of its piece, and poisoned. -/
def turnJob : SieveJob := { openJob with rows := 16, sent := true }
def turnDevice (pieces : List Nat) : Device := { segDevice with
  engines := segDevice.engines.set 0 { threadEngine with jobs := [turnJob] }
  sieves := Vector.replicate 16 ⟨[{ sieveJob with pieces := pieces }], [], [], none, 0⟩ }
theorem meets_SieveTurns_work :
    let d := noticeStalls (turnDevice [0]) 0
    (workOf d { sieveJob with pieces := [0] }).map (fun w => (w.piece, w.first, w.count)) = some (0, 1, 1) ∧
    (unitRead d (segPhys aSegment 64) ⟨2, 0, false⟩ .clean).2.waits = false ∧
    (unitRead d (segPhys aSegment 64) ⟨2, 0, false⟩ .clean).1.poison = false ∧
    (unitRead { d with poison := [segPhys aSegment 64] } (segPhys aSegment 64) ⟨2, 0, false⟩ .clean).1.poison = true ∧
    (unitRead (sieveParity d 0) (segPhys aSegment 64) ⟨2, 0, false⟩ .clean).2.waits = false ∧
    (unitRead (updChan d (chanOf d (segPhys aSegment 64)) fun c =>
        { c with quiet := true }) (segPhys aSegment 64) ⟨2, 0, false⟩
      .clean).2.waits = true := by decide +kernel
/-- A piece of two lines: 64 rows of 8 bits in each. -/
theorem meets_SieveTurns_first :
    let j := { turnJob with rows := 100 }
    let d := { turnDevice [0] with engines := segDevice.engines.set 0 { threadEngine with jobs := [j] } }
    (workOf d { sieveJob with pieces := [0] }).map (fun w => (w.first, w.count)) = some (1, 2) := by decide +kernel
theorem meets_SieveResults_next :
    let j := { sieveJob with results := [⟨0, 0, none⟩] }
    (∀ i ∈ ([] : List ChanJob), i.eng ≠ 0 ∨ i.owner ≠ 0) ∧ j.pieces ≠ [] ∧ [turnJob] = [turnJob] ∧
        turnJob.owner = 0 := by
  decide +kernel

/-! ### CAM, scheduler, rings, segments and the pager -/

theorem meets_CamService (op : CamOp) :
    let s := camState [aWait op 0 .sent] []
    s.dev.phase = .run ∧ (s.eng 7).cam = aWait op 0 .sent :: [] ∧ (aWait op 0 .sent).stage = .sent := ⟨rfl, rfl, rfl⟩
theorem meets_CamService_refused :
    camRefuses (updBank camDevice 254 fun b =>
        { b with retired := true }) (aRequest .search 0) = true := by decide +kernel
theorem meets_CamReplies_read :
    (0 : Nat) < [(5 : Cell), 6, 7, 8].length ∧ [(5 : Cell), 6, 7, 8].length ≤ 4 ∧
        (⟨5, [], 0⟩ : CamRep).units = [] := by decide
theorem meets_CamUpkeep_parity :
    let d := applyFlip camDevice ⟨255 * 1024 + 1023, 5, true, 0⟩
    parityBad d 255 1023 = true ∧ d.banks[255].retired = false ∧
        parityBad camDevice 255 1023 = false := by decide +kernel
theorem meets_CamUpkeep_shadow :
    (updCamSq camDevice 63 fun q => { q with shadow := [⟨255, 1023, 7, true⟩] }).camSq[63].shadow = [⟨255, 1023, 7,
        true⟩] := rfl
theorem meets_CamUpkeep_clear : packedBank.banks[0].bad = [] ∧ packedBank.banks[0].badFlag = [] ∧
    5 + 2 ^ 0 ≤ 1024 := by decide
theorem meets_CamConfiguration_high :
    takes camDevice (CAM_CFG 63 3) .warden true = true ∧ (⟨.warden, .high,
        0⟩ : RegAccess).part = .high := by decide +kernel

/-- The entry asks for a flow, and for no rows. -/
theorem meets_FlightRuns_flow :
    let raw := runEntryRaw ||| BitVec.ofNat 512 (2 ^ 256)
    let none_ : BitVec 512 := BitVec.ofNat 512 (2 ^ 8 + 2 ^ 64 * 0x1000 + 2 ^ 128 * 3)
    let d := flightDevice descriptor raw []
    lineRead raw 0x20 2 = 1 ∧ quotaFlows d 0 = 1 ∧ runBad d 0 raw = false ∧ heldBits d 0 false false = [] ∧
    heldBits d 0 true false = [] ∧ lineRead none_ 0x18 8 = 0 ∧ runsAhead d none true = 1 ∧
        runsAhead d (some 0) true = 1 ∧
    d.sched.sysTable = [] ∧ keysRise d.sched.threads = true ∧ d.sched.insts = [] := by decide +kernel
theorem meets_FlightRuns_served :
    (ioRead { flightDevice descriptor runEntryRaw [] with waits := false } 0 0x1000 192 1).2.waits = false ∧
    partHeld (endedDevice instance0) 0 = false := by decide +kernel
/-- The publisher runs the flow's system thread. -/
theorem meets_FlowsAndService_serves :
    let w := flowWork 0 1
    servesNow { runDevice with sched := { resetSched with serving := [w] } } w = true ∧ w.unit = .flowPublisher ∧
    w ∈ [w] := by decide +kernel
theorem meets_FlowsAndService_tick :
    let d := { runDevice with parts := [(0, aPartition)], regs := [(SCH_CTL, 1), (BEAT_COUNT, 1)],
                              sched := { runDevice.sched with
      insts := [(9, { instance0 with cursor := 0 })], threads := [(4, thread0)] } }
    d.cycle = d.beat.lastTick ∧ thread0.readyBeat + regF d SCH_CTL 0 16 ≤ beatNow d ∧
        eligible d (beatNow d) thread0 = true ∧
    thread0.promoted = false ∧ ({ d with cycle := 5 }).beat.lastTick < 5 ∧
    beatNow { d with regs := [(SCH_CTL, 2)] } < thread0.readyBeat + regF { d with regs := [(SCH_CTL,
        2)] } SCH_CTL 0 16 := by
  decide +kernel

theorem meets_QueueReads_served :
    let d := ringDevice 16383 (dueQueue 3 []) aCompress
    let r := ioRead { d with waits := false } 0 0x8000 64 1
    let f := ioRead { d with waits := false } 0 (2 ^ 63) 64 1
    r.1 = (some aCompress.toNat, false) ∧ r.2.waits = false ∧ r.2.queues = d.queues ∧ f.1 = (none, false) ∧
    f.2.waits = false ∧ f.2.queues = d.queues ∧ regF r.2 LDG_ST_STAT 0 2 ≠ 1 := by decide +kernel
/-- A FREE of a segment, an ALLOC that nothing holds, and a COMPRESS beyond the partition's quota. -/
theorem meets_QueueReads_segment :
    let raw := entry 2 [(0x10, 1)]
    let d := { segmentDevice .resident raw with queues := [(qKey 0 5, dueQueue 5 [])] }
    malformed 5 raw = false ∧ waitsOrdered (dueQueue 5 []) raw = false ∧ lineRead raw 1 1 = 2 ∧
        handleBad raw [] = false ∧
    segOf d 0 (entHandle raw) = some (aSeg .resident) ∧ allocPends d 0 = false ∧
    allocWaits d 0 (entry 1 [(8, 0), (9, 1), (0xa, 40)]) = false := by decide +kernel
theorem meets_QueueReads_held :
    let q := (List.range 64).map fun i => { anAccepted aCompress with index := i, num := i }
    backPressure (ringDevice 16383 (dueQueue 3 q) aCompress) 0 (dueQueue 3 q) aCompress ≠ [] ∨
      backPressure (ringDevice 16383 (dueQueue 1 []) aCompress) 0 (dueQueue 1 []) aCompress ≠ [] := by decide +kernel
theorem meets_DoorbellsAndTimers_closing :
    ({ aQueue 0 [] with closing := true }).closing = true ∧ (aQueue 3 []).msiEn = false ∧
    partFrozen { runDevice with parts := [(0, { aPartition with state := .frozen })] } 0 = true ∧
    partRuns { runDevice with parts := [(0, { aPartition with state := .frozen })] } 0 = false := by decide +kernel
theorem meets_EntryCompletions_held :
    let d := ringDevice 5 (aQueue 4 [decided]) 0
    partHeld d 0 = false ∧ entryWaits d 0 0x8000 = [] ∧
    partFrozen { d with parts := [(0, { aPartition with state := .frozen })] } 0 = true := by decide +kernel
/-- A SET_MODERATION that has been decided names another queue. -/
theorem meets_EntryCompletions_moderation :
    let raw := entry 6 [(8, 7), (0xc, 3), (0x18, 0x100), (0x24, 1), (0x26, 1)]
    let d := { adminDevice raw (aQueue 3 []) with
      queues := [(qKey 0 0, aQueue 0 [{ anAccepted raw with outcome := some ⟨0, []⟩ }]), (qKey 0 7, aQueue 3 [])] }
    lineRead raw 1 1 = 6 ∧ namedQ raw = 7 ∧ qFind d 0 7 = some (aQueue 3 []) ∧ (aQueue 3 []).n = 0 ∧
    mayComplete d (aQueue 0 [{ anAccepted raw with outcome := some ⟨0,
        []⟩ }]) { anAccepted raw with outcome := some ⟨0, []⟩ } =
      true := by decide +kernel
theorem meets_AdminRegisters_closing :
    let d := setReg (ringDevice 0 (aQueue 0 []) 0) (PRT_ADMIN_CFG 0) 0 1 1
    regF d (PRT_ADMIN_CFG 0) 0 1 = 1 ∧ (whole .manager 2).value.toNat % 2 = 0 ∧ (aQueue 0 []).n = 0 ∧
    (aQueue 0 [decided]).entries ≠ [] ∧ (whole .manager 6).value.toNat % 4 = 2 ∧
        (whole .manager 5).value.toNat % 4 = 1 := by
  decide +kernel
theorem meets_AdminRegisters_abort :
    let x := { aQueue 0 [] with log2 := 1 }
    let d := { ringDevice 0 x 0 with waits := false }
    let r := abortOwned d 0 0 x 0 2
    r.1 = false ∧ r.2.waits = false ∧ r.2.queues = d.queues := by decide +kernel

theorem meets_SegmentCommands_free :
    let g := { aSeg .resident with freeing := true, freeBy := some (5, 0) }
    let raw := entry 2 [(0x10, 1)]
    let d := { segmentDevice .resident raw with pager := { (segmentDevice .resident raw).pager with segs := [(1, g)] } }
    openEntryOf d 0 5 0 5 2 = some (anAccepted raw) ∧ segHeld d 0 1 = some g ∧ g.freeing = true ∧
    g.freeBy = some (qKey 0 5, (anAccepted raw).index) ∧ freeHolds d 0 5 (anAccepted raw) = true ∧
    freeHolds (segmentDevice .resident raw) 0 5 (anAccepted raw) = false ∧
    segFor (segmentDevice .resident raw) 0 (anAccepted raw) = some (aSeg .resident) ∧
    (∀ r ∈ (segmentDevice .resident raw).pager.ranges, r.reclaiming = false) := by decide +kernel

/-! ### Page-outs, page-ins and donations -/

/-- Slices that hold no line and no directory entry. -/
def bareGal (g : Vector Gallery 64) : Prop := ∀ t : Tile, g[t].dir = [] ∧ g[t].lines = [] ∧ g[t].victims = []
def onGal (e : Device) (g : Vector Gallery 64) : Device := { e with gal := g }
theorem bareGal_updGal (e : Device) {g : Vector Gallery 64} (h : bareGal g) (t : Tile) (f : Gallery → Gallery)
    (hf : ∀ x : Gallery, x.dir = [] ∧ x.lines = [] ∧ x.victims = [] → (f x).dir = [] ∧ (f x).lines = [] ∧
        (f x).victims = []) :
    ∃ g', bareGal g' ∧ updGal (onGal e g) t f = onGal e g' := by
  refine ⟨g.set t.val (f g[t]), ?_, rfl⟩
  intro u
  by_cases w : t.val = u.val
  · have : (g.set t.val (f g[t]))[u] = f g[t] := by simp [w]
    rw [this]; exact hf _ (h t)
  · have : (g.set t.val (f g[t]))[u] = g[u] := by
      show (g.set t.val (f g[t]))[u.val] = g[u.val]
      rw [Vector.getElem_set_ne _ _ w]
    rw [this]; exact h u
/-- With bare slices a read outside DRAM comes straight from memory, and changes only the slices' counts. -/
theorem bare_read (e : Device) (hp : e.poison = []) (hf : e.flips = []) (g : Vector Gallery 64) (h : bareGal g)
    (a : Nat) (r : UnitReq) (ha : inDram e a = false) : ∃ g', bareGal g' ∧
      unitRead (onGal e g) a r .clean = (⟨mline e.mem a, false, true⟩, onGal e g') := by
  have hm : modified (onGal e g) a = none := by
    have : holders (onGal e g) a = [] := by
      have := (h (homeOf (onGal e g) a)).1
      simp only [holders]
      show (match sfind g[homeOf (onGal e g) a].dir a with | some e => dirHarts e | none => []) = []
      rw [this]; rfl
    simp [modified, this, takeFirst]
  obtain ⟨g1, h1, e1⟩ := bareGal_updGal e h (homeOf (onGal e g) a)
    (fun x => { x with victims := x.victims.filter (fun v => v.line != a) }) (by intro x hx; simp [hx])
  have hv : flushVictims (onGal e g) a r.cls = onGal e g1 := by
    have : (onGal e g).gal[homeOf (onGal e g) a].victims = [] := (h _).2.2
    simp only [flushVictims, this, e1]; rfl
  obtain ⟨g2, h2, e2⟩ := bareGal_updGal e h1 (homeOf (onGal e g1) a) (fun x => { x with misses := x.misses + 1 })
    (by intro x hx; simp [hx])
  refine ⟨g2, h2, ?_⟩
  have hfind : ∀ w, galFindFrom ([] : Sparse GalLine) a w = none := by
    intro w; induction w <;> simp_all [galFindFrom, sfind]
  have hg : galFind (onGal e g1).gal[homeOf (onGal e g1) a] a = none := by
    have : (onGal e g1).gal[homeOf (onGal e g1) a].lines = [] := (h1 _).2.1
    simp only [galFind, this, hfind]
  have hd : inDram (onGal e g2) a = false := ha
  have hp' : (onGal e g2).poison = [] := hp
  have hf' : (onGal e g2).flips = [] := hf
  have hl : mediaLine (onGal e g2) a = (mline e.mem a, false) := by
    simp only [mediaLine, mediaRaw, hd, hp', hf']
    rfl
  simp only [unitRead, hm, sliceRead, hv, hg, missRead, e2, hd, hl]
  rfl
theorem bare_readGo (e : Device) (hp : e.poison = []) (hf : e.flips = []) (r : UnitReq) :
    ∀ k a n g, bareGal g → 16 * chanCap e ≤ lineOf a → ∃ v g', bareGal g' ∧
      memReadGo (onGal e g) a n r k = ((v, false), onGal e g') := by
  intro k
  induction k with
  | zero => intro a n g h _; exact ⟨0, g, h, rfl⟩
  | succ k ih =>
    intro a n g h ha
    by_cases hn : n = 0
    · exact ⟨0, g, h, by simp [memReadGo, hn]⟩
    · obtain ⟨g1, h1, e1⟩ := bare_read e hp hf g h (lineOf a) r (by simp [inDram]; omega)
      have : lineOf a ≤ lineOf (a + chunkLen a n) := by simp only [lineOf]; omega
      obtain ⟨v, g2, h2, e2⟩ := ih (a + chunkLen a n) (n - chunkLen a n) g1 h1 (by omega)
      refine ⟨lineRead (mline e.mem (lineOf a)) (a % 64) (chunkLen a n) + 2 ^ (8 * chunkLen a n) * v, g2, h2, ?_⟩
      simp only [memReadGo, hn, e1, e2, if_false, Bool.or_false]
/-- So does the read of a granule there. -/
theorem bare_granule (e : Device) (hp : e.poison = []) (hf : e.flips = []) (p : Part) (x : Nat)
    (hx : 16 * chanCap e ≤ lineOf (x * 4096)) (g : Vector Gallery 64) (h : bareGal g) :
    ∃ v g', bareGal g' ∧ granulesRead (onGal e g) p [x] = (([v], false), onGal e g') := by
  obtain ⟨v, g', h', e'⟩ := bare_readGo e hp hf ⟨3, p, false⟩ (granBytes / 64 + 2) (x * 4096) granBytes g h hx
  refine ⟨v, g', h', ?_⟩
  simp only [granulesRead, memRead, e', Bool.or_false]
def copyStep (p : Part) (x y : Nat) (d : Device) (k : Nat) : Device :=
  let r := unitRead d (x * 4096 + 64 * k) ⟨3, p, false⟩ .clean
  let a := y * 4096 + 64 * k
  if r.1.poison then poisonLine r.2 a r.1.data else lineWrite r.2 a r.1.data (BitVec.allOnes 64) p false 3
theorem copyGranule_steps (p : Part) (x y : Nat) : ∃ l : List Nat, (∀ k ∈ l, k < 1024) ∧
    ∀ d, copyGranule d p x y = l.foldl (copyStep p x y) (logGranule d (y * 4096)) :=
  ⟨List.range 1024, fun _ h => List.mem_range.mp h, fun _ => rfl⟩

theorem bare_log (e : Device) (hl : ∀ k q, sfind e.parts k = some q →
    q.logGranules = 0) (g : Vector Gallery 64) (a : Nat) :
    logGranule (onGal e g) a = onGal e g := by
  unfold logGranule
  split
  · rfl
  · split
    · rfl
    · rename_i q hq
      simp [hl _ q hq]
theorem bare_step (e : Device) (hp : e.poison = []) (hf : e.flips = []) (p : Part) (x y k : Nat)
    (hx : 16 * chanCap e ≤ x * 4096) (hy : inMain e (y * 4096 + 64 * k) = false) (g : Vector Gallery 64)
    (h : bareGal g) : ∃ g', bareGal g' ∧ copyStep p x y (onGal e g) k = onGal e g' := by
  obtain ⟨g1, h1, e1⟩ := bare_read e hp hf g h (x * 4096 + 64 * k) ⟨3, p, false⟩
    (decide_eq_false (Nat.not_lt.mpr (Nat.le_trans hx (Nat.le_add_right _ _))))
  refine ⟨g1, h1, ?_⟩
  have hy' : inMain (onGal e g1) (y * 4096 + 64 * k) = false := hy
  unfold copyStep
  rw [e1]
  simp only [lineWrite, hy']
  rfl
theorem bare_steps (e : Device) (hp : e.poison = []) (hf : e.flips = []) (p : Part) (x y : Nat)
    (hx : 16 * chanCap e ≤ x * 4096) (l : List Nat) :
    (∀ k ∈ l, inMain e (y * 4096 + 64 * k) = false) → ∀ g, bareGal g → ∃ g', bareGal g' ∧
      l.foldl (copyStep p x y) (onGal e g) = onGal e g' := by
  induction l with
  | nil => intro _ g h; exact ⟨g, h, rfl⟩
  | cons k l ih =>
    intro hy g h
    obtain ⟨g1, h1, e1⟩ := bare_step e hp hf p x y k hx (hy k (by simp)) g h
    obtain ⟨g2, h2, e2⟩ := ih (fun j hj => hy j (by simp [hj])) g1 h1
    exact ⟨g2, h2, by rw [List.foldl_cons, e1, e2]⟩
theorem zip_one (f : Device → Nat → Nat → Device) (d : Device) (x y : Nat) :
    ([x].zip [y]).foldl (fun d z => f d z.1 z.2) d = f d x y := rfl
theorem bare_copy (e : Device) (hp : e.poison = []) (hf : e.flips = []) (p : Part) (x y : Nat)
    (hl : ∀ k q, sfind e.parts k = some q → q.logGranules = 0)
    (hx : 16 * chanCap e ≤ x * 4096) (hy : ∀ k, k < 1024 → inMain e (y * 4096 + 64 * k) = false) (g : Vector Gallery 64)
    (h : bareGal g) : ∃ g', bareGal g' ∧ copyGranules (onGal e g) p [x] [y] = onGal e g' := by
  obtain ⟨l, hk, hc⟩ := copyGranule_steps p x y
  obtain ⟨g', h', e'⟩ := bare_steps e hp hf p x y hx l (fun k m => hy k (hk k m)) g h
  refine ⟨g', h', ?_⟩
  have hz := zip_one (fun d a b => copyGranule d p a b) (onGal e g) x y
  unfold copyGranules
  rw [hz, hc, bare_log e hl, e']
def farGran : Nat := 2 ^ 36
theorem bareGal_reset : bareGal memDevice.gal := by
  intro t
  have : memDevice.gal[t] = resetGal := by simp [memDevice, runDevice, resetDevice]
  rw [this]; exact ⟨rfl, rfl, rfl⟩
/-- A device with segment 1 of partition 0 in granules of the CXL window. -/
def outDevice (st : SegState) (c : Option SegCopy) (r : List DonRange) : Device :=
  heldSegment { aSeg st with granules := [farGran], copy := c } r
theorem far_read (d : Device) (hg : bareGal d.gal) (hp : d.poison = []) (hf : d.flips = [])
    (hc : 16 * chanCap d ≤ farGran * 4096) (p : Part) :
    ∃ v g, bareGal g ∧ granulesRead d p [farGran] = (([v], false), onGal d g) := by
  have h64 : lineOf (farGran * 4096) = farGran * 4096 := by decide
  exact bare_granule d hp hf p farGran (by rw [h64]; exact hc) d.gal hg
theorem far_copy (d : Device) (hp : d.poison = []) (hf : d.flips = []) (hc : 16 * chanCap d ≤ farGran * 4096)
    (hl : ∀ k q, sfind d.parts k = some q → q.logGranules = 0) (hy : ∀ k < 1024,
        cxlUp d ((farGran + 16) * 4096 + 64 * k) = false)
    (p : Part) (g : Vector Gallery 64) (hg : bareGal g) :
    (copyGranules (onGal d g) p [farGran] [farGran + 16]).waits = d.waits := by
  obtain ⟨g', _, e⟩ := bare_copy d hp hf p farGran (farGran + 16) hl hc
    (fun k hk => by
      have : inDram d ((farGran + 16) * 4096 + 64 * k) = false :=
        decide_eq_false (by simp only [farGran] at *; omega)
      simp [inMain, this, hy k hk]) g hg
  rw [e]; rfl
theorem meets_PageOuts_poisoned :
    let d := { outDevice .movingOut none [] with poison := [2 ^ 48] }
    segHeld d (hPart 1) 1 = some { aSeg .movingOut with granules := [farGran] } ∧
    (granulesRead (markActive d 0) 0 [farGran]).1.2 = true := by
  refine ⟨rfl, ?_⟩; decide +kernel
/-- Its data go to a range of the CXL tier, or, of a segment without granules, into no bytes of the ledger. -/
theorem meets_PageOuts_tier :
    let d := outDevice .movingOut none [⟨0, 2, 0x20000, [farGran + 16], false⟩]
    (granulesRead d 0 [farGran]).2.waits = false ∧ (granulesRead d 0 [farGran]).1.2 = false ∧
    ∃ g, (granulesRead d 0 [farGran]).2 = onGal d g ∧ (placesOf (onGal d g) 0 2 none 0).head? = some (0x20000,
        [farGran + 16]) ∧
      (copyGranules (onGal d g) 0 [farGran] [farGran + 16]).waits = false := by
  intro d
  have hd : d.poison = [] ∧ d.flips = [] ∧ bareGal d.gal ∧ d.waits = false := ⟨rfl, rfl, bareGal_reset, rfl⟩
  have hc : 16 * chanCap d ≤ farGran * 4096 := by decide +kernel
  have hp : ∀ g, (placesOf (onGal d g) 0 2 none 0).head? = some (0x20000, [farGran + 16]) := by
    intro g; show (placesOf d 0 2 none 0).head? = _; decide +kernel
  have hl : ∀ k q, sfind d.parts k = some q → q.logGranules = 0 := by
    intro k q h
    have hq : ∀ x ∈ d.parts, x.2.logGranules = 0 := by decide +kernel
    have : ∀ (l : Sparse Partition), sfind l k = some q → (k, q) ∈ l := by
      intro l
      induction l with
      | nil => intro h; exact nomatch h
      | cons x l ih =>
        intro h
        simp only [sfind] at h
        split at h
        · cases h; rename_i e; simp [← e]
        · exact List.mem_cons_of_mem _ (ih h)
    exact hq _ (this _ h)
  have hy : ∀ k < 1024, cxlUp d ((farGran + 16) * 4096 + 64 * k) = false := fun k _ => rfl
  clear_value d
  obtain ⟨v, g, hb, e⟩ := far_read d hd.2.2.1 hd.1 hd.2.1 hc 0
  rw [e]
  exact ⟨hd.2.2.2, rfl, g, rfl, hp g, by rw [far_copy d hd.1 hd.2.1 hc hl hy 0 g hb]; exact hd.2.2.2⟩
theorem meets_PageOuts_ledger :
    let d := heldSegment { aSeg .movingOut with granules := [] } []
    let x := granulesRead d 0 []
    x.2.waits = false ∧ x.1 = ([], false) ∧ placesOf x.2 0 2 none 0 = [] ∧ ldgWritable x.2 = true ∧
    codecFree x.2 3 = true ∧ codecFree x.2 4 = true ∧
    (compressOn (pauseTest x.2) 3 4 0 (outWidth (aSeg .movingOut)) []).1 = some [] ∧
    (compressOn (pauseTest x.2) 3 4 3 (outWidth (aSeg .movingOut)) []).1 = none := by decide +kernel
/-- A victim in a range that is reclaimed, and other granules of its quadrant for it. -/
theorem meets_PageOuts_move :
    let g := { aSeg .resident with granules := [farGran] }
    let d := outDevice .resident none [⟨0, 0, 0x10000, [farGran], true⟩, ⟨0, 0, 0x20000, [farGran + 16], false⟩]
    inReclaim d g = true ∧ allocPends d 0 = false ∧ windowWait d [farGran + 16] = [] ∧
    (placesOf d 0 (kindOf g) (some 0) 0).head? = some (0x20000, [farGran + 16]) := by decide +kernel
theorem meets_PageOuts_copy :
    let g := copied .paged [farGran]
    let d := heldSegment g [⟨0, 2, 0, [farGran], true⟩]
    cxlNext d 1 g = true ∧ placesOf d 0 2 none 0 = [] ∧ partFrozen d 0 = false ∧ ldgWritable d = true ∧
        codecFree d 3 = true ∧
    (granulesRead d 0 (cxlOf g)).2.waits = false ∧ (granulesRead d 0 (cxlOf g)).1.2 = false := by
  intro g d
  refine ⟨by decide +kernel, by decide +kernel, by decide +kernel, by decide +kernel, by decide +kernel, ?_⟩
  obtain ⟨v, g', _, e⟩ := far_read d bareGal_reset rfl rfl (by decide +kernel) 0
  have e' : granulesRead d 0 (cxlOf g) = (([v], false), onGal d g') := e
  rw [e']; exact ⟨rfl, rfl⟩
theorem meets_SegmentsLeave_served :
    let d := { heldSegment (aSeg .resident) [⟨0, 0, 0x10000, [1], false⟩] with regs := [(PGR_CTL, 0x3c32)] }
    outServed (markActive { d with sched := { d.sched with serving := [] } } 0) (aSeg .resident) = true ∧
        partFrozen d 0 = false ∧
    inRetired (markActive d 0) (aSeg .resident) = false := by decide +kernel
theorem meets_SegmentsReturn_filled :
    let g := copied .movingIn []
    let d := heldSegment g []
    (fillIn { d with waits := false } g 3 []).waits = false ∧ cxlOf g = [] ∧ d.sched.insts = [] ∧
    allocPends (heldSegment (aSeg .paged) []) 0 = false ∧ ldgState d ≠ 3 ∧ codecFree d 3 = true := by
  decide +kernel
/-- The checks of a donation that fail, an operation that runs, and a write without GO. -/
theorem meets_Donation_checks :
    let d := { segmentDevice .paged 0 with pager := resetPager, regs := (PGR_DON_IOVA, 0x20000) :: memDevice.regs }
    let r : DonRange := ⟨0, 0, 0x20000, [0x20], false⟩
    let e := { d with pager := { resetPager with ranges := [r] } }
    donChecks e 0 0 0x20000 1 [0x20] ≠ 0 ∧ granList e 0 0x20000 1 = .ok [0x20] ∧
    strobe (whole .manager 1) 63 = false ∧ regF (setReg d PGR_DON_STAT 0 2 1) PGR_DON_STAT 0 2 = 1 ∧
    (sget e.pager.saves 0 []).length = saveGran e 0 ∧ (∀ x ∈ sget e.pager.saves 0 [], x ∉ r.granules) ∧
    blocking e r = 0 := by
  refine ⟨by decide +kernel, rfl, by decide +kernel, by decide +kernel, by decide +kernel, by decide +kernel,
      by decide +kernel⟩

/-! ### Codecs, the digest engine, cores and devices -/

theorem meets_CodecJobs_ends :
    let d := onCodec (codecDevice aCompress) 7
    let f := codecChecks (codecDevice 0) 0 (entry 1 []) true
    let r := codecChecks d 0 aCompress true
    let packed := packInput 1 (0x55 :: List.replicate 15 0) [4096]
    f.2.waits = false ∧ (match f.1 with | .fails _ => true | .runs .. => false) = true ∧ r.2.waits = false ∧
    packed.out.isEmpty = false ∧ (blockMismatch r.2 7 true).1 = true ∧ (blockMismatch r.2 7 false).1 = false ∧
    (anAccepted aCompress).failedOn = none ∧ ({ anAccepted aCompress with failedOn := some 3 }).failedOn.isSome = true ∧
    (writeOutput (blockMismatch r.2 7 false).2 0 (packed.out.map fun o => (0x3000 + o.2.1, o.2.2))).2.waits = false ∧
    (writeOutput r.2 0 [(2 ^ 63, [1])]).1 = false ∧ (writeOutput r.2 0 [(2 ^ 63,
        [1])]).2.waits = false := by decide +kernel
/-- A DECOMPRESS that reads a block, and one that stops at a bad one. -/
theorem meets_CodecJobs_decompress :
    let good := blockBytes (encodeBlock 1 [7, 7, 7, 7, 7, 7, 7, 7, 1, 2])
    (unpackInput good 4096).2.2 = 0 ∧ (unpackInput (List.replicate 32 0xff) 4096).2.2 ≠ 0 ∧
    (writeOutput (codecDevice aDecompress) 0 (fillBuffers (unpackInput good 4096).1 [(0x3000, 4096)]).1).1 = true ∧
    (freeBuffers (codecDevice aDecompress) 0 (fillBuffers [] [(0x3000, 4096)]).2).waits = false := by decide +kernel
/-- Each command of a slot page, every part of a write, a slot of a queue, and the slots' assignments. -/
theorem meets_DigestSlots_commands :
    let d := slotDevice freshSlot
    let v := fun (x : Nat) => (carried (whole .manager (BitVec.ofNat 64 x)) 0 16).getD 0
    v 1 % 32 = 1 ∧ v 0x61 / 32 % 2 = 1 ∧ v 0x61 / 64 % 4 = 1 ∧ v 2 % 32 = 2 ∧ v 4 % 32 = 4 ∧ v 8 % 32 = 8 ∧
    v 0x7f08 % 32 = 8 ∧ v 0x7f08 / 256 % 256 = 127 ∧ v 16 % 32 = 16 ∧ (v 16).testBit 0 = false ∧
        (v 16).testBit 4 = true ∧
    (carried ⟨.manager, .high, 1⟩ 0 16).getD 0 = 0 ∧ (⟨.manager, .high, 1⟩ : RegAccess).part ≠ .whole ∧
    ({ freshSlot with owner := .warden } : Slot).owner = .warden ∧
    (laneBytes freshSlot.lanes).take 1 = expBytes d 14 1 ∧ (15 : SlotId).val = 15 ∧
    carried (whole .warden 0x41) 0 7 = some 0x41 ∧ regF d (DGST_SLOT 14) 0 7 ≠ 0x41 ∧
    (carried ⟨.warden, .high, 5⟩ 0 7).getD (regF d (DGST_SLOT 14) 0 7) = regF d (DGST_SLOT 14) 0 7 := by decide +kernel
theorem meets_DigestQueues_ends :
    let d := { slotDevice freshSlot with waits := false }
    let l := [(0x10, 0x1000), (0x18, 16), (0x28, 32)]
    let m := dgstRead d 0 0x1000 16
    let f := dgstRead d 0 (2 ^ 63) 16
    m.1.1.isSome = true ∧ m.2.waits = false ∧ f.1.1 = none ∧ f.2.waits = false ∧ lineRead (entry 2 l) 0x20 8 = 0 ∧
    lineRead (entry 2 l) 0xa 1 = 0 ∧ lineRead (entry 2 ((0xa, 1) :: l)) 0xa 1 = 1 ∧
    (dgstRead d 0 0x1000 32).1.1.isSome = true ∧ (hashFrom d 0 (entry 2 ((8, 3) :: l))).1.1 = none ∧
    slotOf d 14 0 = true ∧ 15 < lineRead (entry 3 [(9, 16)]) 9 1 ∧
    openEntryOf (aHash 1 [(9, 14), (0x10, 0x1000), (0x18, 256)]) 0 5 0 4 1 =
      some (anAccepted (entry 1 [(9, 14), (0x10, 0x1000), (0x18, 256)])) ∧
    openEntryOf (aHash 3 [(9, 14)]) 0 5 0 4 3 = some (anAccepted (entry 3 [(9, 14)])) := by decide +kernel
/-- A store and a load whose checks pass, with a line held and one that is not; poisoned; I/O, interrupt files and
holes. -/
theorem meets_CoreLoadsAndStores_any :
    let d := { hartDevice (holding false) with waits := false }
    let st := { anAccess with store := some 5, drain := 1 }
    let far := { anAccess with va := 0x2008, pa := 0x2008 }
    let bad := { anAccess with va := 0xff8, pa := 0x1ff8 }
    accessFault d true (corePieces st) = none ∧ accessFault d false (corePieces far) = none ∧
    (drainSb (updHart d 127 fun x => { x with sb := x.sb ++ storeEntries 5 (corePieces st) }) 127 1).waits = false ∧
    (match (loadPieces (drainSb d 127 0) 127 .clean (corePieces far)).1 with
      | .ok v => v == 0 | .error _ => false) = true ∧
    (loadPieces (drainSb d 127 0) 127 .clean (corePieces far)).2.waits = false ∧
    (match (loadPieces (hartDevice (holding true)) 127 .clean (corePieces anAccess)).1 with
      | .ok _ => false | .error p => p.va == 0x1000) = true ∧
    (loadPieces (hartDevice (holding true)) 127 .clean (corePieces anAccess)).2.waits = false ∧
        inMain d bad.pa = true := by
  decide +kernel
theorem meets_CoreLoadsAndStores_io :
    inImsic 0xe000000000000 = true ∧ inMain memDevice 0xe000000000000 = false ∧ inMmio 0xe000000000000 = false ∧
    inControl 0xe000000000000 = false ∧ inMmio 0x4000000000000 = false ∧
    (∃ a, inMmio a = true ∧ inMain memDevice a = false ∧ inControl a = false ∧ inImsic a = false) ∧
    accessFault memDevice false (corePieces { anAccess with va := 0x100c, pa := 0xe00000000000c,
                                                            pa2 := 0xe000000000010 }) =
      none ∧ ({ anAccess with fault := some 13 }).fault = some 13 ∧
          ({ anAccess with fault2 := some 15 }).fault2 = some 15 := by
  refine ⟨by decide, by decide +kernel, by decide, by decide, by decide,
      ⟨2 ^ 51, by decide, by decide +kernel, by decide, by decide⟩,
    by decide +kernel, rfl, rfl⟩
theorem meets_CoreAtomics_any :
    let x := { holding false with reserve := some 0x1000 }
    let d := { hartDevice x with waits := false }
    let put : CoreStore := ⟨0x1000, 8, 5⟩
    (drainSb d 127 0).waits = false ∧ sbHas (drainSb d 127 0) 127 0x1000 = false ∧
    (coreFetch d 127 0x1000 false .clean).waits = false ∧ (Machine.heldLine d 127 0x1000).poison = false ∧
    (Machine.heldLine (hartDevice (holding true)) 127 0x1000).poison = true ∧
        (performStore d 127 put .clean).waits = false ∧
    sbHas (hartDevice { x with sb := [put, put] }) 127 0x1000 = true := by decide +kernel
theorem meets_CoreCacheOperations_any :
    let d := { hartDevice (holding false) with waits := false }
    (cleanLine d 0x1000).waits = false ∧ (recallLine d 0x1000).waits = false ∧
    (drainSb (updHart d 127 fun x => { x with sb := x.sb ++ [⟨0x1000, 64, 0⟩] }) 127 1).waits = false ∧
    (drainSb (hartDevice { holding false with sb := [⟨0x1008, 8, 5⟩, ⟨0x1000, 8, 6⟩] }) 127 2).waits = false ∧
    (drainSb (hartDevice { holding false with sb := [⟨0x1008, 8, 5⟩, ⟨0x1000, 8, 6⟩] }) 127 2).harts[127].sb = [] := by
  decide +kernel
theorem meets_CoreWindowAccesses_any :
    (windowPut { runDevice with waits := false } .manager WRD_STAT 8 5).waits = false ∧ ready runDevice = true ∧
    accepts .wrd 0 .bmc false = false ∧ 8 ∈ [4, 8] ∧ (WRD_STAT + 1) % 8 ≠ 0 := by decide +kernel
theorem meets_IdleStates_deep :
    let x := { holding false with idle := .light, sb := [⟨0x1008, 8, 5⟩] }
    let d := { hartDevice x with cycle := 400000, waits := false }
    (drainSb d 127 1).waits = false ∧ (drainSb d 127 1).harts[127].sb = [] ∧ x.since + 400000 ≤ d.cycle ∧
    x.held = false ∧ x.idle ≠ .running := by decide +kernel
/-- The requests of a function: memory, translated, a translation, a page, and what each needs. -/
def linkDevice (regs : List (Nat × Nat)) : Device := { memDevice with
  pkg := { memDevice.pkg with up := [7] }, regs := regs.map (fun x => (x.1, BitVec.ofNat 64 x.2)) ++ memDevice.regs }
theorem meets_DeviceRequests_kinds :
    let d := { linkDevice [] with waits := false }
    partHeld d 0 = false ∧ atsOn d 0x700 = false ∧ priOn d 0x700 = false ∧
    (memRead d 0xf00 4 ⟨1, 0, false⟩).2.waits = false ∧ (cohWrite d 0xf00 4 5 0 1).waits = false ∧
    (ioFaultAs d 0x700 none 0xf00 260 7).waits = false ∧ inImsic 0xe000000000000 = true ∧
    inMain d 0xe000000000000 = false ∧
        (xlatDev d 0x700 0xe000000000000 true).1 = some 0xe000000000000 := by decide +kernel
/-- A directory of one level at 0x5000 whose function 0x3f has ATS and PRI, and a page-request queue of two entries. -/
def atsDevice (pq : Nat) : Device := { linkDevice [(IOM_DDTP, 2 + 2 ^ 10 * 5), (IOM_PQB, 2 ^ 10 * 6), (IOM_PQ, pq),
  (IOM_PQCSR, 2 ^ 16)] with mem := mwrite [] 0x5fc0 8 7, waits := false }
theorem meets_DeviceRequests_ats :
    let d := atsDevice 0
    atsOn d 0x3f = true ∧ priOn d 0x3f = true ∧ xlatFor d 0x3f none 0xf000 true = some (0xf000, []) ∧
    (leafUpdate d []).waits = false ∧ xlatFor d 0x3e none 0xf000 true = none ∧
    regF d IOM_PQCSR 16 1 = 1 ∧ regF d IOM_PQCSR 8 1 = 0 ∧ (0 + 1) % 2 ^ (regF d IOM_PQB 0 5 + 1) ≠ regF d IOM_PQ 0 32 ∧
    (1 + 1) % 2 ^ (regF (atsDevice (2 ^ 32)) IOM_PQB 0 5 + 1) = regF (atsDevice (2 ^ 32)) IOM_PQ 0 32 ∧
    regF d IOM_PQCSR 1 1 = 0 ∧ (cohWrite d 0x6000 16 5 0 1).waits = false ∧ atsOn d 0x3e = false := by decide +kernel
theorem meets_IommuCommands_ends :
    let d := { iommuDevice 129 with waits := false }
    (memRead d 0x4000 16 ⟨1, 0, false⟩).1.1 = 129 ∧ (memRead d 0x4000 16 ⟨1, 0, false⟩).2.waits = false ∧
    (4 + 2 ^ 8) % 128 = 4 ∧ (2 + 2 ^ 10) % 128 = 2 ∧ (2 + 2 ^ 10 : Nat).testBit 10 = true ∧
        (2 + 2 ^ 10 : Nat).testBit 11 = false ∧
    (2 + 2 ^ 11 : Nat).testBit 11 = true ∧ (busWrite4 d 0x7000 5 0).waits = false ∧
    (iommuMsi (setReg d IOM_PQCSR 32 1 1) 0).waits = false := by decide +kernel

/-! ### DRAM, the ledger, the window and the Warden -/

theorem meets_DramServices :
    let d := chanDevice [] []
    chanReady d 1 = true ∧ mayRead d 1 ⟨3, 0, false⟩ = true ∧ 0 < chanCap d ∧
    mayRead (chanDevice [aRead 0x1000 false] []) 1 ⟨3, 0, false⟩ = false ∧ chanCap runDevice = 0 ∧
    chanReady (setReg d (DRC_STAT 1) 0 2 1) 1 = false ∧ writesGo (chanDevice [] [aWrite 2]) 1 = true ∧
    chanCap d ≤ chanCap d - 64 + 64 ∧
        lineQueued (chanDevice [] [{ aWrite 2 with bytes := BitVec.allOnes 64 }]) 0x1000 = true := by
  decide +kernel
theorem meets_DramDrift_quiet :
    inQuiet (updChan memDevice 1 fun c => { c with quiet := true }) 1 = true ∧
        inQuiet memDevice 1 = false := by decide +kernel
theorem meets_MemoryQuiet : MemoryQuiet memDevice where
  bits := ⟨rfl, rfl⟩
  marks := ⟨rfl, rfl⟩
  chans := by decide +kernel
  victims := fun t => (bareGal_reset t).2.2
/-- The cleaner's page, in a part whose memory is quiet and where no core holds a line. -/
theorem meets_WindowCleaner_page (k : Nat) :
    let d := storeDevice 4 { windowHold with cleaning := true, clean := [1, 2, 3], order := [0], held := [] }
    (∀ h : Hart, sfind d.harts[h].lines (winBase d + 0 * 65536 + 64 * k) = none) ∧
    ∀ t : Tile, sfind d.gal[t].dir (winBase d + 0 * 65536 + 64 * k) = none := by
  intro d
  constructor
  · intro h
    have : d.harts[h] = resetHart := by simp [d, storeDevice, memDevice, runDevice, resetDevice]
    rw [this]; rfl
  · intro t
    have := (bareGal_reset t).1
    have e : d.gal = memDevice.gal := rfl
    rw [e, this]; rfl
theorem meets_WindowCleaner_next :
    let d := storeDevice 4 { windowHold with cleaning := true, clean := [1, 2, 3], order := [0], held := [] }
    cleanerRuns d = true ∧ nextDirty d = some 0 ∧ d.flips = [] ∧ (∀ c : Chan, mayRead d c ⟨3, 0, false⟩ = true) := by
  decide +kernel

theorem meets_LedgerCommands_resolve :
    let r := entry 6 [(8, 0), (0xa, 77)]
    let d := { ledgerDevice [anAccepted r] [] with waits := false }
    let x := resolveAbort d 0 5 77
    (qFind d 0 5).map (·.type) = some 2 ∧ x.2.waits = false ∧ (endAbort x.2 0 5 0 x.1).waits = false ∧
        lineRead r 2 2 ≠ 77 ∧
    (findUnread d 0 (aQueue 2 [anAccepted r]) 77 0 16).1 = (none, false) ∧
    (findUnread d 0 (aQueue 2 [anAccepted r]) 77 0 16).2.waits = false ∧
    (findUnread d 0 (aQueue 2 [anAccepted r]) 77 0 16).2.queues = d.queues := by decide +kernel
theorem meets_LedgerReads_ends :
    let a := anAccepted (aLedger 1 262143)
    let d := { ledgerDevice [a] [aStaged [5] 0] with waits := false }
    let lost := { d with ledger := { d.ledger with staged := [], lost := [2 ^ 40 * 64 + 262143] } }
    (sglRead d 0 a.raw).2.waits = false ∧ (sglRead d 0 (entry 1 [(0x18, 2 ^ 63), (0x20, 1)])).1.1 ≠ 0 ∧
    (sglRead d 0 (entry 1 [(0x18, 2 ^ 63), (0x20, 1)])).2.waits = false ∧
    (freeBuffers lost 0 [(0x10000, 4096)]).waits = false ∧
    (writeOutput d 0 [(2 ^ 63, [1])]).1 = false ∧ (writeOutput d 0 [(2 ^ 63, [1])]).2.waits = false := by decide +kernel
theorem meets_LedgerWrites_ends :
    let a := anAccepted (aLedger 2 262143)
    let d := { ledgerDevice [a] [] with waits := false }
    (sglRead d 0 a.raw).1.1 = 0 ∧ (sglRead d 0 a.raw).2.waits = false ∧ ldgState (sglRead d 0 a.raw).2 ≠ 2 ∧
    bufferBlocks d + 1 ≤ 8192 ∧ (gather d 0 [(2 ^ 63, 4096)]).1.1 = none ∧
        (gather d 0 [(2 ^ 63, 4096)]).2.waits = false ∧
    ({ a with progress := 1 }).progress ≠ 0 ∧ (aStaged [5] 0).cmd = 0 ∧ a.num ≠ 0 ∧
    regF (setReg d LDG_STAT 10 1 1) LDG_STAT 10 1 = 1 := by decide +kernel
theorem meets_SelfTests_resume :
    ({ resetLedger with used := 0 } : Ledger).used + 10000000 ≤ 10000000 ∧
    ¬ ({ resetLedger with used := 0 } : Ledger).used + 10000000 ≤ 9999999 := by decide

theorem meets_LongCommandEnds :
    let d := boxDevice 0xb00 [] 0 0
    let frozen := { d with parts := [(5, { aPartition with state := .frozen })] }
    let img := 64
    paused d = false ∧ paused (setReg d WRD_STAT 2 2 1) = true ∧ (sfind d.parts 9).isNone = true ∧
    saveStatus frozen 5 0 = 0 ∧ saveStatus d 5 0 ≠ 0 ∧ bufferList d 0x1000 0 = some [] ∧
    bulkStatus d 0x1000 128 128 = 0 ∧ bulkStatus d 0x1000 127 128 ≠ 0 ∧ restoreStatus d 0 (List.replicate img 0) 0 ≠ 0 ∧
    settingsNow d = none ∧ windowStatus d 0x10000 2 = 0 ∧ windowStatus d 1 1 ≠ 0 ∧ inRecovery d = false ∧
    inRecovery (setReg d WRD_STAT 2 2 2) = true ∧ imageFault d 0 = 0 ∧ regF (formShadow d) SNAP_STAT 0 2 = 0 := by
  decide +kernel
theorem meets_PartitionCommands_status :
    let d := boxDevice 0x100 [] 128 newDescriptor
    rdStatus d 0 = 3 ∧ rdBad (newDescriptor - 2 ^ 24 * 4) = false ∧
    (sfind d.parts (rdF (newDescriptor - 2 ^ 24 * 4) 3 1)).isSome = true ∧
    sfind (boxDevice 0x105 [(0, 5), (1, 2)] 16 0).parts 5 = some aPartition ∧
    1 < param (boxDevice 0x105 [(0, 5), (1, 2)] 16 0) 1 1 ∧ 63 < param (boxDevice 0x103 [(0, 64)] 0 0) 0 1 ∧
    ({ aPartition with destroying := true } : Partition).destroying = true := by decide +kernel
/-- A destruction that waits for nothing, and the partitions a PART_ENGINES may name. -/
theorem meets_PartitionCommands_destroy :
    let d := boxDevice 0x101 [(0, 5)] 0 0
    (destroyStart { d with waits := false } 5).waits = false ∧ param d 0 1 ≠ 0 ∧
    param (boxDevice 0x102 [(0, 1)] 128 newDescriptor) 0 1 ≤ 1 ∧
    bulkStatus (boxDevice 0x102 [(0, 1)] 128 newDescriptor) 0x1000 128 128 = 0 := by decide +kernel
/-- A pause whose engines rest, of an image that passes and of one that does not; a trial that castles back. -/
theorem meets_FirmwareActivation_pause :
    let r : BootRecord := ⟨0, 0, true, 0, 2, 1, 0⟩
    let d := { runDevice with warden := { resetWarden with rec0 := some r, pause := some 2, slotA := .bytes [] } }
    d.warden.pause = some 2 ∧ (bootRec d).active ≤ 1 ∧ imageFault d 0 = 1 ∧
        flightsDue { d with warden := { d.warden with flightsRun := true } } = false ∧
    paused runDevice = false ∧ (bootRec d).trial = true := by decide +kernel
theorem meets_FirmwareActivation_rest : enginesHeld (engineState resetEngine).dev = true := by
  simp only [enginesHeld, List.all_eq_true]
  intro e _
  simp [engineState, resetEngine]
theorem meets_RecoveryInjection_marks :
    injectable 3 = some 256 ∧ injectable 6 = some 65536 ∧ injectable 0x15 = some 65536 ∧
        inDram memDevice 0x1000 = true ∧
    param (boxDevice 0x800 [(0, 3), (2, 255), (8, 1023), (0x10, 1)] 0 0) 8 8 = 1023 := by decide +kernel

/-! ### Records, the mesh, resets and paths -/

/-- A record whose page of the window is clean waits; one of another page does not. -/
theorem meets_EventRecords_held :
    let d := { eventDevice 0x16 5 [] with ras := { resetRas with raised := [anEvent 0x16] } }
    let w := { d with
      regs := (LIFE_EVQ_BASE, 0x130000) :: (HUP_WIN, 2 ^ 20) :: (HUP_LIMIT, 4) :: d.regs, hup := windowHold }
    recordWaits d = false ∧ recordWaits w = true ∧ eventWrites d = true ∧ regF d SNAP_CTL 2 1 = 0 := by decide +kernel
theorem meets_MeshFailures_port :
    foyerUp runDevice 24 = true ∧ (24, 5) ∉ runDevice.mesh.pend ∧ foyerUp runDevice 25 = false ∧
    LinkDir.rankUp ≠ .foyer ∧ runDevice.phase = .run := by decide +kernel
theorem meets_RegisterWrites_any :
    (windowWrite { runDevice with waits := false } (PGR_PART_SEL / 8 * 8) (whole .manager 5)).waits = false ∧
    (blkOf (DRC_ERR 15)).map (·.1) = some .drc ∧ deadBlk runDevice .drc 0 = false ∧
    (⟨.manager, .low, 5⟩ : RegAccess).part ≠ .high := by decide +kernel
theorem meets_PowerControl_limits :
    vrWaits { runDevice with pkg := { runDevice.pkg with setW := 900 } } .west ≠ 0 ∧ (100 : Nat) ≤ 100 ∧
    regF (setReg runDevice PWR_STAT 14 1 1) PWR_STAT 14 1 = 1 := by decide +kernel
theorem meets_ColdReset_population :
    popFault aBoot = none ∧ popFault { aBoot with spd := aBoot.spd.set 15 0 } = some 15 ∧
    ({ runDevice with phase := .persisted,
                      hup := { runDevice.hup with persistDone := true } }).hup.persistDone = true := by
  decide +kernel
/-- R517's worked example: with d3's square out a packet from a1 to d5 goes along its file first, and one from d1 to d5
goes round by c1 to c4 and d4. -/
theorem test_route :
    let d := setReg runDevice (MSH_STAT 19) 0 1 0
    meshPath d 0 35 = some (filePath 0 35) ∧ rankPath 0 35 = [0, 1, 2, 3, 11, 19, 27, 35] ∧
    meshPath d 3 35 = some [3, 2, 10, 18, 26, 27, 35] := by decide +kernel
end Sys2Proof.Tests
end

section
/-! SUPPORT. What the operations on registers of the control window leave: the names of registers tell them apart, an
event of the ring changes only what a snapshot records, and counters and other fields of a register keep apart. -/

namespace Sys2Proof.Machine

open Sys2Proof

/-! ### Replacing the device -/

theorem act_of_effect {f : Device → Device} {s : State} {d : Device} (h : f s.dev = d) :
    act f s = .next (s.withDev d) := by rw [act_eq, h]

theorem dev_withDev (s : State) (d : Device) : (s.withDev d).dev = d := by cases s; rfl

/-! ### Names of registers -/

@[simp] theorem regAt_eq_iff (b : Blk) (i off off' : Nat) : regAt b i off = regAt b i off' ↔ off = off' := by
  simp [regAt]

/-- The blocks below the channels end where the first channel's block begins (R536). -/
theorem ne_regAt_drc {x : Nat} (i off : Nat) (h : x < 0x12000000) : x ≠ regAt .drc i off := by
  simp only [regAt, blkInfo]; omega

theorem regAt_beat_lt {off : Nat} (h : off < 0x1000) : regAt .beat 0 off < 0x12000000 := by
  simp only [regAt, blkInfo]; omega

/-! ### Fields -/

theorem regF_setReg_of_lt (d : Device) (x : Nat) {lo len v : Nat} (h : lo + len ≤ 64) (hv : v < 2 ^ len) :
    regF (setReg d x lo len v) x lo len = v := by rw [regF_setReg_self _ _ _ h, Nat.mod_eq_of_lt hv]

theorem regF_lt (d : Device) (x lo len : Nat) : regF d x lo len < 2 ^ len := field_lt _ _ _

theorem regF_incRegSat_self (d : Device) (x : Nat) {lo len : Nat} (h : lo + len ≤ 64) :
    regF (incRegSat d x lo len) x lo len = satInc (regF d x lo len) len := by
  rw [incRegSat_eq, regF_setReg_self _ _ _ h, Nat.mod_eq_of_lt (satInc_lt _ _ (regF_lt ..))]

theorem regF_incRegSat_apart (d : Device) (x : Nat) {lo len lo' len' : Nat} (h : lo' + len' ≤ lo ∨ lo + len ≤ lo') :
    regF (incRegSat d x lo len) x lo' len' = regF d x lo' len' := by
  rw [incRegSat_eq, regF_setReg_apart _ _ _ h]

theorem regF_incRegSat_of_ne (d : Device) {x y : Nat} (lo len lo' len' : Nat) (h : y ≠ x) :
    regF (incRegSat d x lo len) y lo' len' = regF d y lo' len' := by
  rw [incRegSat_eq, regF_setReg_of_ne _ _ _ _ _ _ h]

/-- A field is its low bits and its high bits. -/
theorem field_add (v : Dword) (lo m n : Nat) : field v lo (m + n) = field v lo m + 2 ^ m * field v (lo + m) n := by
  simp only [field, fieldN, Nat.pow_add, Nat.mod_mul, Nat.div_div_eq_div_mul]

/-- A field that is set changes its register alone. -/
theorem onlyRegs_setReg (s : State) (d : Device) (x lo len v : Nat) :
    (s.withDev d).onlyRegs (s.withDev (setReg d x lo len v)) [x] := by
  refine ⟨rfl, fun y hy => ?_⟩
  rw [dev_withDev, dev_withDev, reg_setReg, if_neg (mt List.mem_singleton.mpr hy)]

/-! ### The flag of a waiting read -/

/-- The device with its flag of a waiting read replaced. -/
def setWaits (d : Device) (b : Bool) : Device := { d with waits := b }

theorem setReg_setWaits (d : Device) (b : Bool) (x lo len v : Nat) :
    setReg (setWaits d b) x lo len v = setWaits (setReg d x lo len v) b := rfl

theorem incRegSat_setWaits (d : Device) (b : Bool) (x lo len : Nat) :
    incRegSat (setWaits d b) x lo len = setWaits (incRegSat d x lo len) b := rfl

theorem regF_setWaits (d : Device) (b : Bool) (x lo len : Nat) : regF (setWaits d b) x lo len = regF d x lo len := rfl

/-! ### Events -/

theorem raiseTrigger_frame (d : Device) (cls : Nat) :
    ∃ r a, raiseTrigger d cls = { d with regs := r, ras := a } := by
  unfold raiseTrigger
  split
  · exact ⟨_, _, rfl⟩
  · split <;> exact ⟨_, _, rfl⟩

theorem reg_raiseTrigger (d : Device) (cls : Nat) {y : Nat} (hs : y ≠ SNAP_STAT) (hw : y ≠ SNAP_WHEN) :
    reg (raiseTrigger d cls) y = reg d y := by
  unfold raiseTrigger
  split
  · rfl
  · split
    · rw [incRegSat_eq, reg_setReg, if_neg hs]
    · simp only [reg_setReg, hs, hw, if_false]; rfl

theorem raiseTrigger_setWaits (d : Device) (cls : Nat) (b : Bool) :
    raiseTrigger (setWaits d b) cls = setWaits (raiseTrigger d cls) b := by
  have hr : running (setWaits d b) = running d := rfl
  have hn : ∀ d, beatNow (setWaits d b) = beatNow d := fun _ => rfl
  have hc : ∀ d, (setWaits d b).cycle = d.cycle := fun _ => rfl
  have hb : ∀ d, (setWaits d b).beat = d.beat := fun _ => rfl
  have hs : ∀ r, { setWaits d b with ras := { (setWaits d b).ras with snapRegs := r } } =
      setWaits { d with ras := { d.ras with snapRegs := r } } b := fun _ => rfl
  unfold raiseTrigger
  simp only [hr, regF_setWaits, apply_ite (setWaits · b)]
  refine ite_congr rfl (fun _ => rfl) fun _ => ite_congr rfl (fun _ => rfl) fun _ => ?_
  rw [hs]; simp only [setReg_setWaits, hn, hc, hb]; rfl

section
variable (d : Device) (cls inst addr detail : Nat) (part : Option Part)

/-- An event changes the record of events, and the registers of a snapshot where its class triggers one. -/
theorem raiseEvent_frame : ∃ r a, raiseEvent d cls inst addr detail part = { d with regs := r, ras := a } := by
  unfold raiseEvent
  split <;> exact raiseTrigger_frame _ cls

@[simp] theorem raiseEvent_chans : (raiseEvent d cls inst addr detail part).chans = d.chans := by
  obtain ⟨r, a, h⟩ := raiseEvent_frame d cls inst addr detail part
  rw [h]
@[simp] theorem raiseEvent_waits : (raiseEvent d cls inst addr detail part).waits = d.waits := by
  obtain ⟨r, a, h⟩ := raiseEvent_frame d cls inst addr detail part
  rw [h]

theorem reg_raiseEvent {y : Nat} (hs : y ≠ SNAP_STAT) (hw : y ≠ SNAP_WHEN) :
    reg (raiseEvent d cls inst addr detail part) y = reg d y := by
  unfold raiseEvent
  split <;> rw [reg_raiseTrigger _ _ hs hw] <;> rfl

@[simp] theorem regF_raiseEvent_drc (i off lo len : Nat) :
    regF (raiseEvent d cls inst addr detail part) (regAt .drc i off) lo len = regF d (regAt .drc i off) lo len := by
  rw [regF_eq, regF_eq, reg_raiseEvent]
  · exact (ne_regAt_drc i off (by decide)).symm
  · exact (ne_regAt_drc i off (by decide)).symm

/-- An event does not look at the flag of a waiting read. -/
theorem raiseEvent_setWaits (b : Bool) :
    raiseEvent (setWaits d b) cls inst addr detail part = setWaits (raiseEvent d cls inst addr detail part) b := by
  have hm : (setWaits d b).ras = d.ras := rfl
  unfold raiseEvent
  rw [hm]
  split <;> rw [← raiseTrigger_setWaits] <;> rfl

end

end Sys2Proof.Machine
end

section
/-! PROOF. The link of a DRAM channel: oscillator drift, quiet windows, retraining and alerts (R404 to R408). -/

namespace Sys2Proof.Machine

open Sys2Proof

/-! ### Channels under writes of registers -/

theorem beatNow_setReg_train (d : Device) (i lo len v : Nat) :
    beatNow (setReg d (DRC_TRAIN i) lo len v) = beatNow d :=
  beatNow_setReg d lo len v (ne_regAt_drc i _ (by decide))

theorem beatNow_setReg_link (d : Device) (i lo len v : Nat) :
    beatNow (setReg d (DRC_LINK i) lo len v) = beatNow d :=
  beatNow_setReg d lo len v (ne_regAt_drc i _ (by decide))

theorem chanFailed_setReg_train (d : Device) (c : Chan) (lo len v : Nat) :
    chanFailed (setReg d (DRC_TRAIN c.val) lo len v) c = chanFailed d c := by
  simp only [chanFailed, DRC_STAT, DRC_TRAIN]
  rw [regF_setReg_of_ne _ _ _ _ _ _ (by simp)]

theorem windowAgo_setReg_train (d : Device) (c : Chan) (lo len v : Nat) :
    windowAgo (setReg d (DRC_TRAIN c.val) lo len v) c = windowAgo d c := by
  simp only [windowAgo, setReg_chans, beatNow_setReg_train]

@[simp] theorem regF_updChan (d : Device) (c : Chan) (f : Channel → Channel) (x lo len : Nat) :
    regF (updChan d c f) x lo len = regF d x lo len := by rw [regF, regF, updChan_regs]

theorem chan_congr {d e : Device} (h : d.chans = e.chans) (c : Chan) : d.chans[c] = e.chans[c] := by simp only [h]

theorem chan_setReg (d : Device) (x lo len v : Nat) (c : Chan) : (setReg d x lo len v).chans[c] = d.chans[c] :=
  chan_congr (setReg_chans ..) c

theorem chan_updChan (d : Device) (c : Chan) (f : Channel → Channel) : (updChan d c f).chans[c] = f d.chans[c] :=
  updChan_self d c f

/-! ### Drift -/

/-- A link that has not failed retrains. -/
theorem startRetrain_of_not_failed {d : Device} {c : Chan} (h : chanFailed d c = false) :
    startRetrain d c = setReg d (DRC_STAT c.val) 0 2 1 := by simp [startRetrain, h]

section
variable {d : Device} {c : Chan} {v : Nat}

theorem driftSeen_small (h : v ≤ regF d (DRC_TRAIN c.val) 0 8) :
    driftSeen d c v = setReg d (DRC_TRAIN c.val) 8 16 v := by
  have h1 : ¬ 4 * regF d (DRC_TRAIN c.val) 0 8 < v := by omega
  have h2 : ¬ regF d (DRC_TRAIN c.val) 0 8 < v := by omega
  simp [driftSeen, h1, h2]

theorem driftSeen_early (h : v ≤ 4 * regF d (DRC_TRAIN c.val) 0 8) (w : windowAgo d c = false) :
    driftSeen d c v = setReg d (DRC_TRAIN c.val) 8 16 v := by
  simp [driftSeen, Nat.not_lt.mpr h, windowAgo_setReg_train, w]

theorem driftSeen_asks (l : regF d (DRC_TRAIN c.val) 0 8 < v) (h : v ≤ 4 * regF d (DRC_TRAIN c.val) 0 8)
    (w : windowAgo d c = true) : driftSeen d c v = askQuiet (setReg d (DRC_TRAIN c.val) 8 16 v) c := by
  simp [driftSeen, Nat.not_lt.mpr h, l, windowAgo_setReg_train, w]

theorem driftSeen_retrains (l : 4 * regF d (DRC_TRAIN c.val) 0 8 < v) (h : chanFailed d c = false) :
    driftSeen d c v = setReg (setReg d (DRC_TRAIN c.val) 8 16 v) (DRC_STAT c.val) 0 2 1 := by
  simp [driftSeen, l, startRetrain, chanFailed_setReg_train, h]

end

/-- The quiet window of a channel that has none designated. -/
theorem askQuiet_of_none {d : Device} {c : Chan} (h : regF d (BEAT_QW_NEXT c.val) 63 1 ≠ 1) : askQuiet d c =
    setReg (setReg (setReg d (BEAT_QW_NEXT c.val) 0 48 ((beatNow d + 31) / 16 * 16 % 2 ^ 48))
      (BEAT_QW_NEXT c.val) 63 1 1) BEAT_QW_PEND c.val 1 1 := if_neg h

theorem askQuiet_of_some {d : Device} {c : Chan} (h : regF d (BEAT_QW_NEXT c.val) 63 1 = 1) : askQuiet d c = d :=
  if_pos h

/-- Once asked for, a channel's quiet window is designated; one already designated stays as it is. -/
theorem askQuiet_designates (d : Device) (c : Chan) :
    regF (askQuiet d c) (BEAT_QW_NEXT c.val) 63 1 = 1 ∧
    (regF d (BEAT_QW_NEXT c.val) 63 1 = 0 → regF (askQuiet d c) BEAT_QW_PEND c.val 1 = 1 ∧
      regF (askQuiet d c) (BEAT_QW_NEXT c.val) 0 48 = (beatNow d + 31) / 16 * 16 % 2 ^ 48) := by
  have hne : BEAT_QW_NEXT c.val ≠ BEAT_QW_PEND := by
    simp only [BEAT_QW_NEXT, BEAT_QW_PEND, ne_eq, regAt_eq_iff]; omega
  by_cases h : regF d (BEAT_QW_NEXT c.val) 63 1 = 1
  · rw [askQuiet_of_some h]
    exact ⟨h, fun h0 => absurd (h.symm.trans h0) (by decide)⟩
  · rw [askQuiet_of_none h]
    refine ⟨?_, fun _ => ⟨?_, ?_⟩⟩
    · rw [regF_setReg_of_ne _ _ _ _ _ _ hne, regF_setReg_of_lt _ _ (by decide) (by decide)]
    · rw [regF_setReg_of_lt _ _ (by omega) (by decide)]
    · rw [regF_setReg_of_ne _ _ _ _ _ _ hne, regF_setReg_apart _ _ _ (by decide), regF_setReg_self _ _ _ (by decide),
        Nat.mod_mod]

/-- A step in a quiet window records the drift, counts the window and ends it. -/
theorem quietStep_eq (d : Device) (c : Chan) (v : Nat) : quietStep d c v =
    updChan (incReg (setReg d (DRC_TRAIN c.val) 8 16 v) (DRC_LINK c.val) 48 16 1) c fun x =>
      { x with quiet := false, lastWindow := some (beatNow d) } := by
  have hb : beatNow (incReg (setReg d (DRC_TRAIN c.val) 8 16 v) (DRC_LINK c.val) 48 16 1) = beatNow d := by
    rw [incReg_eq, beatNow_setReg_link, beatNow_setReg_train]
  simp only [quietStep, hb]

theorem exec_dqsOscillatorRead {s : State} (run : s.dev.phase = .run) (c : Chan) (v : BitVec 16) :
    exec (.dqsOscillatorRead c v) s = .next (s.withDev
      (if beatNow s.dev % 1024 = 0 && !chanFailed s.dev c then driftSeen s.dev c v.toNat else s.dev)) :=
  act_whenRun _ run

theorem exec_quietWindowStep {s : State} (run : s.dev.phase = .run) (c : Chan) (v : BitVec 16) :
    exec (.quietWindowStep c v) s =
      .next (s.withDev (if !inQuiet s.dev c then s.dev else quietStep s.dev c v.toNat)) :=
  act_whenRun _ run

theorem dramDrift : Claims.DramDrift := by
  intro s c v run th d ends
  refine ⟨fun h => ?_, fun beat up => ⟨fun small => ?_, fun _ mid w => ?_, fun l mid w => ?_, fun l => ?_⟩, fun h => ?_,
    fun h => ?_⟩
  · rw [exec_dqsOscillatorRead run, if_neg (by rcases h with h | h <;> simp [h])]; rfl
  all_goals simp only [ends, exec_dqsOscillatorRead run, exec_quietWindowStep run]
  · simp [beat, up, driftSeen_small small, d]
  · simp [beat, up, driftSeen_early mid w, d]
  · have hasks := askQuiet_designates d c
    have hne : BEAT_QW_NEXT c.val ≠ DRC_TRAIN c.val :=
      ne_regAt_drc _ _ (regAt_beat_lt (by omega))
    rw [beatNow_setReg_train, regF_setReg_of_ne _ _ _ _ _ _ hne] at hasks
    exact ⟨_, rfl, by simpa [beat, up, driftSeen_asks l mid w, State.withDev] using hasks⟩
  · simp [beat, up, driftSeen_retrains l up, d]
  · rw [h]; rfl
  · simp [h, quietStep_eq, d]

/-! ### Retraining -/

/-- A channel whose link has retrained, before its outcome shows: the retraining is recorded and counted (R406). -/
def retrained (d : Device) (c : Chan) : Device :=
  raiseEvent (incRegSat (setReg d (DRC_ERR c.val) 2 1 1) (DRC_LINK c.val) 40 8) 0x0e c.val 0 0 none

/-- The count of retrainings with one more. -/
def retrainedTwice (d : Device) (c : Chan) : Device := incRegSat (retrained d c) (DRC_LINK c.val) 40 8

section
variable (d : Device) (c : Chan)

@[simp] theorem retrained_chans : (retrained d c).chans = d.chans := by simp [retrained]

@[simp] theorem retrainedTwice_chans : (retrainedTwice d c).chans = d.chans := by simp [retrainedTwice]

theorem retrained_count :
    regF (retrained d c) (DRC_LINK c.val) 40 8 = satInc (regF d (DRC_LINK c.val) 40 8) 8 := by
  simp [retrained, DRC_LINK, DRC_ERR, regF_incRegSat_self, regF_setReg_of_ne]

theorem retrained_err : regF (retrained d c) (DRC_ERR c.val) 2 1 = 1 := by
  simp [retrained, DRC_LINK, DRC_ERR, regF_incRegSat_of_ne, regF_setReg_self]

theorem retrainedTwice_count :
    regF (retrainedTwice d c) (DRC_LINK c.val) 40 8 = satInc (satInc (regF d (DRC_LINK c.val) 40 8) 8) 8 := by
  rw [retrainedTwice, regF_incRegSat_self _ _ (by decide), retrained_count]

theorem retrainedTwice_err : regF (retrainedTwice d c) (DRC_ERR c.val) 2 1 = 1 := by
  rw [retrainedTwice, regF_incRegSat_of_ne _ _ _ _ _ (by simp [DRC_ERR, DRC_LINK]), retrained_err]

end

section
variable {s : State} {c : Chan} (run : s.dev.phase = .run)
include run

/-- The end of a retraining shows only where the link retrains. -/
theorem exec_linkRetraining_idle (h : regF s.dev (DRC_STAT c.val) 0 2 ≠ 1) (o : RetrainOutcome) :
    exec (.linkRetraining c o) s = .next s := by
  refine (act_whenRun _ run).trans ?_
  simp only [bne_iff_ne, ne_eq, h, not_false_eq_true, if_true]; rfl

variable (h : regF s.dev (DRC_STAT c.val) 0 2 = 1)
include h

theorem exec_linkRetraining_good : exec (.linkRetraining c .good) s = .next (s.withDev
    (setReg (retrained s.dev c) (DRC_STAT c.val) 0 2 (if s.dev.chans[c].slow then 2 else 0))) := by
  refine (act_whenRun _ run).trans ?_
  simp only [h, bne_self_eq_false, Bool.false_eq_true, if_false]
  rw [← retrained, retrained_chans]

theorem exec_linkRetraining_slower : exec (.linkRetraining c .slower) s = .next (s.withDev
    (raiseEvent (updChan (setReg (setReg (retrainedTwice s.dev c) (DRC_ERR c.val) 3 1 1) (DRC_STAT c.val) 0 2 2) c
      fun x => { x with slow := true }) 0x0f c.val 0 0 none)) := by
  refine (act_whenRun _ run).trans ?_
  simp only [h, bne_self_eq_false, Bool.false_eq_true, if_false]
  rfl

theorem exec_linkRetraining_failed : exec (.linkRetraining c .failed) s = .next (s.withDev
    (raiseEvent (setReg (setReg (retrainedTwice s.dev c) (DRC_ERR c.val) 4 1 1) (DRC_STAT c.val) 0 2 3) 0x10 c.val 0 0
      none)) := by
  refine (act_whenRun _ run).trans ?_
  simp only [h, bne_self_eq_false, Bool.false_eq_true, if_false]
  rfl

end

/-! What the three ways in which a retraining ends leave (R406, R408). -/

theorem linkRetraining_good {s : State} {c : Chan} (run : s.dev.phase = .run)
    (h : regF s.dev (DRC_STAT c.val) 0 2 = 1) :
    ∃ t, exec (.linkRetraining c .good) s = .next t ∧
      regF t.dev (DRC_STAT c.val) 0 2 = (if s.dev.chans[c].slow then 2 else 0) ∧
      regF t.dev (DRC_LINK c.val) 40 8 = satInc (regF s.dev (DRC_LINK c.val) 40 8) 8 ∧
      regF t.dev (DRC_ERR c.val) 2 1 = 1 ∧ t.dev.chans = s.dev.chans := by
  refine ⟨_, exec_linkRetraining_good run h, ?_, ?_, ?_, ?_⟩ <;> simp only [dev_withDev]
  · rw [regF_setReg_of_lt _ _ (by decide) (by split <;> decide)]
  · rw [regF_setReg_of_ne _ _ _ _ _ _ (by simp [DRC_LINK, DRC_STAT]), retrained_count]
  · rw [regF_setReg_of_ne _ _ _ _ _ _ (by simp [DRC_ERR, DRC_STAT]), retrained_err]
  · rw [setReg_chans, retrained_chans]

theorem linkRetraining_slower {s : State} {c : Chan} (run : s.dev.phase = .run)
    (h : regF s.dev (DRC_STAT c.val) 0 2 = 1) :
    ∃ t, exec (.linkRetraining c .slower) s = .next t ∧ regF t.dev (DRC_STAT c.val) 0 2 = 2 ∧
      regF t.dev (DRC_LINK c.val) 40 8 = satInc (satInc (regF s.dev (DRC_LINK c.val) 40 8) 8) 8 ∧
      regF t.dev (DRC_ERR c.val) 2 2 = 3 ∧ t.dev.chans[c] = { s.dev.chans[c] with slow := true } := by
  have hlink := retrainedTwice_count s.dev c
  have herr := retrainedTwice_err s.dev c
  simp only [DRC_LINK, DRC_ERR] at hlink herr
  refine ⟨_, exec_linkRetraining_slower run h, ?_, ?_, ?_, ?_⟩ <;> simp only [dev_withDev]
  · simp [DRC_STAT, regF_setReg_self]
  · simp [DRC_LINK, DRC_STAT, DRC_ERR, regF_setReg_of_ne, hlink]
  · rw [regF_eq, field_add _ 2 1 1]
    simp [DRC_STAT, DRC_ERR, ← regF_eq, regF_setReg_of_ne, regF_setReg_self, regF_setReg_apart, herr]
  · rw [chan_congr (raiseEvent_chans ..), chan_updChan, chan_setReg, chan_setReg, chan_congr (retrainedTwice_chans ..)]

theorem linkRetraining_failed {s : State} {c : Chan} (run : s.dev.phase = .run)
    (h : regF s.dev (DRC_STAT c.val) 0 2 = 1) :
    ∃ t, exec (.linkRetraining c .failed) s = .next t ∧ regF t.dev (DRC_STAT c.val) 0 2 = 3 ∧
      regF t.dev (DRC_LINK c.val) 40 8 = satInc (satInc (regF s.dev (DRC_LINK c.val) 40 8) 8) 8 ∧
      regF t.dev (DRC_ERR c.val) 4 1 = 1 ∧ regF t.dev (DRC_ERR c.val) 2 1 = 1 ∧ chanFailed t.dev c = true := by
  have hlink := retrainedTwice_count s.dev c
  have herr := retrainedTwice_err s.dev c
  simp only [DRC_LINK, DRC_ERR] at hlink herr
  refine ⟨_, exec_linkRetraining_failed run h, ?_, ?_, ?_, ?_, ?_⟩ <;> simp only [dev_withDev, chanFailed]
  · simp [DRC_STAT, regF_setReg_self]
  · simp [DRC_LINK, DRC_STAT, DRC_ERR, regF_setReg_of_ne, hlink]
  · simp [DRC_STAT, DRC_ERR, regF_setReg_of_ne, regF_setReg_self]
  · simp [DRC_STAT, DRC_ERR, regF_setReg_of_ne, regF_setReg_apart, herr]
  · simp [DRC_STAT, regF_setReg_self]

/-! ### Alerts -/

/-- A channel that has counted and recorded an alert (R407). -/
def alerted (d : Device) (c : Chan) (k : AlertKind) : Device :=
  raiseEvent (incRegSat d (DRC_LINK c.val) (alertBit k) 16) 0x0d c.val 0 0 none

/-- A channel whose subchannel `u` begins a replay, with `n` failed ones in a row behind it. -/
def replaying (u n : Nat) (x : Channel) : Channel :=
  { x with since := sput x.since u 0, replayFails := sput x.replayFails u n }

theorem alertAgain_iff (x : Channel) (u : Nat) :
    alertAgain x u = true ↔ ∃ m, sfind x.since u = some m ∧ m ≤ 32 := by
  unfold alertAgain
  cases sfind x.since u <;> simp

section
variable (d : Device) (c : Chan) (u : Nat) (k : AlertKind)

theorem chan_alerted : (alerted d c k).chans[c] = d.chans[c] := chan_congr (raiseEvent_chans ..) c

theorem alerted_count : regF (alerted d c k) (DRC_LINK c.val) (alertBit k) 16 =
    satInc (regF d (DRC_LINK c.val) (alertBit k) 16) 16 := by
  have hk : alertBit k + 16 ≤ 64 := by cases k <;> decide
  rw [alerted, DRC_LINK, regF_raiseEvent_drc, regF_incRegSat_self _ _ hk]

theorem alerted_stat : regF (alerted d c k) (DRC_STAT c.val) 0 2 = regF d (DRC_STAT c.val) 0 2 := by
  rw [alerted, DRC_STAT, regF_raiseEvent_drc, regF_incRegSat_of_ne _ _ _ _ _ (by simp [DRC_LINK])]

/-- An alert after a failed replay. -/
def alertedAgain : Device := incRegSat (alerted d c k) (DRC_LINK c.val) 32 8

theorem chan_alertedAgain : (alertedAgain d c k).chans[c] = d.chans[c] :=
  (chan_congr (incRegSat_chans ..) c).trans (chan_alerted d c k)

theorem alertedAgain_count : regF (alertedAgain d c k) (DRC_LINK c.val) (alertBit k) 16 =
    satInc (regF d (DRC_LINK c.val) (alertBit k) 16) 16 := by
  have hk : alertBit k + 16 ≤ 32 := by cases k <;> decide
  rw [alertedAgain, regF_incRegSat_apart _ _ (.inl hk), alerted_count]

theorem alertedAgain_stat : regF (alertedAgain d c k) (DRC_STAT c.val) 0 2 = regF d (DRC_STAT c.val) 0 2 := by
  rw [alertedAgain, regF_incRegSat_of_ne _ _ _ _ _ (by simp [DRC_LINK, DRC_STAT]), alerted_stat]

theorem alert_eq : alert d c u k =
    let n := if alertAgain d.chans[c] u then sget d.chans[c].replayFails u 0 + 1 else 0
    let e := updChan (if alertAgain d.chans[c] u then alertedAgain d c k else alerted d c k) c
      (replaying u (if n = 3 then 0 else n))
    if n = 3 then startRetrain e c else e := by
  have h : (raiseEvent (incRegSat d (DRC_LINK c.val) (alertBit k) 16) 0x0d c.val 0 0 none).chans[c] = d.chans[c] :=
    chan_alerted d c k
  simp only [alert, h]
  rfl

variable {d c u}

theorem alert_fresh (h : alertAgain d.chans[c] u = false) :
    alert d c u k = updChan (alerted d c k) c (replaying u 0) := by
  rw [alert_eq, h]; rfl

theorem alert_again (h : alertAgain d.chans[c] u = true) (n : sget d.chans[c].replayFails u 0 + 1 ≠ 3) :
    alert d c u k = updChan (alertedAgain d c k) c (replaying u (sget d.chans[c].replayFails u 0 + 1)) := by
  rw [alert_eq, h]
  simp only [if_true, n, if_false]

/-- The third failed replay in a row makes a link that has not failed retrain. -/
theorem alert_third (h : alertAgain d.chans[c] u = true) (n : sget d.chans[c].replayFails u 0 + 1 = 3)
    (up : chanFailed d c = false) : alert d c u k =
    setReg (updChan (alertedAgain d c k) c (replaying u 0)) (DRC_STAT c.val) 0 2 1 := by
  have hup : chanFailed (updChan (alertedAgain d c k) c (replaying u 0)) c = false := by
    rw [chanFailed, regF_updChan, alertedAgain_stat]; exact up
  rw [alert_eq, h]
  simp only [if_true, n, startRetrain_of_not_failed hup]

end

section
variable {s : State} (run : s.dev.phase = .run) (c : Chan) (sub : Bool) (k : AlertKind)
include run

theorem exec_dramAlert_failed (h : chanFailed s.dev c = true) : exec (.dramAlert c sub k) s = .next s := by
  refine (act_whenRun _ run).trans ?_
  simp only [h, if_true]; rfl

theorem exec_dramAlert (h : chanFailed s.dev c = false) :
    exec (.dramAlert c sub k) s = .next (s.withDev (alert s.dev c (if sub then 1 else 0) k)) := by
  refine (act_whenRun _ run).trans ?_
  simp only [h, Bool.false_eq_true, if_false]

end

/-- What an alert of a subchannel leaves (R407). -/
theorem alert_effect {d : Device} {c : Chan} (u : Nat) (k : AlertKind) (up : chanFailed d c = false) :
    let again := alertAgain d.chans[c] u = true
    let n := sget d.chans[c].replayFails u 0 + 1
    let e := alert d c u k
    regF e (DRC_LINK c.val) (alertBit k) 16 = satInc (regF d (DRC_LINK c.val) (alertBit k) 16) 16 ∧
    sfind e.chans[c].since u = some 0 ∧
    (¬ again → sfind e.chans[c].replayFails u = some 0 ∧ regF e (DRC_STAT c.val) 0 2 = regF d (DRC_STAT c.val) 0 2) ∧
    (again → n ≠ 3 → sfind e.chans[c].replayFails u = some n ∧
      regF e (DRC_STAT c.val) 0 2 = regF d (DRC_STAT c.val) 0 2) ∧
    (again → n = 3 → sfind e.chans[c].replayFails u = some 0 ∧ regF e (DRC_STAT c.val) 0 2 = 1) := by
  intro again n e
  have hreplay : ∀ (m : Nat) (x : Channel), sfind (replaying u m x).since u = some 0 ∧
      sfind (replaying u m x).replayFails u = some m := fun m x => ⟨sfind_sput_self .., sfind_sput_self ..⟩
  by_cases ha : again
  · by_cases hn : n = 3
    · have he : e = _ := alert_third k ha hn up
      have hne : DRC_LINK c.val ≠ DRC_STAT c.val := by simp [DRC_LINK, DRC_STAT]
      have hc : e.chans[c] = replaying u 0 d.chans[c] := by
        rw [he, chan_setReg, chan_updChan, chan_alertedAgain]
      rw [hc]
      refine ⟨?_, (hreplay _ _).1, fun h => absurd ha h, fun _ h => absurd hn h, fun _ _ => ⟨(hreplay _ _).2, ?_⟩⟩
      · rw [he, regF_setReg_of_ne _ _ _ _ _ _ hne, regF_updChan, alertedAgain_count]
      · rw [he, regF_setReg_of_lt _ _ (by decide) (by decide)]
    · have he : e = _ := alert_again k ha hn
      have hc : e.chans[c] = replaying u n d.chans[c] := by rw [he, chan_updChan, chan_alertedAgain]
      rw [hc]
      refine ⟨?_, (hreplay _ _).1, fun h => absurd ha h, fun _ _ => ⟨(hreplay _ _).2, ?_⟩, fun _ h => absurd h hn⟩
      · rw [he, regF_updChan, alertedAgain_count]
      · rw [he, regF_updChan, alertedAgain_stat]
  · have he : e = _ := alert_fresh k (Bool.eq_false_iff.mpr ha)
    have hc : e.chans[c] = replaying u 0 d.chans[c] := by rw [he, chan_updChan, chan_alerted]
    rw [hc]
    refine ⟨?_, (hreplay _ _).1, fun _ => ⟨(hreplay _ _).2, ?_⟩, fun h => absurd h ha, fun h => absurd h ha⟩
    · rw [he, regF_updChan, alerted_count]
    · rw [he, regF_updChan, alerted_stat]

theorem dramLink : Claims.DramLink := by
  intro s c run st counts n
  refine ⟨fun h o => exec_linkRetraining_idle run h o,
    fun h => ⟨linkRetraining_good run h, linkRetraining_slower run h, linkRetraining_failed run h⟩,
    fun sub k h => exec_dramAlert_failed run c sub k h, fun sub k up => ?_⟩
  intro u x again bit third
  obtain ⟨hcount, hsince, hfresh, hagain, hthird⟩ := alert_effect u k up
  have hiff : alertAgain x u = true ↔ again := alertAgain_iff x u
  refine ⟨_, exec_dramAlert run c sub k up, ?_⟩
  simp only [st, dev_withDev]
  exact ⟨hcount, hsince, fun h => hfresh (h ∘ hiff.mp), fun h h3 => hagain (hiff.mpr h) fun e => h3 ⟨h, e⟩,
    fun ⟨h, e⟩ => hthird (hiff.mpr h) e⟩

/-- Settles O48: each outcome of the oscillator, of a retraining and of an alert is one equation of the channel. -/
theorem dramDriftAndLink : Obligations.DramDriftAndLink := ⟨dramDrift, dramLink⟩

end Sys2Proof.Machine
end

section
/-! SUPPORT. A software write of a register, field by field (R4, R7, R10, R541). -/

namespace Sys2Proof.Machine

open Sys2Proof

/-! ### The fields of a register -/

/-- One test of two conditions is two tests. -/
theorem if_and {p q : Prop} [Decidable p] [Decidable q] {α : Type} (a b : α) :
    (if p ∧ q then a else b) = if p then (if q then a else b) else b := by
  by_cases hp : p <;> simp only [hp, true_and, false_and, if_true, if_false]

section
variable (locked : Bool) (w : RegAccess) (v : Dword)

/-- A write of one field leaves every field apart from it. -/
theorem field_writeField_apart (f : FieldDesc) {lo len : Nat} (h : lo + len ≤ f.lo ∨ f.lo + f.len ≤ lo) :
    field (writeField locked w v f) lo len = field v lo len := by
  unfold writeField
  cases f.acc <;> simp only [apply_ite (field · lo len), field_setField_apart v _ h, ite_self]

theorem field_writeFields_apart (l : List FieldDesc) {lo len : Nat}
    (h : ∀ f ∈ l, lo + len ≤ f.lo ∨ f.lo + f.len ≤ lo) :
    field (writeFields locked w v l) lo len = field v lo len := by
  induction l generalizing v with
  | nil => rfl
  | cons f t ih =>
    rw [writeFields, ih _ fun g hg => h g (List.mem_cons_of_mem _ hg),
      field_writeField_apart _ _ _ _ (h f (List.mem_cons_self ..))]

variable {locked w v} {f : FieldDesc}

/-! What a write leaves in a field of each access code. -/

theorem writeField_ro (acc : f.acc = .ro) : writeField locked w v f = v := by simp [writeField, acc]

theorem writeField_unreached (h : reaches w.part f = false) : writeField locked w v f = v := by simp [writeField, h]

theorem field_writeField_rw (acc : f.acc = .rw) (nolock : f.lock = false) (room : f.lo + f.len ≤ 64)
    (least : f.least = 0) (most : f.most = 2 ^ f.len - 1) : field (writeField locked w v f) f.lo f.len =
      if reaches w.part f then field (placed w) f.lo f.len else field v f.lo f.len := by
  have hx := field_lt (placed w) f.lo f.len
  have hm : field (placed w) f.lo f.len ≤ f.most := by omega
  simp only [writeField, acc, nolock, least, hm, apply_ite (field · f.lo f.len), field_setField_self _ _ room,
    Nat.mod_eq_of_lt hx, Nat.zero_le, decide_true, Bool.and_self, Bool.false_eq_true, if_true, if_false]

theorem field_writeField_rwl (acc : f.acc = .rwl) (room : f.lo + f.len ≤ 64)
    (least : f.least = 0) (most : f.most = 2 ^ f.len - 1) : field (writeField locked w v f) f.lo f.len =
      if reaches w.part f && !locked then field (placed w) f.lo f.len else field v f.lo f.len := by
  have hx := field_lt (placed w) f.lo f.len
  have hm : field (placed w) f.lo f.len ≤ f.most := by omega
  simp only [writeField, acc, least, hm, apply_ite (field · f.lo f.len), field_setField_self _ _ room,
    Nat.mod_eq_of_lt hx, Nat.zero_le, decide_true, Bool.and_self, Bool.true_and, Bool.and_eq_true, if_and]

/-- LOCK is set by writing a 1, and stays. -/
theorem field_writeField_lock (acc : f.acc = .rw) (lock : f.lock = true) (room : f.lo + 1 ≤ 64) (one : f.len = 1) :
    field (writeField locked w v f) f.lo 1 =
      if reaches w.part f ∧ field (placed w) f.lo 1 = 1 then 1 else field v f.lo 1 := by
  simp only [writeField, acc, lock, one, apply_ite (field · f.lo 1), field_setField_self _ _ room, if_true, if_and,
    (by decide : 1 % 2 ^ 1 = 1)]

/-- A one-bit RW1C field is cleared by writing a 1. -/
theorem field_writeField_rw1c (acc : f.acc = .rw1c) (room : f.lo + 1 ≤ 64) (one : f.len = 1) :
    field (writeField locked w v f) f.lo 1 =
      if reaches w.part f ∧ field (placed w) f.lo 1 = 1 then 0 else field v f.lo 1 := by
  have hbit : field (v &&& ~~~(placed w)) f.lo 1 = if field (placed w) f.lo 1 = 1 then 0 else field v f.lo 1 := by
    have e : ∀ x : Dword, field x f.lo 1 = (x.getLsbD f.lo).toNat := fun x => by
      rw [field, fieldN, Nat.pow_one, BitVec.getLsbD, Nat.testBit_eq_decide_div_mod_eq]
      rcases Nat.mod_two_eq_zero_or_one (x.toNat / 2 ^ f.lo) with h | h <;> rw [h] <;> rfl
    have hlo : f.lo < 64 := room
    rw [e, e, e, BitVec.getLsbD_and, BitVec.getLsbD_not]
    cases (placed w).getLsbD f.lo <;> simp [hlo]
  have hset : field (setField v f.lo 1 (field (v &&& ~~~(placed w)) f.lo 1)) f.lo 1 = _ :=
    (field_setField_self _ _ room).trans ((Nat.mod_eq_of_lt (field_lt ..)).trans hbit)
  simp only [writeField, acc, one, apply_ite (field · f.lo 1), hset, if_and]

/-- In a register whose fields keep apart, each field comes out as a write of that field alone leaves it. -/
theorem field_writeFields_mem {l : List FieldDesc} (mem : f ∈ l)
    (apart : l.Pairwise fun f g => f.lo + f.len ≤ g.lo ∨ g.lo + g.len ≤ f.lo) :
    ∃ u, field u f.lo f.len = field v f.lo f.len ∧
      field (writeFields locked w v l) f.lo f.len = field (writeField locked w u f) f.lo f.len := by
  induction l generalizing v with
  | nil => cases mem
  | cons g t ih =>
    obtain ⟨hg, ht⟩ := List.pairwise_cons.mp apart
    rcases List.mem_cons.mp mem with rfl | hf
    · exact ⟨v, rfl, field_writeFields_apart _ _ _ _ fun k hk => (hg k hk)⟩
    · obtain ⟨u, hu, he⟩ := ih (v := writeField locked w v g) hf ht
      exact ⟨u, hu.trans (field_writeField_apart _ _ _ _ (hg f hf).symm), he⟩

/-! ### What a write carries -/

theorem reaches_low (part : w.part ≠ .high) (low : f.lo + f.len ≤ 32) : reaches w.part f = true := by
  unfold reaches; cases h : w.part <;> simp_all

theorem reaches_high_low (part : w.part = .high) (low : f.lo < 32) : reaches w.part f = false := by
  simp [reaches, part, low]

theorem field_placed_low {lo len : Nat} (part : w.part ≠ .high) (low : lo + len ≤ 32) :
    field (placed w) lo len = field w.value lo len := by
  cases h : w.part with
  | whole => simp [placed, h]
  | high => exact absurd h part
  | low =>
    refine Nat.eq_of_testBit_eq fun k => ?_
    rw [testBit_field, testBit_field]
    by_cases hk : k < len
    · have hm : (0xffffffff : Dword).getLsbD (lo + k) = true := by
        rw [show (0xffffffff : Dword) = BitVec.ofNat 64 (2 ^ 32 - 1) from rfl, BitVec.getLsbD_ofNat,
          Nat.testBit_two_pow_sub_one, Bool.and_eq_true, decide_eq_true_eq, decide_eq_true_eq]
        omega
      simp only [placed, h, BitVec.getLsbD_and]
      rw [hm, Bool.and_true]
    · simp [hk]

theorem field_placed_high {lo len : Nat} (part : w.part = .high) (high : 32 ≤ lo) (room : lo + len ≤ 64) :
    field (placed w) lo len = field w.value (lo - 32) len := by
  refine Nat.eq_of_testBit_eq fun k => ?_
  rw [testBit_field, testBit_field]
  by_cases hk : k < len
  · have h1 : lo + k < 64 := by omega
    have h2 : ¬ lo + k < 32 := by omega
    have h3 : lo + k - 32 = lo - 32 + k := by omega
    simp only [placed, part, BitVec.getLsbD_shiftLeft, h1, h2, h3, decide_true, decide_false, Bool.not_false,
      Bool.true_and]
  · simp [hk]

theorem carried_low {lo len : Nat} (part : w.part ≠ .high) (low : lo + len ≤ 32) :
    carried w lo len = some (field w.value lo len) := by
  rw [← field_placed_low part low]
  unfold carried
  cases h : w.part <;> simp_all

theorem carried_high_low {lo len : Nat} (part : w.part = .high) (low : lo < 32) : carried w lo len = none := by
  simp [carried, part, low]

end

/-! ### A write of one register -/

section
variable (d : Device) (w : RegAccess) {x : Nat} {b : Blk} {i off : Nat} (block : blkOf x = some (b, i, off))
include block

theorem reg_plainWrite_self :
    reg (plainWrite d x w) x = writeFields (blkLocked d.regs b i) w (reg d x) (fieldsOf b off) := by
  simp [reg, plainWrite, updRegs, regWrite, regPut, block]

theorem reg_plainWrite_of_ne {y : Nat} (h : y ≠ x) : reg (plainWrite d x w) y = reg d y := by
  simp [reg, plainWrite, updRegs, regWrite, regPut, block, h]

theorem regF_plainWrite_of_ne {y : Nat} (h : y ≠ x) (lo len : Nat) :
    regF (plainWrite d x w) y lo len = regF d y lo len := by
  rw [regF_eq, reg_plainWrite_of_ne d w block h, regF_eq]

theorem regF_plainWrite_mem {f : FieldDesc} (mem : f ∈ fieldsOf b off)
    (apart : (fieldsOf b off).Pairwise fun f g => f.lo + f.len ≤ g.lo ∨ g.lo + g.len ≤ f.lo) :
    ∃ u, field u f.lo f.len = regF d x f.lo f.len ∧
      regF (plainWrite d x w) x f.lo f.len = field (writeField (blkLocked d.regs b i) w u f) f.lo f.len := by
  rw [regF_eq, regF_eq, reg_plainWrite_self d w block]
  exact field_writeFields_mem mem apart

end

end Sys2Proof.Machine
end

section
/-! PROOF. Writes of the beat registers and the external lock of the beat generator (R27, R46). -/

namespace Sys2Proof.Machine

open Sys2Proof

/-! ### What the generator changes -/

/-- A device that differs in the registers and in the beat generator only. -/
def BeatOnly (d e : Device) : Prop := ∃ r b, e = { d with regs := r, beat := b }

theorem BeatOnly.refl (d : Device) : BeatOnly d d := ⟨d.regs, d.beat, rfl⟩

theorem BeatOnly.setReg {d e : Device} (h : BeatOnly d e) (x lo len v : Nat) : BeatOnly d (setReg e x lo len v) := by
  obtain ⟨r, b, rfl⟩ := h; exact ⟨_, _, rfl⟩

theorem BeatOnly.plainWrite {d e : Device} (h : BeatOnly d e) (x : Nat) (w : RegAccess) :
    BeatOnly d (plainWrite e x w) := by
  obtain ⟨r, b, rfl⟩ := h; exact ⟨_, _, rfl⟩

theorem BeatOnly.updBeat {d e : Device} (h : BeatOnly d e) (f : BeatGen → BeatGen) : BeatOnly d (updBeat e f) := by
  obtain ⟨r, b, rfl⟩ := h; exact ⟨_, _, rfl⟩

theorem BeatOnly.acquire {d e : Device} (h : BeatOnly d e) : BeatOnly d (acquire e) := by
  unfold Machine.acquire
  split
  · exact (h.setReg ..).updBeat _
  · exact h

theorem BeatOnly.withDev {s : State} {d e : Device} (h : BeatOnly d e) :
    s.withDev e = s.withDev { d with regs := (s.withDev e).dev.regs, beat := (s.withDev e).dev.beat } := by
  obtain ⟨r, b, rfl⟩ := h; rfl

theorem regF_updBeat (d : Device) (f : BeatGen → BeatGen) (x lo len : Nat) :
    regF (updBeat d f) x lo len = regF d x lo len := by rw [regF, regF, updBeat_regs]

theorem reg_updBeat (d : Device) (f : BeatGen → BeatGen) (x : Nat) : reg (updBeat d f) x = reg d x := by
  rw [reg, reg, updBeat_regs]

/-! ### Acquiring -/

theorem acquire_of_internal {d : Device} (h : regF d BEAT_CTL 0 1 ≠ 1) : acquire d = d := if_neg h

theorem acquire_of_external {d : Device} (h : regF d BEAT_CTL 0 1 = 1) :
    acquire d = updBeat (setReg d BEAT_STAT 0 2 1) fun b => { b with good := 0 } := if_pos h

theorem reg_acquire (d : Device) {y : Nat} (h : y ≠ BEAT_STAT) : reg (acquire d) y = reg d y := by
  unfold acquire
  split
  · rw [reg_updBeat, reg_setReg, if_neg h]
  · rfl

theorem regF_acquire (d : Device) {y : Nat} (h : y ≠ BEAT_STAT) (lo len : Nat) :
    regF (acquire d) y lo len = regF d y lo len := by rw [regF_eq, reg_acquire d h, regF_eq]

/-- A generator that follows BEAT_IN is ACQUIRING again; one with an internal source stays as it is. -/
theorem lock_acquire (d : Device) :
    regF (acquire d) BEAT_STAT 0 2 = if regF d BEAT_CTL 0 1 = 1 then 1 else regF d BEAT_STAT 0 2 := by
  by_cases h : regF d BEAT_CTL 0 1 = 1
  · rw [acquire_of_external h, regF_updBeat, regF_setReg_of_lt _ _ (by decide) (by decide), if_pos h]
  · rw [acquire_of_internal h, if_neg h]

theorem acquire_changes (d : Device) : (acquire d).beat.changes = d.beat.changes := by
  unfold acquire; split <;> rfl

/-! ### BEAT_PERIOD -/

/-- The device after an accepted write of BEAT_PERIOD. -/
def periodSet (d : Device) (k : Nat) : Device :=
  acquire (updBeat (setReg (setReg d BEAT_PERIOD 0 9 k) BEAT_PERIOD 32 32 ((beatNow d + 2) % 2 ^ 32)) fun b => { b with
    changes := (b.changes.filter fun c => c.1 != beatNow d + 2) ++ [(beatNow d + 2, k)] })

theorem writePeriod_accepted {d : Device} {w : RegAccess} {k : Nat} (takes : d.TakesWrite BEAT_PERIOD w.agent)
    (part : w.part ≠ .high) (lock : regF d BEAT_CTL 63 1 = 0) (hk : field w.value 0 9 = k) (least : 10 ≤ k)
    (most : k ≤ 400) : writePeriod d w = periodSet d k := by
  have h1 : ¬ k < 10 := by omega
  have h2 : ¬ 400 < k := by omega
  simp only [writePeriod, gateWrite_takes _ takes, carried_low part (show 0 + 9 ≤ 32 by decide), hk, lock, h1, h2]
  rfl

theorem writePeriod_ignored {d : Device} {w : RegAccess} (takes : d.TakesWrite BEAT_PERIOD w.agent)
    (h : w.part = .high ∨ regF d BEAT_CTL 63 1 = 1 ∨ field w.value 0 9 < 10 ∨ 400 < field w.value 0 9) :
    writePeriod d w = d := by
  rw [writePeriod, gateWrite_takes _ takes]
  by_cases part : w.part = .high
  · rw [carried_high_low part (by decide)]
  · rw [carried_low part (by decide)]
    exact if_pos (by rcases h with h | h | h | h <;> simp_all)

section
variable (d : Device) (k : Nat)

theorem beatOnly_periodSet : BeatOnly d (periodSet d k) :=
  ((((BeatOnly.refl d).setReg ..).setReg ..).updBeat _).acquire

theorem reg_periodSet {y : Nat} (h : y ≠ BEAT_PERIOD) (hs : y ≠ BEAT_STAT) : reg (periodSet d k) y = reg d y := by
  rw [periodSet, reg_acquire _ hs, reg_updBeat, reg_setReg, if_neg h, reg_setReg, if_neg h]

theorem periodSet_effect (hk : k < 2 ^ 9) :
    regF (periodSet d k) BEAT_PERIOD 0 9 = k ∧ regF (periodSet d k) BEAT_PERIOD 16 9 = regF d BEAT_PERIOD 16 9 ∧
    regF (periodSet d k) BEAT_PERIOD 32 32 = (beatNow d + 2) % 2 ^ 32 := by
  have hne : BEAT_PERIOD ≠ BEAT_STAT := by decide
  refine ⟨?_, ?_, ?_⟩ <;> rw [periodSet, regF_acquire _ hne, regF_updBeat]
  · rw [regF_setReg_apart _ _ _ (by decide), regF_setReg_of_lt _ _ (by decide) hk]
  · rw [regF_setReg_apart _ _ _ (by decide), regF_setReg_apart _ _ _ (by decide)]
  · rw [regF_setReg_of_lt _ _ (by decide) (Nat.mod_lt _ (by decide))]

theorem periodSet_changes : (periodSet d k).beat.changes =
    (d.beat.changes.filter fun c => c.1 != beatNow d + 2) ++ [(beatNow d + 2, k)] := by
  rw [periodSet, acquire_changes]; rfl

theorem lock_periodSet : regF (periodSet d k) BEAT_STAT 0 2 =
    if regF d BEAT_CTL 0 1 = 1 then 1 else regF d BEAT_STAT 0 2 := by
  have hc : BEAT_CTL ≠ BEAT_PERIOD := by decide
  have hs : BEAT_STAT ≠ BEAT_PERIOD := by decide
  rw [periodSet, lock_acquire]
  simp only [regF_updBeat, regF_setReg_of_ne _ _ _ _ _ _ hc, regF_setReg_of_ne _ _ _ _ _ _ hs]

end

/-! ### BEAT_PHASE -/

theorem blkOf_BEAT_PHASE : blkOf BEAT_PHASE = some (.beat, 0, 0x60) := rfl

theorem writePhase_ignored {d : Device} {w : RegAccess} (takes : d.TakesWrite BEAT_PHASE w.agent)
    (h : w.part = .high ∨ regF d BEAT_CTL 63 1 = 1) : writePhase d w = d := by
  rw [writePhase, gateWrite_takes _ takes]
  refine if_pos ?_
  rcases h with h | h
  · rw [carried_high_low h (by decide)]; rfl
  · rw [h]; exact Bool.or_true _

theorem writePhase_accepted {d : Device} {w : RegAccess} (takes : d.TakesWrite BEAT_PHASE w.agent)
    (part : w.part ≠ .high) (lock : regF d BEAT_CTL 63 1 = 0) :
    writePhase d w = acquire (plainWrite d BEAT_PHASE w) := by
  rw [writePhase, gateWrite_takes _ takes, carried_low part (by decide), lock]; rfl

theorem blkLocked_beat (d : Device) : blkLocked d.regs .beat 0 = (regF d BEAT_CTL 63 1 == 1) := rfl

theorem offset_plainWrite {d : Device} {w : RegAccess} (part : w.part ≠ .high) (lock : regF d BEAT_CTL 63 1 = 0) :
    regF (plainWrite d BEAT_PHASE w) BEAT_PHASE 0 16 = field w.value 0 16 := by
  obtain ⟨u, -, he⟩ := regF_plainWrite_mem d w blkOf_BEAT_PHASE (f := ⟨0, 16, 0, .rwl, 0, 65535, false⟩)
    (by decide) (by decide)
  rw [he, blkLocked_beat, lock, field_writeField_rwl rfl (by decide) rfl rfl, reaches_low part (by decide)]
  exact field_placed_low part (by decide)

/-! ### BEAT_CTL -/

theorem blkOf_BEAT_CTL : blkOf BEAT_CTL = some (.beat, 0, 0x40) := rfl

section
variable (d : Device) (w : RegAccess)

theorem src_plainWrite : regF (plainWrite d BEAT_CTL w) BEAT_CTL 0 1 =
    if decide (w.part ≠ .high) && decide (regF d BEAT_CTL 63 1 = 0) then w.value.toNat % 2
    else regF d BEAT_CTL 0 1 := by
  obtain ⟨u, hu, he⟩ := regF_plainWrite_mem d w blkOf_BEAT_CTL (f := ⟨0, 1, 0, .rwl, 0, 1, false⟩) (by decide)
    (by decide)
  have hlock : (!(regF d BEAT_CTL 63 1 == 1)) = decide (regF d BEAT_CTL 63 1 = 0) := by
    have := regF_lt d BEAT_CTL 63 1
    rcases (by omega : regF d BEAT_CTL 63 1 = 0 ∨ regF d BEAT_CTL 63 1 = 1) with h | h <;> rw [h] <;> rfl
  rw [he, field_writeField_rwl rfl (by decide) rfl rfl, hu, blkLocked_beat, hlock]
  by_cases part : w.part = .high
  · rw [reaches_high_low part (by decide)]; simp [part]
  · rw [reaches_low part (by decide), field_placed_low part (by decide)]
    simp [part, field, fieldN]

/-- A field of BEAT_CTL that LOCK does not cover, in the low half. -/
theorem regF_plainWrite_ctl {f : FieldDesc} (mem : f ∈ fieldsOf .beat 0x40) (acc : f.acc = .rw)
    (nolock : f.lock = false) (low : f.lo + f.len ≤ 32) (least : f.least = 0) (most : f.most = 2 ^ f.len - 1) :
    regF (plainWrite d BEAT_CTL w) BEAT_CTL f.lo f.len =
      if decide (w.part ≠ .high) then field w.value f.lo f.len else regF d BEAT_CTL f.lo f.len := by
  obtain ⟨u, hu, he⟩ := regF_plainWrite_mem d w blkOf_BEAT_CTL mem (by decide)
  rw [he, field_writeField_rw acc nolock (by omega) least most, hu]
  by_cases part : w.part = .high
  · have : f.lo < 32 := by
      have := (by decide : ∀ g ∈ fieldsOf .beat 0x40, g.len ≠ 0) f mem
      omega
    rw [reaches_high_low part this]; simp [part]
  · rw [reaches_low part low, field_placed_low part low]; simp [part]

theorem lock_plainWrite : regF (plainWrite d BEAT_CTL w) BEAT_CTL 63 1 =
    if regF d BEAT_CTL 63 1 = 1 then 1 else match w.part with
      | .whole => w.value.toNat / 2 ^ 63
      | .low => 0
      | .high => w.value.toNat / 2 ^ 31 % 2 := by
  obtain ⟨u, hu, he⟩ := regF_plainWrite_mem d w blkOf_BEAT_CTL (f := ⟨63, 1, 0, .rw, 0, 1, true⟩) (by decide)
    (by decide)
  have hold := regF_lt d BEAT_CTL 63 1
  rw [he, field_writeField_lock rfl rfl (by decide) rfl, hu]
  cases h : w.part with
  | whole =>
    have hv : field (placed w) 63 1 = w.value.toNat / 2 ^ 63 := by
      rw [placed, h]; exact Nat.mod_eq_of_lt (by have := w.value.isLt; omega)
    rw [hv, show reaches .whole _ = true from rfl]
    have : w.value.toNat / 2 ^ 63 < 2 := by have := w.value.isLt; omega
    simp only [true_and]
    split <;> split <;> omega
  | low =>
    show regF d BEAT_CTL 63 1 = if regF d BEAT_CTL 63 1 = 1 then 1 else 0
    split <;> omega
  | high =>
    rw [field_placed_high h (by decide) (by decide), show reaches .high _ = true from rfl]
    have hv : field w.value (63 - 32) 1 = w.value.toNat / 2 ^ 31 % 2 := rfl
    rw [hv]
    simp only [true_and]
    split <;> split <;> omega

end

/-- The device after SRC has changed from 1 to 0: the generator goes on from its last tick. -/
def sourceInternal (d : Device) : Device :=
  updBeat (setReg d BEAT_STAT 0 2 0) fun b => { b with
    lastEdge := none, good := 0, toCorrect := 0, length := activeP d }

/-- The device after SRC has changed from 0 to 1. -/
def sourceExternal (d : Device) : Device := acquire (updBeat d fun b => { b with lastEdge := none })

/-- The way a write of BEAT_CTL changes the generator: only with SRC. -/
theorem writeBeatCtl_eq {d : Device} {w : RegAccess} (takes : d.TakesWrite BEAT_CTL w.agent) : writeBeatCtl d w =
    let p := plainWrite d BEAT_CTL w
    if regF p BEAT_CTL 0 1 = regF d BEAT_CTL 0 1 then p
    else if regF d BEAT_CTL 0 1 = 1 then sourceInternal p else sourceExternal p :=
  gateWrite_takes _ takes

section
variable {d : Device} {w : RegAccess} (takes : d.TakesWrite BEAT_CTL w.agent)
include takes

theorem beatOnly_writeBeatCtl : BeatOnly d (writeBeatCtl d w) := by
  have h := (BeatOnly.refl d).plainWrite BEAT_CTL w
  rw [writeBeatCtl_eq takes]
  dsimp only
  split
  · exact h
  · split
    · exact (h.setReg ..).updBeat _
    · exact (h.updBeat _).acquire

theorem reg_writeBeatCtl {y : Nat} (h : y ≠ BEAT_STAT) :
    reg (writeBeatCtl d w) y = reg (plainWrite d BEAT_CTL w) y := by
  rw [writeBeatCtl_eq takes]
  dsimp only
  split
  · rfl
  · split
    · rw [sourceInternal, reg_updBeat, reg_setReg, if_neg h]
    · rw [sourceExternal, reg_acquire _ h, reg_updBeat]

theorem regF_writeBeatCtl (lo len : Nat) :
    regF (writeBeatCtl d w) BEAT_CTL lo len = regF (plainWrite d BEAT_CTL w) BEAT_CTL lo len := by
  rw [regF_eq, reg_writeBeatCtl takes (by decide), regF_eq]

theorem writeBeatCtl_same (h : regF (writeBeatCtl d w) BEAT_CTL 0 1 = regF d BEAT_CTL 0 1) :
    (writeBeatCtl d w).beat = d.beat ∧ regF (writeBeatCtl d w) BEAT_STAT 0 2 = regF d BEAT_STAT 0 2 := by
  rw [regF_writeBeatCtl takes] at h
  rw [writeBeatCtl_eq takes]
  dsimp only
  rw [if_pos h]
  exact ⟨rfl, regF_plainWrite_of_ne d w blkOf_BEAT_CTL (by decide) 0 2⟩

theorem writeBeatCtl_changed (h : regF (writeBeatCtl d w) BEAT_CTL 0 1 ≠ regF d BEAT_CTL 0 1) :
    (writeBeatCtl d w).beat.lastEdge = none ∧ (writeBeatCtl d w).beat.good = 0 ∧
    regF (writeBeatCtl d w) BEAT_STAT 0 2 = if regF d BEAT_CTL 0 1 = 1 then 0 else 1 := by
  rw [regF_writeBeatCtl takes] at h
  rw [writeBeatCtl_eq takes]
  dsimp only
  rw [if_neg h]
  by_cases src : regF d BEAT_CTL 0 1 = 1
  · rw [if_pos src, if_pos src]
    refine ⟨rfl, rfl, ?_⟩
    rw [sourceInternal, regF_updBeat, regF_setReg_of_lt _ _ (by decide) (by decide)]
  · have hnew := regF_lt (plainWrite d BEAT_CTL w) BEAT_CTL 0 1
    have hold := regF_lt d BEAT_CTL 0 1
    have hp : regF (updBeat (plainWrite d BEAT_CTL w) fun b => { b with lastEdge := none }) BEAT_CTL 0 1 = 1 := by
      rw [regF_updBeat]; omega
    rw [if_neg src, if_neg src, sourceExternal, acquire_of_external hp]
    refine ⟨rfl, rfl, ?_⟩
    rw [regF_updBeat, regF_setReg_of_lt _ _ (by decide) (by decide)]

end

theorem beatRegisterWrites : Claims.BeatRegisterWrites := by
  intro s w k src lock low
  have hlow : low = true ↔ w.part ≠ .high := by simp [low]
  have hhigh : low = false ↔ w.part = .high := by simp [low]
  have hk : field w.value 0 9 = k := by simp [field, fieldN, k]
  have hk9 : k < 2 ^ 9 := Nat.mod_lt _ (by decide)
  refine ⟨fun takes part unlocked least most => ?_, fun takes h => ?_, fun takes h => ?_,
    fun takes part unlocked => ?_, fun takes => ?_⟩
  · obtain ⟨h1, h2, h3⟩ := periodSet_effect s.dev k hk9
    refine ⟨_, act_of_effect (f := fun d => writePeriod d w)
      (writePeriod_accepted takes (hlow.mp part) unlocked hk least most), (beatOnly_periodSet s.dev k).withDev, ?_⟩
    simp only [dev_withDev]
    exact ⟨fun y hy hs => reg_periodSet s.dev k hy hs, h1, h2, h3, periodSet_changes s.dev k, lock_periodSet s.dev k⟩
  · refine act_of_eq (f := fun d => writePeriod d w) (writePeriod_ignored takes ?_)
    rw [hk]
    exact h.imp hhigh.mp id
  · exact act_of_eq (f := fun d => writePhase d w) (writePhase_ignored takes (h.imp hhigh.mp id))
  · have hne : BEAT_PHASE ≠ BEAT_STAT := by decide
    refine ⟨_, act_of_effect (f := fun d => writePhase d w) (writePhase_accepted takes (hlow.mp part) unlocked),
      (((BeatOnly.refl _).plainWrite ..).acquire).withDev, ?_⟩
    simp only [dev_withDev]
    refine ⟨fun y hy hs => ?_, ?_, ?_⟩
    · rw [reg_acquire _ hs, reg_plainWrite_of_ne _ _ blkOf_BEAT_PHASE hy]
    · rw [regF_acquire _ hne, offset_plainWrite (hlow.mp part) unlocked]; simp [field, fieldN]
    · rw [lock_acquire, regF_plainWrite_of_ne _ _ blkOf_BEAT_PHASE (by decide),
        regF_plainWrite_of_ne _ _ blkOf_BEAT_PHASE (by decide)]
  · refine ⟨s.withDev (writeBeatCtl s.dev w), rfl, (beatOnly_writeBeatCtl takes).withDev, ?_⟩
    simp only [dev_withDev, regF_writeBeatCtl takes]
    refine ⟨fun y hy hs => ?_, src_plainWrite s.dev w, ?_, ?_, lock_plainWrite s.dev w, fun h => ?_, fun h => ?_⟩
    · rw [reg_writeBeatCtl takes hs, reg_plainWrite_of_ne _ _ blkOf_BEAT_CTL hy]
    · exact regF_plainWrite_ctl s.dev w (f := ⟨1, 1, 0, .rw, 0, 1, false⟩) (by decide) rfl rfl (by decide) rfl rfl
    · exact regF_plainWrite_ctl s.dev w (f := ⟨2, 4, 0, .rw, 0, 15, false⟩) (by decide) rfl rfl (by decide) rfl rfl
    · exact writeBeatCtl_same takes ((regF_writeBeatCtl takes 0 1).trans h)
    · exact writeBeatCtl_changed takes fun e => h ((regF_writeBeatCtl takes 0 1).symm.trans e)

/-! ### Edges of BEAT_IN -/

/-- The device when an edge or the want of one is seen at engine cycle `tm`. -/
def atCycle (d : Device) (tm : Nat) : Device := { d with cycle := max d.cycle tm }

theorem atCycle_regs (d : Device) (tm : Nat) : (atCycle d tm).regs = d.regs := rfl

theorem atCycle_beat (d : Device) (tm : Nat) : (atCycle d tm).beat = d.beat := rfl

theorem reg_atCycle (d : Device) (tm x : Nat) : reg (atCycle d tm) x = reg d x := by rw [reg, reg, atCycle_regs]

theorem regF_atCycle (d : Device) (tm x lo len : Nat) : regF (atCycle d tm) x lo len = regF d x lo len := by
  rw [regF_eq, reg_atCycle, regF_eq]

theorem activeP_atCycle (d : Device) (tm : Nat) : activeP (atCycle d tm) = activeP d := by
  rw [activeP, regF_atCycle, activeP]

/-- The device that has counted an accepted edge with phase error `v`, its generator changed by `f`. -/
def edgeCounted (d : Device) (v : Nat) (f : BeatGen → BeatGen) : Device :=
  updBeat (setReg (incReg d BEAT_IN_CNT 0 32 1) BEAT_PHASE 16 16 v) f

section
variable (d : Device) (v : Nat) (f : BeatGen → BeatGen)

theorem beatOnly_edgeCounted : BeatOnly d (edgeCounted d v f) := by
  rw [edgeCounted, incReg_eq]
  exact (((BeatOnly.refl d).setReg ..).setReg ..).updBeat f

theorem reg_edgeCounted {y : Nat} (hc : y ≠ BEAT_IN_CNT) (hp : y ≠ BEAT_PHASE) :
    reg (edgeCounted d v f) y = reg d y := by
  rw [edgeCounted, reg_updBeat, reg_setReg, if_neg hp, incReg_eq, reg_setReg, if_neg hc]

theorem count_edgeCounted :
    regF (edgeCounted d v f) BEAT_IN_CNT 0 32 = (regF d BEAT_IN_CNT 0 32 + 1) % 2 ^ 32 := by
  rw [edgeCounted, regF_updBeat, regF_setReg_of_ne _ _ _ _ _ _ (by decide), incReg_eq,
    regF_setReg_of_lt _ _ (by decide) (Nat.mod_lt _ (by decide))]

end

/-- The phase error of an edge. -/
def edgeError (d : Device) (tm : Nat) : Int :=
  phaseError (Int.ofNat tm + sfield (regF d BEAT_PHASE 0 16) 16 - Int.ofNat d.beat.lastTick) d.beat.length (activeP d)

/-- How many good edges have come in a row with this one. -/
def edgeGood (d : Device) (tm : Nat) : Nat := if decide ((edgeError d tm).natAbs ≤ 2) then d.beat.good + 1 else 0

/-- The device that has counted an accepted edge, before the lock state follows. -/
def edgeTaken (d : Device) (tm : Nat) : Device :=
  edgeCounted d (twos (max (-32767) (min 32767 (edgeError d tm))) 16) fun b => { b with
    lastEdge := some tm, toCorrect := -edgeError d tm, good := edgeGood d tm }

theorem acceptEdge_eq (d : Device) (tm : Nat) : acceptEdge d tm =
    if lockState d = 3 then setReg (edgeTaken d tm) BEAT_STAT 0 2 1
    else if lockState d = 2 then
      (if 8 < (edgeError d tm).natAbs then
        updBeat (setReg (edgeTaken d tm) BEAT_STAT 0 2 1) fun b => { b with good := 0 }
      else edgeTaken d tm)
    else if 4 ≤ edgeGood d tm then setReg (setReg (edgeTaken d tm) BEAT_STAT 0 2 2) BEAT_STAT 3 1 1
    else edgeTaken d tm := by
  have hst : ∀ v, lockState (setReg (incReg d BEAT_IN_CNT 0 32 1) BEAT_PHASE 16 16 v) = lockState d := fun v => by
    rw [lockState, regF_setReg_of_ne _ _ _ _ _ _ (by decide), incReg_eq, regF_setReg_of_ne _ _ _ _ _ _ (by decide),
      lockState]
  unfold acceptEdge
  simp only [hst]
  rfl

/-- The ways in which the lock state follows an accepted edge. -/
theorem acceptEdge_cases (d : Device) (tm : Nat) :
    lockState d = 3 ∧ acceptEdge d tm = setReg (edgeTaken d tm) BEAT_STAT 0 2 1 ∨
    lockState d ≠ 3 ∧ (acceptEdge d tm = edgeTaken d tm ∨
      acceptEdge d tm = updBeat (setReg (edgeTaken d tm) BEAT_STAT 0 2 1) (fun b => { b with good := 0 }) ∨
      acceptEdge d tm = setReg (setReg (edgeTaken d tm) BEAT_STAT 0 2 2) BEAT_STAT 3 1 1) := by
  rw [acceptEdge_eq]
  split
  · exact .inl ⟨‹_›, rfl⟩
  · refine .inr ⟨‹_›, ?_⟩
    split
    · split
      · exact .inr (.inl rfl)
      · exact .inl rfl
    · split
      · exact .inr (.inr rfl)
      · exact .inl rfl

/-- What an accepted edge leaves (R46). -/
theorem acceptEdge_effect (d : Device) (tm : Nat) :
    BeatOnly d (acceptEdge d tm) ∧ (acceptEdge d tm).beat.lastEdge = some tm ∧
    (∀ y, y ∉ [BEAT_IN_CNT, BEAT_PHASE, BEAT_STAT] → reg (acceptEdge d tm) y = reg d y) ∧
    regF (acceptEdge d tm) BEAT_IN_CNT 0 32 = (regF d BEAT_IN_CNT 0 32 + 1) % 2 ^ 32 ∧
    (lockState d = 3 → regF (acceptEdge d tm) BEAT_STAT 0 2 = 1) := by
  have frame : BeatOnly d (edgeTaken d tm) := beatOnly_edgeCounted ..
  have hlast : (edgeTaken d tm).beat.lastEdge = some tm := rfl
  have hcount : regF (edgeTaken d tm) BEAT_IN_CNT 0 32 = _ := count_edgeCounted ..
  have hs : BEAT_IN_CNT ≠ BEAT_STAT := by decide
  have hreg : ∀ y, y ∉ [BEAT_IN_CNT, BEAT_PHASE, BEAT_STAT] → y ≠ BEAT_STAT ∧ reg (edgeTaken d tm) y = reg d y :=
    fun y hy => by
      simp only [List.mem_cons, List.not_mem_nil, or_false, not_or] at hy
      obtain ⟨hc, hp, hs⟩ := hy
      exact ⟨hs, reg_edgeCounted _ _ _ hc hp⟩
  rcases acceptEdge_cases d tm with ⟨free, h⟩ | ⟨locked, h | h | h⟩ <;> rw [h]
  · refine ⟨frame.setReg .., hlast, fun y hy => ?_, ?_, fun _ => ?_⟩
    · rw [reg_setReg, if_neg (hreg y hy).1, (hreg y hy).2]
    · rw [regF_setReg_of_ne _ _ _ _ _ _ hs, hcount]
    · rw [regF_setReg_of_lt _ _ (by decide) (by decide)]
  · exact ⟨frame, hlast, fun y hy => (hreg y hy).2, hcount, fun free => absurd free locked⟩
  · refine ⟨(frame.setReg ..).updBeat _, hlast, fun y hy => ?_, ?_, fun free => absurd free locked⟩
    · rw [reg_updBeat, reg_setReg, if_neg (hreg y hy).1, (hreg y hy).2]
    · rw [regF_updBeat, regF_setReg_of_ne _ _ _ _ _ _ hs, hcount]
  · refine ⟨(frame.setReg ..).setReg .., hlast, fun y hy => ?_, ?_, fun free => absurd free locked⟩
    · rw [reg_setReg, if_neg (hreg y hy).1, reg_setReg, if_neg (hreg y hy).1, (hreg y hy).2]
    · rw [regF_setReg_of_ne _ _ _ _ _ _ hs, regF_setReg_of_ne _ _ _ _ _ _ hs, hcount]

section
variable {s : State} {tm : Nat} (run : s.dev.phase = .run)
include run

/-- With an internal source an edge has no effect. -/
theorem exec_beatInEdge_internal (src : regF s.dev BEAT_CTL 0 1 = 0) :
    exec (.beatInEdge tm) s = .next (s.withDev (atCycle s.dev tm)) := by
  refine (act_whenRun _ run).trans ?_
  rw [← atCycle]
  dsimp only
  rw [regF_atCycle, if_pos src]

theorem exec_beatInEdge_early {t0 : Nat} (src : regF s.dev BEAT_CTL 0 1 = 1) (last : s.dev.beat.lastEdge = some t0)
    (early : 2 * (tm - t0) < activeP s.dev) :
    exec (.beatInEdge tm) s = .next (s.withDev (incReg (atCycle s.dev tm) BEAT_IN_CNT 32 32 1)) := by
  refine (act_whenRun _ run).trans ?_
  rw [← atCycle]
  dsimp only
  rw [regF_atCycle, if_neg (by omega), atCycle_beat, last]
  dsimp only
  rw [activeP_atCycle, if_pos early]

theorem exec_beatInEdge_accepted (src : regF s.dev BEAT_CTL 0 1 = 1)
    (late : ∀ t0, s.dev.beat.lastEdge = some t0 → activeP s.dev ≤ 2 * (tm - t0)) :
    exec (.beatInEdge tm) s = .next (s.withDev (acceptEdge (atCycle s.dev tm) tm)) := by
  refine (act_whenRun _ run).trans ?_
  rw [← atCycle]
  dsimp only
  rw [regF_atCycle, if_neg (by omega), atCycle_beat]
  cases last : s.dev.beat.lastEdge with
  | none => rfl
  | some t0 =>
    dsimp only
    rw [activeP_atCycle, if_neg (Nat.not_lt.mpr (late t0 last))]

theorem exec_beatInFreerun_enters (src : regF s.dev BEAT_CTL 0 1 = 1)
    (due : ∀ t0, s.dev.beat.lastEdge = some t0 → t0 + 8 * activeP s.dev ≤ tm) (locked : lockState s.dev ≠ 3) :
    exec (.beatInFreerun tm) s = .next (s.withDev (enterFreerun (atCycle s.dev tm) tm)) := by
  refine (act_whenRun _ run).trans ?_
  rw [← atCycle]
  dsimp only
  rw [if_pos]
  rw [regF_atCycle, atCycle_beat, activeP_atCycle, lockState, regF_atCycle, ← lockState, src]
  cases last : s.dev.beat.lastEdge with
  | none => simpa using locked
  | some t0 => simpa using ⟨due t0 last, locked⟩

/-- FREERUN does not begin with an internal source, a second time, or before eight periods. -/
theorem exec_beatInFreerun_none (h : regF s.dev BEAT_CTL 0 1 = 0 ∨ lockState s.dev = 3 ∨
      ∃ t0, s.dev.beat.lastEdge = some t0 ∧ tm < t0 + 8 * activeP s.dev) :
    exec (.beatInFreerun tm) s = .next (s.withDev (atCycle s.dev tm)) := by
  refine (act_whenRun _ run).trans ?_
  rw [← atCycle]
  dsimp only
  rw [if_neg]
  rw [regF_atCycle, atCycle_beat, activeP_atCycle, lockState, regF_atCycle, ← lockState]
  rcases h with h | h | ⟨t0, last, early⟩
  · simp [h]
  · simp [h]
  · simp [last, Nat.not_le.mpr early]

end

/-- What the begin of FREERUN leaves (R46). -/
theorem enterFreerun_effect (d : Device) (tm : Nat) :
    BeatOnly d (enterFreerun d tm) ∧ (∀ y, y ≠ BEAT_STAT → reg (enterFreerun d tm) y = reg d y) ∧
    regF (enterFreerun d tm) BEAT_STAT 0 2 = 3 ∧ regF (enterFreerun d tm) BEAT_STAT 2 1 = 1 ∧
    (enterFreerun d tm).beat.toCorrect = 0 ∧
    (enterFreerun d tm).beat.length = max (activeP d) (tm - d.beat.lastTick) := by
  refine ⟨(((BeatOnly.refl d).setReg ..).setReg ..).updBeat _, fun y h => ?_, ?_, ?_, rfl, rfl⟩
  · rw [enterFreerun, reg_updBeat, reg_setReg, if_neg h, reg_setReg, if_neg h]
  · rw [enterFreerun, regF_updBeat, regF_setReg_apart _ _ _ (by decide),
      regF_setReg_of_lt _ _ (by decide) (by decide)]
  · rw [enterFreerun, regF_updBeat, regF_setReg_of_lt _ _ (by decide) (by decide)]

theorem externalLock : Claims.ExternalLock := by
  intro s tm run p d
  have hd : d = atCycle s.dev tm := rfl
  have hp : p = activeP s.dev := rfl
  clear_value d p
  subst hd hp
  refine ⟨fun src => ⟨exec_beatInEdge_internal run src, exec_beatInFreerun_none run (.inl src)⟩,
    fun t0 src last early => ?_, fun src late => ?_, fun src due locked => ?_,
    fun h => exec_beatInFreerun_none run (.inr h)⟩
  · refine ⟨_, exec_beatInEdge_early run src last early, ?_⟩
    rw [incReg_eq, regF_atCycle]
    refine ⟨onlyRegs_setReg .., ?_, ?_⟩ <;> rw [dev_withDev]
    · rw [regF_setReg_of_lt _ _ (by decide) (Nat.mod_lt _ (by decide))]
    · rw [regF_setReg_apart _ _ _ (by decide), regF_atCycle]
  · obtain ⟨frame, hlast, hreg, hcount, hlock⟩ := acceptEdge_effect (atCycle s.dev tm) tm
    refine ⟨_, exec_beatInEdge_accepted run src late, frame.withDev, ?_⟩
    simp only [dev_withDev, ← regF_atCycle s.dev tm, ← reg_atCycle s.dev tm]
    exact ⟨hlast, hreg, hcount, hlock⟩
  · obtain ⟨frame, hreg, hfree, hloss, hcorrect, hlength⟩ := enterFreerun_effect (atCycle s.dev tm) tm
    refine ⟨_, exec_beatInFreerun_enters run src due locked, frame.withDev, ?_⟩
    simp only [dev_withDev, ← reg_atCycle s.dev tm, ← activeP_atCycle s.dev tm]
    exact ⟨hreg, hfree, hloss, hcorrect, hlength⟩

/-- Settles O26: each write and each edge is one equation of the generator, and the lock state is read off it. -/
theorem beatRegistersAndLock : Obligations.BeatRegistersAndLock := ⟨beatRegisterWrites, externalLock⟩

end Sys2Proof.Machine
end

section
/-! PROOF. Accesses of the control window by the cores, the Warden and the BMC, and writes of any register (R4, R7, R10,
R354, R358, R535, R540 to R545). -/

namespace Sys2Proof.Machine

open Sys2Proof

/-! ### What does not look at the flag of a waiting read -/

theorem setWaits_setWaits (d : Device) (a b : Bool) : setWaits (setWaits d a) b = setWaits d b := rfl

theorem setWaits_self (d : Device) : setWaits d d.waits = d := rfl

theorem squareDead_setWaits (d : Device) (b : Bool) (t : Nat) : squareDead (setWaits d b) t = squareDead d t := by
  rw [squareDead, regF_setWaits, squareDead]; rfl

theorem portExists_setWaits (d : Device) (b : Bool) (rp : Nat) : portExists (setWaits d b) rp = portExists d rp := by
  rw [portExists, regF_setWaits, portExists]

theorem deadBlk_setWaits (d : Device) (b : Bool) (k : Blk) (i : Nat) :
    deadBlk (setWaits d b) k i = deadBlk d k i := by
  cases k <;> simp only [deadBlk, squareDead_setWaits, portExists_setWaits]

theorem takesWrite_setWaits {d : Device} {x : Nat} {ag : Agent} (b : Bool) (h : d.TakesWrite x ag) :
    (setWaits d b).TakesWrite x ag := by
  obtain ⟨hr, k, i, off, hk, dead, acc⟩ := h
  exact ⟨hr, k, i, off, hk, (deadBlk_setWaits d b k i).trans dead, acc⟩

/-- A command whose reads were all served, in whatever phase. -/
theorem act_served {f : Device → Device} {s : State} {e : Device} (h : f (setWaits s.dev false) = e)
    (w : e.waits = false) : act (served f) s = .next (s.withDev (setWaits e s.dev.waits)) := by
  rw [act_eq, served_eq h w]; rfl

/-! ### Reads -/

theorem refuse_waits (d : Device) (b : Blk) (i : Nat) (wr : Bool) : (refuse d b i wr).waits = d.waits := by
  cases wr
  · rfl
  · cases b <;> rfl

theorem csStep_waits (d : Device) (e : Eng) : (csStep d e).waits = d.waits := by
  unfold csStep; split <;> rfl

theorem gateRead_waits (d : Device) (x : Nat) (ag : Agent) (early : Dword) {f : Device → Dword × Device}
    (h : (f d).2.waits = d.waits) : (gateRead d x ag early f).2.waits = d.waits := by
  unfold gateRead
  split
  · rfl
  · split
    · exact raiseEvent_waits ..
    · split
      · rfl
      · split
        · exact h
        · exact refuse_waits ..

/-- A read of the window waits for nothing. -/
theorem windowRead_waits (d : Device) (x : Nat) (ag : Agent) : (windowRead d x ag).2.waits = d.waits := by
  unfold windowRead
  split
  · refine gateRead_waits _ _ _ _ ?_
    dsimp only
    split
    · exact csStep_waits ..
    · rfl
  · exact gateRead_waits _ _ _ _ rfl
  · rfl

section
variable {d : Device} {x : Nat} {ag : Agent} {b : Blk} {i off : Nat} (block : blkOf x = some (b, i, off))
include block

theorem windowRead_of_not_eng (h : b ≠ .eng) :
    windowRead d x ag = gateRead d x ag (earlyView d x) fun d => (regView d x, d) := by
  unfold windowRead
  split
  · rename_i j hj
    rw [block] at hj
    cases hj
    exact absurd rfl h
  · rfl
  · rename_i hj
    rw [block] at hj
    cases hj

theorem gateRead_dead (early : Dword) (f : Device → Dword × Device) (dead : deadBlk d b i = true) :
    gateRead d x ag early f = (BitVec.allOnes 64, deadAccess d b i x) := by
  unfold gateRead; rw [block]; exact if_pos dead

theorem gateRead_refused (early : Dword) (f : Device → Dword × Device) (dead : deadBlk d b i = false)
    (hr : ready d = true) (h : accepts b off ag false = false) : gateRead d x ag early f = (0, refuse d b i false) := by
  simp [gateRead, block, dead, hr, h]

end

theorem gateRead_takes {d : Device} {x : Nat} {ag : Agent} (early : Dword) (f : Device → Dword × Device)
    (h : d.TakesRead x ag) : gateRead d x ag early f = f d := by
  obtain ⟨hr, b, i, off, block, dead, acc⟩ := h
  have hready : ready d = true := by rcases hr with hr | hr <;> simp [ready, hr]
  simp [gateRead, block, dead, hready, acc]

/-! ### Loads and stores of the cores -/

theorem updHart_updHart (d : Device) (h : Hart) (f g : HartState → HartState) :
    updHart (updHart d h f) h g = updHart d h fun x => g (f x) := by
  simp [updHart]

theorem sizeOk_iff (x n : Nat) :
    sizeOk x n = true ↔ x % n = 0 ∧ if isConfig x then n ∈ [1, 2, 4] else n ∈ [4, 8] := by
  unfold sizeOk
  cases isConfig x <;>
    simp only [Bool.and_eq_true, Bool.or_eq_true, beq_iff_eq, List.mem_cons, List.not_mem_nil, or_false, or_assoc,
      Bool.false_eq_true, if_true, if_false]

/-- The accesses that no register takes: outside every region, or of another size or alignment. -/
theorem window_bad_iff (x n : Nat) : (noRegion x || !sizeOk x n) = true ↔
    noRegion x = true ∨ ¬ (x % n = 0 ∧ if isConfig x then n ∈ [1, 2, 4] else n ∈ [4, 8]) := by
  rw [Bool.or_eq_true, Bool.not_eq_true', ← Bool.not_eq_true, sizeOk_iff]

section
variable {s : State} {h : Hart} (runs : HartRuns s h)
include runs

theorem coreRun_of_runs {f : Device → Device} {e : Device} (he : f (setWaits s.dev false) = e) (w : e.waits = false) :
    coreRun h f s = .next (s.withDev (setWaits e s.dev.waits)) := by
  obtain ⟨run, held, idle⟩ := runs
  have hawake : awake (setWaits s.dev false) h = true := by
    show (!s.dev.harts[h].held && s.dev.harts[h].idle == .running) = true
    rw [held, idle]; rfl
  exact act_whenServed run (by rw [← he]; exact if_pos hawake) w

theorem coreRun_trap {f : Device → Device} (cause tval : Nat)
    (he : ∀ d, f d = coreTrap d h cause tval) : coreRun h f s = .next (s.withDev (coreTrap s.dev h cause tval)) :=
  coreRun_of_runs runs (he _) rfl

variable {ag : Agent} (hart : hartAgent ag = true) {x n : Nat}
include hart

theorem exec_load_trap (bad : (noRegion x || !sizeOk x n) = true) : exec (.controlWindowLoad h ag x n) s =
    .next (s.withDev (coreTrap s.dev h 5 (0xf000000000000 + x))) := by
  refine (if_pos hart).trans (coreRun_trap runs 5 _ fun d => ?_)
  exact if_pos bad

theorem exec_store_trap (w : Dword) (bad : (noRegion x || !sizeOk x n) = true) :
    exec (.controlWindowStore h ag x n w) s = .next (s.withDev (coreTrap s.dev h 7 (0xf000000000000 + x))) := by
  refine (if_pos hart).trans (coreRun_trap runs 7 _ fun d => ?_)
  exact if_pos bad

theorem exec_load (good : ¬ (noRegion x || !sizeOk x n) = true) :
    let r := windowRead (setWaits s.dev false) (x / 8 * 8) ag
    exec (.controlWindowLoad h ag x n) s = .next (s.withDev (setWaits (updHart r.2 h fun y => { y with
      loaded := BitVec.ofNat 64 (bytesAt r.1 (x % 8) n), instret := y.instret + 1 }) s.dev.waits)) := by
  intro r
  refine (if_pos hart).trans (coreRun_of_runs runs ((if_neg good).trans ?_) ?_)
  · rw [retire, setLoaded, updHart_updHart]
  · exact windowRead_waits ..

theorem exec_store (w : Dword) (good : ¬ (noRegion x || !sizeOk x n) = true) {e : Device}
    (put : windowPut (setWaits s.dev false) ag x n w = e) (served : e.waits = false) :
    exec (.controlWindowStore h ag x n w) s =
      .next (s.withDev (setWaits (updHart e h fun y => { y with instret := y.instret + 1 }) s.dev.waits)) := by
  refine (if_pos hart).trans (coreRun_of_runs runs ((if_neg good).trans ?_) ?_)
  · rw [put]; rfl
  · exact served

end

theorem coreWindowAccesses : Claims.CoreWindowAccesses := by
  intro s h ag x n bad now r v
  have hbad : (noRegion x || !sizeOk x n) = true ↔ bad := window_bad_iff x n
  have noHart : ag = .warden ∨ ag = .bmc → ¬ hartAgent ag = true := by rintro (rfl | rfl) <;> decide
  refine ⟨fun runs agent => ?_, fun w e agent put served => ?_, fun w d plain => ?_, fun agent => ?_,
    fun b i off block _ same eng => ?_⟩
  · have hart : hartAgent ag = true := by rcases agent with rfl | ⟨g, rfl⟩ <;> rfl
    exact ⟨fun hb => exec_load_trap runs hart (hbad.mpr hb), fun hb => exec_load runs hart (mt hbad.mp hb),
      fun w => ⟨fun hb => exec_store_trap runs hart w (hbad.mpr hb),
        fun e hb put served => exec_store runs hart w (mt hbad.mp hb) put served⟩⟩
  · exact (if_neg (noHart agent)).trans (act_served put served)
  · rw [windowPut, plain]; rfl
  · exact if_neg (noHart agent)
  · have hr : r s.dev = gateRead s.dev x ag (earlyView s.dev x) fun d => (regView d x, d) := by
      show windowRead s.dev (x / 8 * 8) ag = _
      rw [same, windowRead_of_not_eng block eng]
    refine ⟨fun dead => ?_, fun dead hready refused => ?_, fun takes => ?_⟩
    · rw [hr, gateRead_dead block _ _ dead]
    · rw [hr, gateRead_refused block _ _ dead hready refused]
    · rw [hr, gateRead_takes _ _ takes]

/-! ### Writes of any register -/

theorem gateWrite_dead {d : Device} {x : Nat} {b : Blk} {i off : Nat} (w : RegAccess) (f : Device → Device)
    (block : blkOf x = some (b, i, off)) (dead : deadBlk d b i = true) : gateWrite d x w f = deadAccess d b i x := by
  simp [gateWrite, block, dead]

theorem gateWrite_refused {d : Device} {x : Nat} {b : Blk} {i off : Nat} {w : RegAccess} (f : Device → Device)
    (block : blkOf x = some (b, i, off)) (dead : deadBlk d b i = false) (hr : ready d = true)
    (h : accepts b off w.agent true = false) : gateWrite d x w f = refuse d b i true := by
  simp [gateWrite, block, dead, hr, h]

/-- The blocks whose writes have no other effect than on fields. -/
theorem windowWrite_plain {x : Nat} {b : Blk} {i off : Nat} (block : blkOf x = some (b, i, off))
    (plain : b ∈ [.id, .tile, .mez, .gal, .msh, .drc, .sieve, .sch, .rle]) (d : Device) (w : RegAccess) :
    windowWrite d x w = gatedPlain d x w := by
  simp only [List.mem_cons, List.not_mem_nil, or_false] at plain
  rcases plain with rfl | rfl | rfl | rfl | rfl | rfl | rfl | rfl | rfl
  all_goals
    rw [windowWrite, block]
    exact ite_self _

theorem exec_registerWrite {s : State} {x : Nat} {w : RegAccess} {e : Device}
    (h : windowWrite (setWaits s.dev false) (x / 8 * 8) w = e) (served : e.waits = false) :
    exec (.registerWrite x w) s = .next (s.withDev (setWaits e s.dev.waits)) :=
  act_served h served

/-- A write of a register that only changes fields, when it is performed. -/
theorem exec_registerWrite_plain {s : State} {x : Nat} {w : RegAccess} (takes : s.dev.TakesWrite x w.agent)
    (plain : ∀ d, windowWrite d (x / 8 * 8) w = gatedPlain d x w) :
    exec (.registerWrite x w) s = .next (s.withDev (plainWrite s.dev x w)) :=
  exec_registerWrite ((plain _).trans (gateWrite_takes _ (takesWrite_setWaits false takes))) rfl

theorem onlyRegs_plainWrite (s : State) {x : Nat} {b : Blk} {i off : Nat} (w : RegAccess)
    (block : blkOf x = some (b, i, off)) : s.onlyRegs (s.withDev (plainWrite s.dev x w)) [x] := by
  refine ⟨rfl, fun y hy => ?_⟩
  rw [dev_withDev, reg_plainWrite_of_ne _ _ block (mt List.mem_singleton.mpr hy)]

theorem writeFields_ro (locked : Bool) (w : RegAccess) (v : Dword) (l : List FieldDesc) (h : ∀ f ∈ l, f.acc = .ro) :
    writeFields locked w v l = v := by
  induction l generalizing v with
  | nil => rfl
  | cons f t ih =>
    rw [writeFields, writeField_ro (h f (List.mem_cons_self ..)), ih _ fun g hg => h g (List.mem_cons_of_mem _ hg)]

/-- A register all of whose fields are RO keeps its value. -/
theorem reg_plainWrite_ro {d : Device} {x : Nat} {b : Blk} {i off : Nat} (w : RegAccess)
    (block : blkOf x = some (b, i, off)) (ro : ∀ f ∈ fieldsOf b off, f.acc = .ro) :
    reg (plainWrite d x w) x = reg d x := by
  rw [reg_plainWrite_self d w block, writeFields_ro _ _ _ _ ro]

/-! ### Registers whose writes only change fields -/

theorem blkOf_PGR_PART_SEL : blkOf PGR_PART_SEL = some (.pgr, 0, 0x60) := rfl

theorem windowWrite_PGR_PART_SEL (d : Device) (w : RegAccess) :
    windowWrite d PGR_PART_SEL w = gatedPlain d PGR_PART_SEL w := by
  rw [windowWrite, blkOf_PGR_PART_SEL]; rfl

/-- Registers of which software can write no field, in blocks that have other writes. -/
theorem readOnly_registers : ∀ x ∈ [BEAT_COUNT, HUP_ENERGY, PWR_HALL, LDG_STAT], x / 8 * 8 = x ∧
    ∃ b i off, blkOf x = some (b, i, off) ∧ (∀ f ∈ fieldsOf b off, f.acc = .ro) ∧
      ∀ d w, windowWrite d x w = gatedPlain d x w := by
  have hbeat : blkOf BEAT_COUNT = some (.beat, 0, 0x50) := rfl
  have hhup : blkOf HUP_ENERGY = some (.hup, 0, 0x70) := rfl
  have hpwr : blkOf PWR_HALL = some (.pwr, 0, 0x50) := rfl
  have hldg : blkOf LDG_STAT = some (.ldg, 0, 0x48) := rfl
  intro x hx
  simp only [List.mem_cons, List.not_mem_nil, or_false] at hx
  rcases hx with rfl | rfl | rfl | rfl
  · exact ⟨by decide, _, _, _, hbeat, by decide, fun d w => by rw [windowWrite, hbeat]; rfl⟩
  · exact ⟨by decide, _, _, _, hhup, by decide, fun d w => by rw [windowWrite, hhup]; rfl⟩
  · exact ⟨by decide, _, _, _, hpwr, by decide, fun d w => by rw [windowWrite, hpwr]; rfl⟩
  · exact ⟨by decide, _, _, _, hldg, by decide, fun d w => by rw [windowWrite, hldg]; rfl⟩

theorem blkOf_DRC_ERR : ∀ c : Chan, blkOf (DRC_ERR c.val) = some (.drc, c.val, 0x68) := by decide

theorem aligned_DRC_ERR (c : Chan) : DRC_ERR c.val / 8 * 8 = DRC_ERR c.val := by
  simp only [DRC_ERR, regAt, blkInfo]; omega

/-- A bit of DRC_ERR is cleared by writing a 1. -/
theorem bit_plainWrite_DRC_ERR (d : Device) (c : Chan) {w : RegAccess} (part : w.part ≠ .high) {k : Nat} (hk : k < 5) :
    regF (plainWrite d (DRC_ERR c.val) w) (DRC_ERR c.val) k 1 =
      if w.value.getLsbD k then 0 else regF d (DRC_ERR c.val) k 1 := by
  have mem : ∀ k < 5, (⟨k, 1, 0, .rw1c, 0, 1, false⟩ : FieldDesc) ∈ fieldsOf .drc 0x68 := by decide
  obtain ⟨u, hu, he⟩ := regF_plainWrite_mem d w (blkOf_DRC_ERR c) (mem k hk) (by decide)
  have hbit : field w.value k 1 = 1 ↔ w.value.getLsbD k = true := by
    rw [field, fieldN, BitVec.getLsbD, Nat.testBit_eq_decide_div_mod_eq, decide_eq_true_iff, Nat.pow_one]
  have hreach : reaches w.part ⟨k, 1, 0, .rw1c, 0, 1, false⟩ = true := reaches_low part (by simp only; omega)
  have hplaced : field (placed w) k 1 = field w.value k 1 := field_placed_low part (by omega)
  rw [he, field_writeField_rw1c rfl (by simp only; omega) rfl, hu]
  simp only [hreach, hplaced, hbit, true_and]

theorem partSel_plainWrite (d : Device) {w : RegAccess} (part : w.part ≠ .high) :
    regF (plainWrite d PGR_PART_SEL w) PGR_PART_SEL 0 6 = w.value.toNat % 64 := by
  obtain ⟨u, hu, he⟩ := regF_plainWrite_mem d w blkOf_PGR_PART_SEL (f := ⟨0, 6, 0, .rw, 0, 63, false⟩) (by decide)
    (by decide)
  rw [he, field_writeField_rw rfl rfl (by decide) rfl rfl, if_pos (reaches_low part (by decide)),
    field_placed_low part (by decide)]
  simp [field, fieldN]

/-! ### Writes that are not performed -/

section
variable {s : State} {x : Nat} {w : RegAccess} {b : Blk} {i off : Nat}
  (aligned : x / 8 * 8 = x) (block : blkOf x = some (b, i, off)) (kind : b = .gal ∨ b = .drc)
include aligned block kind

theorem windowWrite_gal_drc (d : Device) : windowWrite d (x / 8 * 8) w = gatedPlain d x w := by
  rw [aligned]
  exact windowWrite_plain block (by rcases kind with rfl | rfl <;> decide) d w

/-- A dead block discards a write and records it. -/
theorem exec_registerWrite_dead (dead : deadBlk s.dev b i = true) :
    exec (.registerWrite x w) s = .next (s.withDev (raiseEvent s.dev 0x18 i x 0 none)) := by
  have hsquare : deadSquare b i = i := by rcases kind with rfl | rfl <;> rfl
  have hdead : windowWrite (setWaits s.dev false) (x / 8 * 8) w =
      setWaits (raiseEvent s.dev 0x18 i x 0 none) false := by
    rw [windowWrite_gal_drc aligned block kind, gatedPlain,
      gateWrite_dead w _ block ((deadBlk_setWaits ..).trans dead), deadAccess, hsquare, raiseEvent_setWaits]
  rw [exec_registerWrite hdead rfl, setWaits_setWaits, ← raiseEvent_waits s.dev 0x18 i x 0 none, setWaits_self]

/-- An agent that the block does not accept is refused, and the refusal counted. -/
theorem exec_registerWrite_refused (dead : deadBlk s.dev b i = false) (hr : ready s.dev = true)
    (h : accepts b off w.agent true = false) : exec (.registerWrite x w) s =
      .next (s.withDev (incRegSat (setReg s.dev (HDR_ERR b i) 1 1 1) (HDR_ERR b i) 16 16)) := by
  have hrefuse : ∀ d, refuse d b i true = incRegSat (setReg d (HDR_ERR b i) 1 1 1) (HDR_ERR b i) 16 16 := fun d => by
    rcases kind with rfl | rfl <;> rfl
  have hready : ready (setWaits s.dev false) = true := hr
  have hw : windowWrite (setWaits s.dev false) (x / 8 * 8) w =
      setWaits (incRegSat (setReg s.dev (HDR_ERR b i) 1 1 1) (HDR_ERR b i) 16 16) false := by
    rw [windowWrite_gal_drc aligned block kind, gatedPlain,
      gateWrite_refused _ block ((deadBlk_setWaits ..).trans dead) hready h, hrefuse, setReg_setWaits,
      incRegSat_setWaits]
  exact exec_registerWrite hw rfl

end

theorem onlyRegs_refused (s : State) (x : Nat) :
    s.onlyRegs (s.withDev (incRegSat (setReg s.dev x 1 1 1) x 16 16)) [x] := by
  refine ⟨rfl, fun y hy => ?_⟩
  have hne : y ≠ x := mt List.mem_singleton.mpr hy
  rw [dev_withDev, incRegSat_eq, reg_setReg, if_neg hne, reg_setReg, if_neg hne]

theorem registerWrites : Claims.RegisterWrites := by
  intro s w d
  refine ⟨fun takes part => ?_, fun c takes part => ?_, fun x hx takes => ?_, fun x served => ?_,
    fun x b i off al block plain takes => ?_, fun x b i off al block kind => ⟨fun dead => ?_, fun dead hr h => ?_⟩,
    fun x outside => ?_⟩
  · refine ⟨_, exec_registerWrite_plain takes fun d => windowWrite_PGR_PART_SEL d w,
      onlyRegs_plainWrite s w blkOf_PGR_PART_SEL, ?_⟩
    rw [dev_withDev, partSel_plainWrite _ part]
  · have hplain : ∀ d, windowWrite d (DRC_ERR c.val / 8 * 8) w = gatedPlain d (DRC_ERR c.val) w := fun d => by
      rw [aligned_DRC_ERR, windowWrite_plain (blkOf_DRC_ERR c) (by decide)]
    refine ⟨_, exec_registerWrite_plain takes hplain, onlyRegs_plainWrite s w (blkOf_DRC_ERR c), fun k hk => ?_⟩
    rw [dev_withDev, bit_plainWrite_DRC_ERR _ c part hk]
  · obtain ⟨aligned, b, i, off, block, ro, hwrite⟩ := readOnly_registers x hx
    have hplain : ∀ d, windowWrite d (x / 8 * 8) w = gatedPlain d x w := fun d => by rw [aligned, hwrite]
    refine ⟨_, exec_registerWrite_plain takes hplain, onlyRegs_plainWrite s w block, ?_⟩
    rw [dev_withDev, reg_plainWrite_ro w block ro]
  · exact exec_registerWrite rfl served
  · have hplain : ∀ d, windowWrite d (x / 8 * 8) w = gatedPlain d x w := fun d => by
      rw [show x / 8 * 8 = x by omega, windowWrite_plain block plain]
    exact ⟨_, exec_registerWrite_plain takes hplain, onlyRegs_plainWrite s w block, rfl⟩
  · exact exec_registerWrite_dead (by omega) block kind dead
  · refine ⟨_, exec_registerWrite_refused (by omega) block kind dead hr h, onlyRegs_refused s _, ?_, ?_⟩ <;>
      rw [dev_withDev]
    · rw [regF_incRegSat_apart _ _ (.inl (by decide)), regF_setReg_of_lt _ _ (by decide) (by decide)]
    · rw [regF_incRegSat_self _ _ (by decide), regF_setReg_apart _ _ _ (by decide)]
  · have hnone : windowWrite (setWaits s.dev false) (x / 8 * 8) w = setWaits s.dev false := by rw [windowWrite, outside]
    rw [exec_registerWrite hnone rfl, setWaits_setWaits, setWaits_self]; rfl

/-- Settles O43: an access passes the checks of size and agent first; what remains of a write is its fields. -/
theorem controlWindowAccesses : Obligations.ControlWindowAccesses := ⟨coreWindowAccesses, registerWrites⟩

end Sys2Proof.Machine
end

section
/-! SUPPORT. What a write to memory by a unit leaves of the part: it reaches caches, channels, memory and the writes
that wait at their slices, and nothing else (R336, R339, R340, R393, R435). -/

namespace Sys2Proof.Machine

open Sys2Proof

/-! ### The parts of the device that hold memory -/

/-- `e` differs from `d` in caches, channels, memory, held writes and marks of injections only. -/
structure WritesMemory (d e : Device) : Prop where
  rest : e = { d with
    chans := e.chans, gal := e.gal, galFlips := e.galFlips, harts := e.harts, hup := e.hup, mem := e.mem,
    poison := e.poison, flips := e.flips, ras := { d.ras with marks := e.ras.marks } }

namespace WritesMemory

theorem refl (d : Device) : WritesMemory d d := ⟨rfl⟩

theorem trans {d e f : Device} (h : WritesMemory d e) (k : WritesMemory e f) : WritesMemory d f :=
  ⟨k.rest.trans (by rw [h.rest])⟩

theorem foldl {α : Type} {f : Device → α → Device} (h : ∀ d x, WritesMemory d (f d x)) (l : List α) (d : Device) :
    WritesMemory d (l.foldl f d) := by
  induction l generalizing d with
  | nil => exact refl d
  | cons x t ih => exact (h d x).trans (ih _)

theorem regs {d e : Device} (h : WritesMemory d e) : e.regs = d.regs := by rw [h.rest]

end WritesMemory

/-! ### Units that hold memory -/

theorem WritesMemory.of_eq {d e : Device} (chans gal galFlips harts hup mem poison flips marks)
    (h : e = { d with
      chans := chans, gal := gal, galFlips := galFlips, harts := harts, hup := hup, mem := mem, poison := poison,
      flips := flips, ras := { d.ras with marks := marks } }) : WritesMemory d e := by
  subst h; exact ⟨rfl⟩

theorem writesMemory_updGal (d : Device) (t : Tile) (f : Gallery → Gallery) : WritesMemory d (updGal d t f) :=
  .of_eq _ _ _ _ _ _ _ _ _ rfl

theorem writesMemory_updHart (d : Device) (h : Hart) (f : HartState → HartState) : WritesMemory d (updHart d h f) :=
  .of_eq _ _ _ _ _ _ _ _ _ rfl

theorem writesMemory_updChan (d : Device) (c : Chan) (f : Channel → Channel) : WritesMemory d (updChan d c f) :=
  .of_eq _ _ _ _ _ _ _ _ _ rfl

theorem writesMemory_loseReserve (d : Device) (a : Nat) (by_ : Option Hart) : WritesMemory d (loseReserve d a by_) :=
  .of_eq _ _ _ _ _ _ _ _ _ rfl

theorem writesMemory_hold (d : Device) (l : List HeldWrite) :
    WritesMemory d { d with hup := { d.hup with held := l } } := .of_eq _ _ _ _ _ _ _ _ _ rfl

theorem writesMemory_copies (d : Device) (harts : Vector HartState 128) (gal : Vector Gallery 64) :
    WritesMemory d { d with harts := harts, gal := gal } := .of_eq _ _ _ _ _ _ _ _ _ rfl

theorem writesMemory_galFlips (d : Device) (l : Sparse Nat) : WritesMemory d { d with galFlips := l } :=
  .of_eq _ _ _ _ _ _ _ _ _ rfl

theorem writesMemory_mediaWrite (d : Device) (w : WriteReq) : WritesMemory d (mediaWrite d w) :=
  .of_eq _ _ _ _ _ _ _ _ _ rfl

/-! ### Channels -/

theorem writesMemory_chanAccept (d : Device) (w : WriteReq) : WritesMemory d (chanAccept d w) := by
  unfold chanAccept
  split
  · exact writesMemory_updChan ..
  · split
    · exact writesMemory_mediaWrite ..
    · exact .refl d

/-- What `chanPut` does once the mirror partner of the line is known. -/
def chanPutTo (d : Device) (w : WriteReq) : Option Nat → Device
  | some b => chanAccept (chanAccept d w) { w with line := b }
  | none => chanAccept d w

theorem chanPut_eq (d : Device) (w : WriteReq) :
    chanPut d w = chanPutTo d w (if inDram d w.line then partnerOf d w.line else none) := rfl

theorem writesMemory_chanPut (d : Device) (w : WriteReq) : WritesMemory d (chanPut d w) := by
  rw [chanPut_eq]
  cases (if inDram d w.line then partnerOf d w.line else none) with
  | some b => exact (writesMemory_chanAccept d w).trans (writesMemory_chanAccept ..)
  | none => exact writesMemory_chanAccept d w

theorem writesMemory_setBitNow (d : Device) (a bit : Nat) : WritesMemory d (setBitNow d a bit) := by
  unfold setBitNow
  extract_lets l k e g inGal hold e'
  have he' : WritesMemory d e' := (writesMemory_loseReserve d l none).trans (writesMemory_copies e _ _)
  split
  · exact he'
  · exact he'.trans (writesMemory_chanPut ..)

theorem writesMemory_setMemBit (d : Device) (a bit : Nat) : WritesMemory d (setMemBit d a bit) := by
  unfold setMemBit
  extract_lets
  split
  · exact writesMemory_hold d _
  · exact writesMemory_setBitNow d a bit

theorem writesMemory_logGranule (d : Device) (a : Nat) : WritesMemory d (logGranule d a) := by
  unfold logGranule
  split
  · exact .refl d
  · split
    · exact .refl d
    · extract_lets
      split
      · exact writesMemory_setMemBit ..
      · exact .refl d

/-- What `chanWrite` does once the mirror partner of the line is known. -/
def chanWriteTo (d : Device) (w : WriteReq) : Option Nat → Device
  | some b => chanAccept (logGranule (chanAccept d w) b) { w with line := b }
  | none => chanAccept d w

theorem chanWrite_eq (d : Device) (a : Nat) (data : Line) (en : BitVec 64) (poison : Bool) (cls : Nat) :
    chanWrite d a data en poison cls = chanWriteTo d ⟨a, data, en, poison, cls, d.cycle⟩
      (if inDram d a then partnerOf d a else none) := rfl

theorem writesMemory_chanWrite (d : Device) (a : Nat) (data : Line) (en : BitVec 64) (poison : Bool) (cls : Nat) :
    WritesMemory d (chanWrite d a data en poison cls) := by
  rw [chanWrite_eq]
  cases (if inDram d a then partnerOf d a else none) with
  | some b => exact ((writesMemory_chanAccept ..).trans (writesMemory_logGranule ..)).trans (writesMemory_chanAccept ..)
  | none => exact writesMemory_chanAccept ..

/-! ### Slices -/

theorem writesMemory_flushVictims (d : Device) (a cls : Nat) : WritesMemory d (flushVictims d a cls) :=
  (writesMemory_updGal ..).trans (.foldl (fun _ _ => writesMemory_chanWrite ..) _ _)

theorem writesMemory_galInstall (d : Device) (mask : Nat) (x : GalLine) (cls : Nat) :
    WritesMemory d (galInstall d mask x cls) := by
  unfold galInstall
  exact (writesMemory_galFlips d _).trans (writesMemory_updGal ..)

theorem writesMemory_slicePut (d : Device) (a : Nat) (data : Line) (en : BitVec 64) (poison : Bool) (mask : Nat)
    (alloc : Bool) (cls : Nat) : WritesMemory d (slicePut d a data en poison mask alloc cls) := by
  unfold slicePut
  extract_lets
  split
  · exact (writesMemory_galFlips ..).trans (writesMemory_updGal ..)
  · split
    · exact (writesMemory_flushVictims ..).trans (writesMemory_galInstall ..)
    · exact (writesMemory_flushVictims ..).trans (writesMemory_chanWrite ..)

theorem writesMemory_recallLine (d : Device) (a : Nat) : WritesMemory d (recallLine d a) := by
  unfold recallLine
  refine .trans (.trans ?_ (.foldl (fun _ _ => writesMemory_updHart ..) _ _)) (writesMemory_updGal ..)
  split
  · exact writesMemory_slicePut ..
  · exact .refl d

theorem writesMemory_sliceWrite (d : Device) (w : HeldWrite) (cls : Nat) : WritesMemory d (sliceWrite d w cls) :=
  ((writesMemory_recallLine ..).trans (writesMemory_loseReserve ..)).trans (writesMemory_slicePut ..)

/-! ### Writes of units -/

theorem writesMemory_lineWrite (d : Device) (a : Nat) (data : Line) (en : BitVec 64) (p : Part) (alloc : Bool)
    (cls : Nat) : WritesMemory d (lineWrite d a data en p alloc cls) := by
  unfold lineWrite
  split
  · exact .refl d
  · split
    · exact writesMemory_hold d _
    · exact writesMemory_sliceWrite ..

theorem writesMemory_cohWriteGo (d : Device) (a n v : Nat) (p : Part) (cls k : Nat) :
    WritesMemory d (cohWriteGo d a n v p cls k) := by
  induction k generalizing d a n v with
  | zero => exact .refl d
  | succ k ih =>
    unfold cohWriteGo
    split
    · exact .refl d
    · exact (writesMemory_lineWrite ..).trans (ih ..)

theorem writesMemory_cohWrite (d : Device) (a n v : Nat) (p : Part) (cls : Nat) :
    WritesMemory d (cohWrite d a n v p cls) := writesMemory_cohWriteGo ..

theorem writesMemory_leafUpdate (d : Device) (l : List (Nat × Nat)) : WritesMemory d (leafUpdate d l) :=
  .foldl (fun _ _ => writesMemory_cohWrite ..) l d

theorem writesMemory_msiWrite (d : Device) (a : Nat) (v : BitVec 32) : WritesMemory d (msiWrite d a v) := by
  unfold msiWrite
  split
  · exact .refl d
  · extract_lets
    split
    · exact .refl d
    · exact writesMemory_updHart ..

theorem writesMemory_busWrite4 (d : Device) (a : Nat) (v : BitVec 32) (p : Part) :
    WritesMemory d (busWrite4 d a v p) := by
  unfold busWrite4
  split
  · exact writesMemory_cohWrite ..
  · exact writesMemory_msiWrite ..

theorem writesMemory_iommuMsi (d : Device) (vecLo : Nat) : WritesMemory d (iommuMsi d vecLo) := by
  unfold iommuMsi
  extract_lets
  split
  · exact .refl d
  · exact writesMemory_busWrite4 ..

end Sys2Proof.Machine
end

section
/-! SUPPORT. What handling a record leaves of the record state: messages and translations for it add events, and change
registers of the IOMMU, of partitions and of a snapshot only. -/

namespace Sys2Proof.Machine

open Sys2Proof

/-- What stays of the record state while a message is sent or memory is written: events are only added, and of the
registers below those of the partitions (R536) only a snapshot's may change. -/
structure KeepsRecords (d e : Device) : Prop where
  raised : d.ras.raised <+: e.ras.raised
  windows : e.ras.windows = d.ras.windows
  seq : e.ras.seq = d.ras.seq
  msiSent : e.ras.msiSent = d.ras.msiSent
  msiWaits : e.ras.msiWaits = d.ras.msiWaits
  regs : ∀ x < 0x1000000, x ≠ SNAP_STAT → x ≠ SNAP_WHEN → reg e x = reg d x

theorem KeepsRecords.refl (d : Device) : KeepsRecords d d :=
  ⟨⟨[], List.append_nil _⟩, rfl, rfl, rfl, rfl, fun _ _ _ _ => rfl⟩

theorem KeepsRecords.trans {d e f : Device} (h : KeepsRecords d e) (k : KeepsRecords e f) : KeepsRecords d f where
  raised := h.raised.trans k.raised
  windows := k.windows.trans h.windows
  seq := k.seq.trans h.seq
  msiSent := k.msiSent.trans h.msiSent
  msiWaits := k.msiWaits.trans h.msiWaits
  regs x hx hs hw := (k.regs x hx hs hw).trans (h.regs x hx hs hw)

theorem KeepsRecords.foldl {α : Type} {f : Device → α → Device} (h : ∀ d x, KeepsRecords d (f d x)) (l : List α)
    (d : Device) : KeepsRecords d (l.foldl f d) := by
  induction l generalizing d with
  | nil => exact .refl d
  | cons x t ih => exact (h d x).trans (ih _)

theorem WritesMemory.keepsRecords {d e : Device} (h : WritesMemory d e) : KeepsRecords d e := by
  rw [h.rest]
  exact ⟨⟨[], List.append_nil _⟩, rfl, rfl, rfl, rfl, fun _ _ _ _ => rfl⟩

theorem keepsRecords_setReg (d : Device) {x : Nat} (lo len v : Nat) (h : 0x1000000 ≤ x) :
    KeepsRecords d (setReg d x lo len v) where
  raised := ⟨[], List.append_nil _⟩
  windows := rfl
  seq := rfl
  msiSent := rfl
  msiWaits := rfl
  regs y hy _ _ := by rw [reg_setReg, if_neg (by omega)]

theorem keepsRecords_incRegSat (d : Device) {x : Nat} (lo len : Nat) (h : 0x1000000 ≤ x) :
    KeepsRecords d (incRegSat d x lo len) := by
  rw [incRegSat_eq]; exact keepsRecords_setReg d lo len _ h

/-! ### Registers of the IOMMU and of partitions -/

theorem iom_ge (off : Nat) : 0x1000000 ≤ regAt .iom 0 off := by simp only [regAt, blkInfo]; omega

theorem prt_ge (i off : Nat) : 0x1000000 ≤ regAt .prt i off := by simp only [regAt, blkInfo]; omega

/-! ### Events -/

/-- A trigger of a snapshot changes of the records' state the registers kept for the shadow alone. -/
theorem raiseTrigger_ras (d : Device) (cls : Nat) :
    ∃ k, (raiseTrigger d cls).ras = { d.ras with snapRegs := k } := by
  unfold raiseTrigger
  split
  · exact ⟨_, rfl⟩
  · split <;> exact ⟨_, rfl⟩

section
variable (d : Device) (cls inst addr detail : Nat) (part : Option Part)

/-- An event is added to those that wait, as an injected one where a mark of an injection names it. -/
theorem raiseEvent_ras : ∃ inj marks k, (raiseEvent d cls inst addr detail part).ras = { d.ras with
    raised := d.ras.raised ++ [⟨cls, inst, addr, detail, part, inj, beatNow d, 1⟩]
    marks := marks, snapRegs := k } ∧ (d.ras.marks = [] → inj = false) := by
  unfold raiseEvent
  split <;> rename_i hmark
  · obtain ⟨k, h⟩ := raiseTrigger_ras { d with ras := { d.ras with
      raised := d.ras.raised ++ [⟨cls, inst, addr, detail, part, true, beatNow d, 1⟩], marks := ‹_› } } cls
    refine ⟨_, _, k, h, fun none => ?_⟩
    rw [none] at hmark; cases hmark
  · obtain ⟨k, h⟩ := raiseTrigger_ras { d with ras := { d.ras with
      raised := d.ras.raised ++ [⟨cls, inst, addr, detail, part, false, beatNow d, 1⟩] } } cls
    exact ⟨_, _, k, h, fun _ => rfl⟩

theorem keepsRecords_raiseEvent : KeepsRecords d (raiseEvent d cls inst addr detail part) := by
  obtain ⟨_, _, _, h, -⟩ := raiseEvent_ras d cls inst addr detail part
  refine ⟨?_, ?_, ?_, ?_, ?_, fun x _ hs hw => reg_raiseEvent d cls inst addr detail part hs hw⟩ <;> rw [h]
  exact ⟨_, rfl⟩

end

/-! ### Translations and messages -/

theorem keepsRecords_ioFaultAs (d : Device) (dev : Nat) (pasid : Option Nat) (va cause ttyp : Nat) :
    KeepsRecords d (ioFaultAs d dev pasid va cause ttyp) := by
  unfold ioFaultAs
  split
  · exact .refl d
  · extract_lets size head tail a pid w0 e e'
    split
    · exact keepsRecords_setReg _ _ _ _ (iom_ge _)
    · have he' : KeepsRecords d e' :=
        (writesMemory_cohWrite ..).keepsRecords.trans (keepsRecords_setReg _ _ _ _ (iom_ge _))
      split
      · exact (he'.trans (keepsRecords_setReg _ _ _ _ (iom_ge _))).trans (writesMemory_iommuMsi ..).keepsRecords
      · exact he'

theorem keepsRecords_xlatReq (d : Device) (dev : Nat) (pasid : Option Nat) (va : Nat) (wr : Bool) :
    KeepsRecords d (xlatReq d dev pasid va wr).2 := by
  unfold xlatReq
  split
  · exact (writesMemory_leafUpdate ..).keepsRecords
  · exact keepsRecords_ioFaultAs ..

theorem keepsRecords_xlat (d : Device) (p : Part) (va : Nat) (wr : Bool) : KeepsRecords d (xlat d p va wr).2 :=
  keepsRecords_xlatReq ..

theorem keepsRecords_msiTo (d : Device) (a : Nat) (v : BitVec 32) (q : Nat) (p : Option Part) :
    KeepsRecords d (msiTo d a v q p) := by
  unfold msiTo
  split
  · exact (writesMemory_busWrite4 ..).keepsRecords
  · split
    · exact .refl d
    · exact keepsRecords_raiseEvent ..

/-- A partition is told of a record. -/
theorem keepsRecords_tellPart (d : Device) (p : Part) (cls : Nat) : KeepsRecords d (tellPart d p cls) := by
  unfold tellPart
  split
  · exact .refl d
  · extract_lets e
    have hp : 0x1000000 ≤ PRT_RAS p.val := prt_ge ..
    have he : KeepsRecords d e := ((keepsRecords_setReg _ _ _ _ hp).trans (keepsRecords_setReg _ _ _ _ hp)).trans
      (keepsRecords_incRegSat _ _ _ hp)
    split
    · exact he
    · have hx := keepsRecords_xlat e p (regF e (PRT_ADMIN_MSI_ADDR p.val) 2 62 * 4) true
      split <;> rename_i h <;> rw [h] at hx
      · exact (he.trans hx).trans (keepsRecords_msiTo ..)
      · exact he.trans hx

/-- The event ring's MSI is sent. -/
theorem keepsRecords_eventRingMsi (d : Device) :
    KeepsRecords (updRas d fun r => { r with msiSent := true, msiWaits := false }) (eventRingMsi d) := by
  unfold eventRingMsi
  extract_lets e
  have hx := keepsRecords_xlat e 0 (regF e LIFE_EVQ_MSI_ADDR 2 62 * 4) true
  split <;> rename_i h <;> rw [h] at hx
  · exact hx.trans (keepsRecords_msiTo ..)
  · exact hx

end Sys2Proof.Machine
end

section
/-! PROOF. Event records, their windows and the event ring's MSI (R519 to R521). -/

namespace Sys2Proof.Machine

open Sys2Proof

/-! ### Commands of a part past its start-up -/

theorem act_whenReady {s : State} (f : Device → Device) (h : s.dev.phase = .run ∨ s.dev.phase = .recovery) :
    act (whenReady f) s = .next (s.withDev (f s.dev)) := by
  have hready : ready s.dev = true := by rcases h with h | h <;> simp [ready, h]
  rw [act_eq, whenReady, if_pos hready]

theorem regF_congr {d e : Device} (h : e.regs = d.regs) (x lo len : Nat) : regF e x lo len = regF d x lo len := by
  rw [regF, regF, h]

/-- A field of one bit. -/
theorem regF_bit (d : Device) (x lo : Nat) : regF d x lo 1 = 0 ∨ regF d x lo 1 = 1 := by
  have := regF_lt d x lo 1; omega

/-! ### Events are added, windows stay -/

/-- Events are only added, and the open windows stay. -/
structure AddsEvents (d e : Device) : Prop where
  raised : d.ras.raised <+: e.ras.raised
  windows : e.ras.windows = d.ras.windows

theorem AddsEvents.trans {d e f : Device} (h : AddsEvents d e) (k : AddsEvents e f) : AddsEvents d f :=
  ⟨h.raised.trans k.raised, k.windows.trans h.windows⟩

theorem AddsEvents.of_eq {d e : Device} (raised : e.ras.raised = d.ras.raised)
    (windows : e.ras.windows = d.ras.windows) : AddsEvents d e := ⟨⟨[], (List.append_nil _).trans raised.symm⟩, windows⟩

theorem KeepsRecords.addsEvents {d e : Device} (h : KeepsRecords d e) : AddsEvents d e := ⟨h.raised, h.windows⟩

/-! ### The ring -/

/-- The device with the bytes of a record in its ring. -/
def recordBytesPut (d : Device) (e : RasEvent) : Device :=
  cohWrite d (recordAddr d) 32 (recordBytes e d.ras.seq) 0 1

/-- The device once a record stands in the ring, before the ring's MSI. -/
def recordPut (d : Device) (e : RasEvent) : Device :=
  setReg (updRas (recordBytesPut d e) fun r => { r with seq := nextSeq r.seq }) LIFE_EVQ_IDX 0 16
    (ringNext (recordBytesPut d e) (regF d LIFE_EVQ_IDX 0 16))

/-- The ring's MSI is sent where it is enabled, or waits for the end of 100 µs. -/
def ringMsi (d : Device) : Device :=
  if regF d LIFE_EVQ_CFG 1 1 = 0 then d
  else if d.ras.msiSent then updRas d fun r => { r with msiWaits := true }
  else eventRingMsi d

section
variable {d : Device} (e : RasEvent)

theorem ringRecord_off (h : regF d LIFE_EVQ_CFG 0 1 = 0) : ringRecord d e = d := if_pos h

theorem ringRecord_full (on : regF d LIFE_EVQ_CFG 0 1 = 1) (full : ringFull d = true) :
    ringRecord d e = incReg d LIFE_EVQ_IDX 32 32 1 := by
  simp [ringRecord, on, full]

theorem ringRecord_room (on : regF d LIFE_EVQ_CFG 0 1 = 1) (room : ringFull d = false) :
    ringRecord d e = ringMsi (recordPut d e) := by
  rw [ringRecord, if_neg (by omega), room]
  exact if_neg Bool.false_ne_true

variable (d)

theorem writesMemory_recordBytesPut : WritesMemory d (recordBytesPut d e) := writesMemory_cohWrite ..

theorem recordPut_ras : ∃ m, (recordPut d e).ras = { d.ras with seq := nextSeq d.ras.seq, marks := m } := by
  refine ⟨(recordBytesPut d e).ras.marks, ?_⟩
  rw [recordPut, setReg_ras, updRas, (writesMemory_recordBytesPut d e).rest]

theorem recordPut_prod (small : ringNext d (regF d LIFE_EVQ_IDX 0 16) < 2 ^ 16) :
    regF (recordPut d e) LIFE_EVQ_IDX 0 16 = ringNext d (regF d LIFE_EVQ_IDX 0 16) := by
  have hnext : ∀ i, ringNext (recordBytesPut d e) i = ringNext d i := fun i => by
    rw [ringNext, regF_congr (writesMemory_recordBytesPut d e).regs, ringNext]
  rw [recordPut, hnext, regF_setReg_of_lt _ _ (by decide) small]

theorem recordPut_cfg (lo len : Nat) : regF (recordPut d e) LIFE_EVQ_CFG lo len = regF d LIFE_EVQ_CFG lo len := by
  rw [recordPut, regF_setReg_of_ne _ _ _ _ _ _ (by decide), regF_congr (updRas_regs ..),
    regF_congr (writesMemory_recordBytesPut d e).regs]

theorem addsEvents_recordPut : AddsEvents d (recordPut d e) := by
  obtain ⟨_, h⟩ := recordPut_ras d e
  exact .of_eq (by rw [h]) (by rw [h])

/-- The ring's MSI leaves, apart from its two flags, what a message leaves. -/
theorem ringMsi_keeps : ∃ sent waits,
    KeepsRecords (updRas d fun r => { r with msiSent := sent, msiWaits := waits }) (ringMsi d) ∧
    (regF d LIFE_EVQ_CFG 1 1 = 1 → sent = true ∧ waits = d.ras.msiSent) := by
  unfold ringMsi
  split
  · exact ⟨d.ras.msiSent, d.ras.msiWaits, .refl d, fun _ => by omega⟩
  · split <;> rename_i h
    · exact ⟨d.ras.msiSent, true, .refl _, fun _ => ⟨h, h.symm⟩⟩
    · exact ⟨true, false, keepsRecords_eventRingMsi d, fun _ => ⟨rfl, ((Bool.not_eq_true _).mp h).symm⟩⟩

theorem ringMsi_off (h : regF d LIFE_EVQ_CFG 1 1 = 0) : ringMsi d = d := if_pos h

/-- What a record that the ring takes leaves. -/
theorem ringRecord_put (on : regF d LIFE_EVQ_CFG 0 1 = 1) (room : ringFull d = false)
    (small : ringNext d (regF d LIFE_EVQ_IDX 0 16) < 2 ^ 16) :
    regF (ringRecord d e) LIFE_EVQ_IDX 0 16 = ringNext d (regF d LIFE_EVQ_IDX 0 16) ∧
    (ringRecord d e).ras.seq = nextSeq d.ras.seq ∧
    (regF d LIFE_EVQ_CFG 1 1 = 1 →
      (ringRecord d e).ras.msiSent = true ∧ (ringRecord d e).ras.msiWaits = d.ras.msiSent) ∧
    (regF d LIFE_EVQ_CFG 1 1 = 0 → (ringRecord d e).mem = (recordBytesPut d e).mem) := by
  obtain ⟨m, hput⟩ := recordPut_ras d e
  obtain ⟨sent, waits, hmsi, hflags⟩ := ringMsi_keeps (recordPut d e)
  have hcfg := recordPut_cfg d e 1 1
  have hmem : (recordPut d e).mem = (recordBytesPut d e).mem := by rw [recordPut, setReg_mem, updRas_mem]
  rw [ringRecord_room e on room, ← recordPut_prod d e small, ← hcfg, ← hmem]
  generalize recordPut d e = x at *
  refine ⟨?_, ?_, fun h => ?_, fun h => ?_⟩
  · rw [regF_eq, hmsi.regs LIFE_EVQ_IDX (by decide) (by decide) (by decide)]
    rfl
  · rw [hmsi.seq, updRas_ras, hput]
  · obtain ⟨rfl, hwaits⟩ := hflags h
    rw [hmsi.msiSent, hmsi.msiWaits, updRas_ras, hwaits, hput]
    exact ⟨rfl, rfl⟩
  · rw [ringMsi_off _ h]

theorem addsEvents_ringMsi : AddsEvents d (ringMsi d) := by
  obtain ⟨_, _, h, -⟩ := ringMsi_keeps d
  exact ⟨h.raised, h.windows⟩

theorem addsEvents_ringRecord : AddsEvents d (ringRecord d e) := by
  rcases regF_bit d LIFE_EVQ_CFG 0 with off | on
  · rw [ringRecord_off e off]; exact .of_eq rfl rfl
  · cases room : ringFull d with
    | true => rw [ringRecord_full e on room]; exact .of_eq rfl rfl
    | false =>
      rw [ringRecord_room e on room]
      exact (addsEvents_recordPut d e).trans (addsEvents_ringMsi _)

end

/-! ### Records -/

theorem addsEvents_writeRecord (d : Device) (e : RasEvent) : AddsEvents d (writeRecord d e) := by
  unfold writeRecord
  refine (addsEvents_ringRecord d e).trans ?_
  split
  · exact (KeepsRecords.foldl (fun _ _ => keepsRecords_tellPart ..) _ _).addsEvents
  · split
    · split
      · exact (keepsRecords_tellPart ..).addsEvents
      · exact .of_eq rfl rfl
    · exact .of_eq rfl rfl

/-- A record of no partition and of no fatal event goes to the ring alone. -/
theorem writeRecord_ring (d : Device) {e : RasEvent} (fatal : e.cls ≠ 0x1f) (part : e.part = none) :
    writeRecord d e = ringRecord d e := by
  simp [writeRecord, fatal, part]

/-! ### Windows -/

theorem joinWindow_none {l : List Coalesce} {e : RasEvent} (h : ∀ w ∈ l, ¬ (w.cls = e.cls ∧ w.inst = e.inst)) :
    joinWindow l e = none := by
  have : l.any (fun w => w.cls == e.cls && w.inst == e.inst) = false := by simpa using h
  simp [joinWindow, this]

theorem joinWindow_isSome {l : List Coalesce} {e : RasEvent} (h : ∃ w ∈ l, w.cls = e.cls ∧ w.inst = e.inst) :
    (joinWindow l e).isSome = true := by
  have : l.any (fun w => w.cls == e.cls && w.inst == e.inst) = true := by simpa using h
  simp [joinWindow, this]

/-- An occurrence that joins a window is counted in it. -/
theorem joinWindow_counts {l m : List Coalesce} {e : RasEvent} (h : joinWindow l e = some m) {w : Coalesce}
    (hw : w ∈ l) (cls : w.cls = e.cls) (inst : w.inst = e.inst) :
    ∃ v ∈ m, ∃ o, v.cls = w.cls ∧ v.inst = w.inst ∧ v.since = some o ∧
      o.count = (match w.since with | some x => x.count + 1 | none => e.count) := by
  unfold joinWindow at h
  split at h
  · obtain rfl := Option.some.inj h
    refine ⟨_, List.mem_map_of_mem hw, ?_⟩
    rw [if_pos ⟨cls, inst⟩]
    cases w.since with
    | none => exact ⟨_, rfl, rfl, rfl, rfl⟩
    | some x => exact ⟨_, rfl, rfl, rfl, rfl⟩
  · cases h

/-! ### The oldest event -/

/-- The device with another record state and lifetime log. -/
def withRecords (d : Device) (r : Ras) (l : Life) : Device := { d with ras := r, life := l }

theorem recordBytesPut_withRecords (d : Device) (r : Ras) (l : Life) (e : RasEvent) :
    recordBytesPut (withRecords d r l) e = cohWrite (withRecords d r l)
      (regF d LIFE_EVQ_BASE 12 40 * 4096 + 32 * regF d LIFE_EVQ_IDX 0 16) 32 (recordBytes e r.seq) 0 1 := rfl

/-- The record state once the oldest event has been taken, before its record. -/
structure TakesEvent (r r' : Ras) (rest : List RasEvent) : Prop where
  raised : r'.raised = rest
  seq : r'.seq = r.seq
  msiSent : r'.msiSent = r.msiSent

theorem formShadow_eq (d : Device) :
    ∃ sh k, formShadow d = { d with ras := { d.ras with shadow := sh, snapRegs := k } } := by
  unfold formShadow
  split
  · exact ⟨_, _, rfl⟩
  · exact ⟨_, _, rfl⟩

/-- The device once the oldest event `e` has been taken and counted. -/
def taken (d : Device) (e : RasEvent) (rest : List RasEvent) : Device :=
  lifeAdd (updRas (formShadow d) fun r => { r with raised := rest }) (if e.injected then 6 else 5) e.cls 1

theorem taken_eq (d : Device) (e : RasEvent) (rest : List RasEvent) : ∃ sh k l, taken d e rest =
    withRecords d { d.ras with raised := rest, shadow := sh, snapRegs := k } l := by
  obtain ⟨sh, k, h⟩ := formShadow_eq d
  rw [taken, h]
  exact ⟨sh, k, _, rfl⟩

section
variable {d : Device} {e : RasEvent} {rest : List RasEvent} (h : d.ras.raised = e :: rest)
include h

theorem handleEvent_single (hc : coalesced e.cls = false) : handleEvent d = writeRecord (taken d e rest) e := by
  simp only [handleEvent, h, hc]
  rfl

theorem handleEvent_opens (hc : coalesced e.cls = true) (hj : joinWindow (taken d e rest).ras.windows e = none) :
    handleEvent d = writeRecord (updRas (taken d e rest) fun r => { r with
      windows := r.windows ++ [⟨e.cls, e.inst, beatNow (taken d e rest), none⟩] }) e := by
  rw [taken] at hj
  simp only [handleEvent, h, hc, hj]
  rfl

theorem handleEvent_joins (hc : coalesced e.cls = true) {m : List Coalesce}
    (hj : joinWindow (taken d e rest).ras.windows e = some m) :
    handleEvent d = updRas (taken d e rest) fun r => { r with windows := m } := by
  rw [taken] at hj
  simp only [handleEvent, h, hc, hj]
  rfl

/-- The oldest event makes a record, or joins an open window. -/
theorem handleEvent_cases :
    (eventWrites d = true ∧ ∃ r l, TakesEvent d.ras r rest ∧ handleEvent d = writeRecord (withRecords d r l) e ∧
      (coalesced e.cls = true → ⟨e.cls, e.inst, beatNow d, none⟩ ∈ r.windows)) ∨
    (eventWrites d = false ∧ ∃ r l, TakesEvent d.ras r rest ∧ handleEvent d = withRecords d r l ∧
      joinWindow d.ras.windows e = some r.windows) := by
  obtain ⟨sh, k, l, ht⟩ := taken_eq d e rest
  have hwindows : (taken d e rest).ras.windows = d.ras.windows := by rw [ht]; rfl
  have hwrites : eventWrites d = !(coalesced e.cls && (joinWindow d.ras.windows e).isSome) := by
    simp only [eventWrites, h]
  cases hc : coalesced e.cls with
  | false =>
    refine .inl ⟨by rw [hwrites, hc]; rfl, { d.ras with raised := rest, shadow := sh, snapRegs := k }, l,
      ⟨rfl, rfl, rfl⟩, ?_, nofun⟩
    rw [handleEvent_single h hc, ht]
  | true =>
    cases hj : joinWindow d.ras.windows e with
    | none =>
      refine .inl ⟨by rw [hwrites, hc, hj]; rfl, { d.ras with
        raised := rest, shadow := sh, snapRegs := k
        windows := d.ras.windows ++ [⟨e.cls, e.inst, beatNow d, none⟩] }, l, ⟨rfl, rfl, rfl⟩, ?_, fun _ => by simp⟩
      rw [handleEvent_opens h hc (by rw [hwindows, hj]), ht]
      rfl
    | some m =>
      refine .inr ⟨by rw [hwrites, hc, hj]; rfl, { d.ras with
        raised := rest, shadow := sh, snapRegs := k, windows := m }, l, ⟨rfl, rfl, rfl⟩, ?_, rfl⟩
      rw [handleEvent_joins h hc (by rw [hwindows, hj]), ht]
      rfl

/-- The oldest event leaves the list, and opens its window where none is open. -/
theorem handleEvent_takes : ∃ more, (handleEvent d).ras.raised = rest ++ more ∧
    (coalesced e.cls = true → (∀ w ∈ d.ras.windows, ¬ (w.cls = e.cls ∧ w.inst = e.inst)) →
      ⟨e.cls, e.inst, beatNow d, none⟩ ∈ (handleEvent d).ras.windows) := by
  rcases handleEvent_cases h with ⟨-, r, l, hr, hd, hopens⟩ | ⟨-, r, l, hr, hd, hjoins⟩ <;> rw [hd]
  · obtain ⟨⟨more, hmore⟩, hwindows⟩ := addsEvents_writeRecord (withRecords d r l) e
    refine ⟨more, ?_, fun hc _ => ?_⟩
    · rw [← hmore, ← hr.raised]; rfl
    · rw [hwindows]; exact hopens hc
  · refine ⟨[], hr.raised.trans (List.append_nil _).symm, fun _ none => ?_⟩
    rw [joinWindow_none none] at hjoins; cases hjoins

/-- An occurrence in an open window changes the record state and the log alone, and is counted in the window. -/
theorem handleEvent_counts (hc : coalesced e.cls = true) (hw : ∃ w ∈ d.ras.windows, w.cls = e.cls ∧ w.inst = e.inst) :
    handleEvent d = withRecords d (handleEvent d).ras (handleEvent d).life ∧
      ∀ w ∈ d.ras.windows, w.cls = e.cls → w.inst = e.inst → ∃ v ∈ (handleEvent d).ras.windows, ∃ o,
        v.cls = w.cls ∧ v.inst = w.inst ∧ v.since = some o ∧
        o.count = (match w.since with | some x => x.count + 1 | none => e.count) := by
  rcases handleEvent_cases h with ⟨writes, -⟩ | ⟨-, r, l, -, hd, hjoins⟩
  · simp [eventWrites, h, hc, joinWindow_isSome hw] at writes
  · rw [hd]
    exact ⟨rfl, fun w hw hcls hinst => joinWindow_counts hjoins hw hcls hinst⟩

/-- A record of no partition and of no fatal event is made at the ring. -/
theorem handleEvent_ring (fatal : e.cls ≠ 0x1f) (part : e.part = none) (writes : eventWrites d = true) :
    ∃ r l, TakesEvent d.ras r rest ∧ handleEvent d = ringRecord (withRecords d r l) e := by
  rcases handleEvent_cases h with ⟨-, r, l, hr, hd, -⟩ | ⟨no, -⟩
  · exact ⟨r, l, hr, by rw [hd, writeRecord_ring _ fatal part]⟩
  · rw [writes] at no; cases no

end

theorem askPages_frame (d : Device) (l : List Nat) : ∃ hup, askPages d l = { d with hup := hup } := ⟨_, rfl⟩

theorem whenRecorded_go {d : Device} {writes : Bool} (f : Device → Device)
    (h : writes = true → recordWaits d = false) : whenRecorded writes f d = f d := by
  cases writes with
  | false => rfl
  | true => simp [whenRecorded, h rfl]

theorem whenRecorded_waits {d : Device} (f : Device → Device) (h : recordWaits d = true) :
    whenRecorded true f d = askPages d (winWaits d (recordAddr d)) := by
  simp [whenRecorded, h]

section
variable {s : State} (ready : s.dev.phase = .run ∨ s.dev.phase = .recovery)
include ready

theorem exec_eventRecordWrite_none (h : s.dev.ras.raised = []) : exec .eventRecordWrite s = .next s := by
  refine (act_whenReady _ ready).trans ?_
  simp only [eventWrites, handleEvent, h, whenRecorded_go handleEvent (writes := false) (d := s.dev) nofun]
  rfl

theorem exec_eventRecordWrite_waits (writes : eventWrites s.dev = true) (waits : recordWaits s.dev = true) :
    exec .eventRecordWrite s = .next (s.withDev (askPages s.dev (winWaits s.dev (recordAddr s.dev)))) := by
  refine (act_whenReady _ ready).trans ?_
  rw [writes, whenRecorded_waits _ waits]

theorem exec_eventRecordWrite (h : eventWrites s.dev = true → recordWaits s.dev = false) :
    exec .eventRecordWrite s = .next (s.withDev (handleEvent s.dev)) := by
  refine (act_whenReady _ ready).trans ?_
  rw [whenRecorded_go _ h]

end

end Sys2Proof.Machine
end

section
/-! PROOF. The end of a window, the timer of the ring's MSI, and the statement on event records (R519 to R521). -/

namespace Sys2Proof.Machine

open Sys2Proof

section
variable {s : State} (ready : s.dev.phase = .run ∨ s.dev.phase = .recovery)
include ready

/-! ### The end of a window -/

theorem exec_coalesceWindowExpiry_none {c : BitVec 8} {i : BitVec 16}
    (h : ∀ w ∈ s.dev.ras.windows, ¬ (w.cls = c.toNat ∧ w.inst = i.toNat)) :
    exec (.coalesceWindowExpiry c i) s = .next s := by
  have hnone : takeFirst (fun w : Coalesce => w.cls == c.toNat && w.inst == i.toNat) s.dev.ras.windows = none := by
    cases hf : takeFirst (fun w : Coalesce => w.cls == c.toNat && w.inst == i.toNat) s.dev.ras.windows with
    | none => rfl
    | some p =>
      obtain ⟨a, b, hl, -, hp, -⟩ := takeFirst_some hf
      exact absurd (by simpa using hp) (h p.1 (by simp [hl]))
  refine (act_whenReady _ ready).trans ?_
  simp only [hnone]
  rfl

theorem exec_coalesceWindowExpiry {c : BitVec 8} {i : BitVec 16} {w : Coalesce} {rest : List Coalesce}
    (h : takeFirst (fun w : Coalesce => w.cls == c.toNat && w.inst == i.toNat) s.dev.ras.windows = some (w, rest)) :
    exec (.coalesceWindowExpiry c i) s = .next (s.withDev (windowEnds s.dev w rest)) := by
  refine (act_whenReady _ ready).trans ?_
  simp only [h]

end

section
variable {d : Device} {w : Coalesce} (rest : List Coalesce)

theorem windowEnds_early (h : beatNow d < w.opened + 1000) : windowEnds d w rest = d := if_pos h

variable (due : w.opened + 1000 ≤ beatNow d)
include due

theorem windowEnds_empty (h : w.since = none) :
    windowEnds d w rest = updRas d fun r => { r with windows := rest } := by
  rw [windowEnds, if_neg (by omega), h]

variable {e : RasEvent} (h : w.since = some e)
include h

theorem windowEnds_waits (waits : recordWaits d = true) :
    windowEnds d w rest = askPages d (winWaits d (recordAddr d)) := by
  rw [windowEnds, if_neg (by omega), h]
  exact whenRecorded_waits _ waits

/-- With the record of what occurred in it a window begins anew. -/
theorem windowEnds_record (served : recordWaits d = false) :
    ⟨w.cls, w.inst, beatNow d, none⟩ ∈ (windowEnds d w rest).ras.windows := by
  rw [windowEnds, if_neg (by omega), h]
  simp only [whenRecorded_go _ fun _ => served]
  rw [(addsEvents_writeRecord ..).windows]
  simp [updRas]

end

/-! ### The timer of the ring's MSI -/

section
variable {s : State} (ready : s.dev.phase = .run ∨ s.dev.phase = .recovery)
include ready

theorem exec_eventRingMsiTimer_quiet (h : s.dev.ras.msiWaits = false ∨ regF s.dev LIFE_EVQ_CFG 1 1 = 0) :
    exec .eventRingMsiTimer s =
      .next (s.withDev (updRas s.dev fun r => { r with msiSent := false, msiWaits := false })) := by
  refine (act_whenReady _ ready).trans ?_
  rw [if_neg]
  rintro hboth
  obtain ⟨hw, hc⟩ := Bool.and_eq_true_iff.mp hboth
  rcases h with h | h
  · rw [h] at hw; cases hw
  · have on : regF s.dev LIFE_EVQ_CFG 1 1 = 1 := eq_of_beq hc
    omega

theorem exec_eventRingMsiTimer_sends (waits : s.dev.ras.msiWaits = true) (on : regF s.dev LIFE_EVQ_CFG 1 1 = 1) :
    exec .eventRingMsiTimer s = .next (s.withDev
      (eventRingMsi (updRas s.dev fun r => { r with msiSent := false, msiWaits := false }))) := by
  refine (act_whenReady _ ready).trans ?_
  rw [if_pos]
  exact Bool.and_eq_true_iff.mpr ⟨waits, beq_iff_eq.mpr on⟩

end

/-! ### The statement -/

section
variable {s : State} {e : RasEvent} {r : Ras} {l : Life}

/-- A full ring counts the record as lost (R521). -/
theorem ringRecord_lost (on : regF s.dev LIFE_EVQ_CFG 0 1 = 1) (full : ringFull s.dev = true) :
    let u := ringRecord (withRecords s.dev r l) e
    s.onlyRegs (s.withDev (withRecords u s.dev.ras s.dev.life)) [LIFE_EVQ_IDX] ∧
    regF u LIFE_EVQ_IDX 32 32 = (regF s.dev LIFE_EVQ_IDX 32 32 + 1) % 2 ^ 32 ∧
    regF u LIFE_EVQ_IDX 0 16 = regF s.dev LIFE_EVQ_IDX 0 16 := by
  intro u
  have hu : u = setReg (withRecords s.dev r l) LIFE_EVQ_IDX 32 32 ((regF s.dev LIFE_EVQ_IDX 32 32 + 1) % 2 ^ 32) :=
    (ringRecord_full (d := withRecords s.dev r l) e on full).trans (incReg_eq ..)
  have hlt : (regF s.dev LIFE_EVQ_IDX 32 32 + 1) % 2 ^ 32 < 2 ^ 32 := Nat.mod_lt _ (by decide)
  generalize (regF s.dev LIFE_EVQ_IDX 32 32 + 1) % 2 ^ 32 = v at *
  rw [hu]
  refine ⟨⟨rfl, fun y hy => ?_⟩, regF_setReg_of_lt _ _ (by decide) hlt, ?_⟩
  · exact (reg_setReg ..).trans (if_neg (mt List.mem_singleton.mpr hy))
  · exact regF_setReg_apart _ _ _ (by decide)

end

theorem eventRecords : Claims.EventRecords := by
  intro s ready d n prod
  refine ⟨exec_eventRecordWrite_none ready, fun writes waits => ?_, fun e rest h served => ?_,
    fun e rest h fatal part _ served => ?_, fun c i => ⟨exec_coalesceWindowExpiry_none ready, fun w rest h => ?_⟩,
    exec_eventRingMsiTimer_quiet ready, fun waits on => ?_⟩
  · obtain ⟨hup, hask⟩ := askPages_frame s.dev (winWaits s.dev (recordAddr s.dev))
    rw [exec_eventRecordWrite_waits ready writes waits, hask]
    exact ⟨_, rfl, rfl, rfl, rfl⟩
  · obtain ⟨more, htakes⟩ := handleEvent_takes h
    exact ⟨_, more, exec_eventRecordWrite ready served, htakes⟩
  · obtain ⟨more, hraised, -⟩ := handleEvent_takes h
    refine ⟨_, exec_eventRecordWrite ready served, ⟨more, hraised⟩, fun hc hw => ?_, fun writes => ?_⟩
    · obtain ⟨hrest, hcounts⟩ := handleEvent_counts h hc hw
      exact ⟨congrArg s.withDev hrest, hcounts⟩
    · obtain ⟨r, l, hr, hd⟩ := handleEvent_ring h fatal part writes
      rw [dev_withDev, hd]
      refine ⟨fun off => ?_, fun on full => ringRecord_lost on (beq_iff_eq.mpr full), fun on room small => ?_⟩
      · rw [ringRecord_off (d := withRecords s.dev r l) e off]
        exact ⟨rfl, rfl, hr.seq⟩
      · obtain ⟨hprod, hseq, hmsi, hmem⟩ :=
          ringRecord_put (withRecords s.dev r l) e on (beq_false_of_ne room) small
        refine ⟨hprod, ?_, fun en => ?_, fun off => ⟨withRecords s.dev r l, ?_, rfl⟩⟩
        · rw [hseq]; show nextSeq r.seq = nextSeq s.dev.ras.seq; rw [hr.seq]
        · obtain ⟨hsent, hwaits⟩ := hmsi en
          exact ⟨hsent, hwaits.trans hr.msiSent⟩
        · rw [hmem off, recordBytesPut_withRecords, hr.seq]
  · rw [exec_coalesceWindowExpiry ready h]
    refine ⟨fun early => ?_, fun due none => ?_, fun e due since served => ⟨_, rfl, ?_⟩,
      fun e due since waits => ⟨_, rfl, ?_⟩⟩
    · rw [windowEnds_early rest early]; rfl
    · rw [windowEnds_empty rest due none]; rfl
    · exact windowEnds_record rest due since served
    · obtain ⟨hup, hask⟩ := askPages_frame s.dev (winWaits s.dev (recordAddr s.dev))
      rw [dev_withDev, windowEnds_waits rest due since waits, hask]
      exact ⟨rfl, rfl⟩
  · have hmsi := keepsRecords_eventRingMsi (updRas s.dev fun r => { r with msiSent := false, msiWaits := false })
    exact ⟨_, exec_eventRingMsiTimer_sends ready waits on, hmsi.msiSent, hmsi.msiWaits⟩

end Sys2Proof.Machine
end

section
/-! PROOF. Fatal events, and links, ports and routers of the mesh that fail (R22, R516, R518, R523). -/

namespace Sys2Proof.Machine

open Sys2Proof

/-! ### Telling the harts -/

/-- The files of a hart with identity 1 pending in its own. -/
def toldFiles (l : Sparse IntFile) : Sparse IntFile :=
  sput l 0 { sget l 0 noFile with pending := insertNat (sget l 0 noFile).pending 1 }

/-- A hart that is told of a fatal event; one out of service takes no message. -/
def toldHart (x : HartState) : HartState := if x.held then x else { x with files := toldFiles x.files }

theorem fileOf_filePage (h : Hart) : fileOf (filePage h.val 0) = some (h, 0) := by
  have hh := h.isLt
  have hlow : 0xe000000000000 ≤ 0xe000000000000 + 0x1000 * h.val := by omega
  have hhigh : 0xe000000000000 + 0x1000 * h.val < 0xe000000080000 := by omega
  have hindex : (0xe000000000000 + 0x1000 * h.val - 0xe000000000000) / 0x1000 % 128 = h.val := by omega
  simp only [fileOf, filePage, if_true, hlow, hhigh, decide_true, Bool.and_self, hindex]

theorem msiWrite_filePage (d : Device) (h : Hart) :
    (if d.harts[h].held then d else msiWrite d (filePage h.val 0) 1) = updHart d h toldHart := by
  have hoff : filePage h.val 0 % 4096 = 0 := by simp only [filePage, if_true]; omega
  have hid : msiIdent 0 1 = 1 := by decide
  cases hheld : d.harts[h].held with
  | true =>
    have hsame : toldHart d.harts[h] = d.harts[h] := if_pos hheld
    rw [updHart, hsame]
    simp
  | false =>
    have htold : toldHart d.harts[h] = { d.harts[h] with files := toldFiles d.harts[h].files } :=
      if_neg (Bool.eq_false_iff.mp hheld)
    simp only [msiWrite, fileOf_filePage, hoff, hid, hheld]
    rw [updHart, updHart, htold]
    rfl

/-- Every hart of a list is told once. -/
theorem harts_foldl_toldHart (l : List Hart) (nodup : l.Nodup) (d : Device) (h : Hart) :
    (l.foldl (fun d h => updHart d h toldHart) d).harts[h] = if h ∈ l then toldHart d.harts[h] else d.harts[h] := by
  induction l generalizing d with
  | nil => rfl
  | cons a t ih =>
    obtain ⟨ha, ht⟩ := List.nodup_cons.mp nodup
    rw [List.foldl_cons, ih ht]
    by_cases hh : h = a
    · subst hh
      simp [ha]
    · rw [updHart_of_ne _ _ _ hh]
      simp [hh]

theorem foldl_toldHart_frame (l : List Hart) (d : Device) :
    ∃ hs, l.foldl (fun d h => updHart d h toldHart) d = { d with harts := hs } := by
  induction l generalizing d with
  | nil => exact ⟨_, rfl⟩
  | cons a t ih =>
    obtain ⟨hs, h⟩ := ih (updHart d a toldHart)
    exact ⟨hs, h.trans rfl⟩

/-! ### Fatal events -/

/-- The device in which a fatal event has been raised and the log written, before the harts are told. -/
def fatalRaised (d : Device) (t detail : Nat) : Device :=
  lifeSave (updRas (raiseEvent (fatalTrigger d) 0x1f t 0 detail none) fun r => { r with fatal := true })

theorem fatalNow_eq (d : Device) (t detail : Nat) :
    fatalNow d t detail = (List.finRange 128).foldl (fun d h => updHart d h toldHart) (fatalRaised d t detail) := by
  rw [fatalNow]
  simp only [msiWrite_filePage]
  rfl

/-- `e` differs from `d` in registers other than the beat's and in the shadow of a snapshot only. -/
structure SnapshotOnly (d e : Device) : Prop where
  rest : e = { d with regs := e.regs, ras := { d.ras with shadow := e.ras.shadow, snapRegs := e.ras.snapRegs } }
  beat : beatNow e = beatNow d

theorem SnapshotOnly.refl (d : Device) : SnapshotOnly d d := ⟨rfl, rfl⟩

theorem SnapshotOnly.trans {d e f : Device} (h : SnapshotOnly d e) (k : SnapshotOnly e f) : SnapshotOnly d f :=
  ⟨k.rest.trans (by rw [h.rest]), k.beat.trans h.beat⟩

theorem snapshotOnly_setReg (d : Device) {x : Nat} (lo len v : Nat) (h : BEAT_COUNT ≠ x) :
    SnapshotOnly d (setReg d x lo len v) := ⟨rfl, beatNow_setReg _ _ _ _ h⟩

theorem snapshotOnly_takeSnapshot (d : Device) (src cls beat cyc : Nat) :
    SnapshotOnly d (takeSnapshot d src cls beat cyc) := by
  have hstat : BEAT_COUNT ≠ SNAP_STAT := by decide
  have hwhen : BEAT_COUNT ≠ SNAP_WHEN := by decide
  unfold takeSnapshot
  split
  · rw [incRegSat_eq]; exact snapshotOnly_setReg _ _ _ _ hstat
  · extract_lets sh e e'
    have he : SnapshotOnly d e := ⟨rfl, rfl⟩
    have he' : SnapshotOnly e e' := ((snapshotOnly_setReg _ _ _ _ hstat).trans
      (snapshotOnly_setReg _ _ _ _ hstat)).trans (snapshotOnly_setReg _ _ _ _ hstat)
    exact ((he.trans he').trans (snapshotOnly_setReg _ _ _ _ hwhen)).trans (snapshotOnly_setReg _ _ _ _ hwhen)

theorem snapshotOnly_fatalTrigger (d : Device) : SnapshotOnly d (fatalTrigger d) := by
  unfold fatalTrigger
  split
  · exact snapshotOnly_takeSnapshot ..
  · exact .refl d

section
variable (d : Device) (t detail : Nat)

/-- Apart from registers and harts a fatal event changes the record state and writes the log. -/
theorem fatalNow_frame : ∃ regs ras hs, fatalNow d t detail = { d with
    regs := regs, ras := ras, harts := hs, life := { d.life with saved := d.life.work } } ∧ ras.fatal = true := by
  have htrig := (snapshotOnly_fatalTrigger d).rest
  obtain ⟨regs', ras', hraise⟩ := raiseEvent_frame (fatalTrigger d) 0x1f t 0 detail none
  obtain ⟨hs, hfold⟩ := foldl_toldHart_frame (List.finRange 128) (fatalRaised d t detail)
  rw [fatalNow_eq, hfold, fatalRaised, hraise, htrig]
  exact ⟨regs', { ras' with fatal := true }, hs, rfl, rfl⟩

theorem fatalNow_mesh : (fatalNow d t detail).mesh = d.mesh := by
  obtain ⟨_, _, _, h, -⟩ := fatalNow_frame d t detail
  rw [h]

theorem fatalNow_life : (fatalNow d t detail).life = { d.life with saved := d.life.work } := by
  obtain ⟨_, _, _, h, -⟩ := fatalNow_frame d t detail
  rw [h]

theorem fatalNow_fatal : (fatalNow d t detail).ras.fatal = true := by
  obtain ⟨_, _, _, h, hf⟩ := fatalNow_frame d t detail
  rw [h]; exact hf

theorem fatalNow_raised (h : d.ras.marks = []) :
    (⟨0x1f, t, 0, detail, none, false, beatNow d, 1⟩ : RasEvent) ∈ (fatalNow d t detail).ras.raised := by
  obtain ⟨htrig, hbeat⟩ := snapshotOnly_fatalTrigger d
  have hmarks : (fatalTrigger d).ras.marks = [] := by rw [htrig]; exact h
  obtain ⟨inj, marks, k, hras, hinj⟩ := raiseEvent_ras (fatalTrigger d) 0x1f t 0 detail none
  obtain ⟨hs, hfold⟩ := foldl_toldHart_frame (List.finRange 128) (fatalRaised d t detail)
  rw [fatalNow_eq, hfold]
  show _ ∈ (raiseEvent (fatalTrigger d) 0x1f t 0 detail none).ras.raised
  rw [hras, hinj hmarks, hbeat]
  exact List.mem_append_right _ (List.mem_singleton.mpr rfl)

theorem fatalNow_harts (h : Hart) : (fatalNow d t detail).harts[h] = toldHart d.harts[h] := by
  have hraised : (fatalRaised d t detail).harts = d.harts := by
    have htrig := (snapshotOnly_fatalTrigger d).rest
    obtain ⟨regs', ras', hraise⟩ := raiseEvent_frame (fatalTrigger d) 0x1f t 0 detail none
    rw [fatalRaised, hraise, htrig]; rfl
  rw [fatalNow_eq, harts_foldl_toldHart _ (List.nodup_finRange _), if_pos (List.mem_finRange h), hraised]

end

theorem toldHart_pending {x : HartState} (h : x.held = false) :
    1 ∈ (sget (toldHart x).files 0 ⟨[], [], false⟩).pending := by
  rw [toldHart, h]
  simp [toldFiles, mem_insertNat]

/-! ### Links -/

/-- A failed link, port or router is recorded, and the log written. -/
def meshRetired (d : Device) (t val : Nat) : Device := lifeRetire (raiseEvent d 0x14 t 0 0 none) .router t val

theorem meshRetired_frame (d : Device) (t val : Nat) : ∃ regs ras life,
    meshRetired d t val = { d with regs := regs, ras := ras, life := life } ∧ life.saved = life.work := by
  obtain ⟨regs, ras, h⟩ := raiseEvent_frame d 0x14 t 0 0 none
  rw [meshRetired, h]
  exact ⟨_, _, _, rfl, rfl⟩

theorem meshRetired_mesh (d : Device) (t val : Nat) : (meshRetired d t val).mesh = d.mesh := by
  obtain ⟨_, _, _, h, -⟩ := meshRetired_frame d t val
  rw [h]

theorem meshRetired_life (d : Device) (t val : Nat) :
    (meshRetired d t val).life.saved = (meshRetired d t val).life.work := by
  obtain ⟨_, _, _, h, hl⟩ := meshRetired_frame d t val
  rw [h]; exact hl

theorem lifeRetire_regs (d : Device) (k : LifeKind) (item cls : Nat) : (lifeRetire d k item cls).regs = d.regs := rfl

theorem regF_meshRetired (d : Device) (t val : Nat) {y : Nat} (lo len : Nat) (hs : y ≠ SNAP_STAT)
    (hw : y ≠ SNAP_WHEN) : regF (meshRetired d t val) y lo len = regF d y lo len := by
  rw [meshRetired, regF_congr (lifeRetire_regs ..), regF_eq, reg_raiseEvent _ _ _ _ _ _ hs hw, regF_eq]

/-- The device with more changes of the mesh that wait for the tick. -/
def pendRoutes (d : Device) (l : List (Nat × Nat)) : Device :=
  { d with mesh := { d.mesh with pend := d.mesh.pend ++ l } }

theorem portFails_none {d : Device} {t : Nat} (h : foyerUp d t = false ∨ (t, 5) ∈ d.mesh.pend) :
    portFails d t = d := by
  refine if_pos ?_
  rcases h with h | h <;> simp [h]

theorem portFails_up {d : Device} {t : Nat} (up : foyerUp d t = true) (h : (t, 5) ∉ d.mesh.pend) :
    portFails d t = meshRetired (pendRoutes d [(t, 5)]) t (256 * 5 + 0x14) := by
  simp [portFails, up, h, meshRetired, pendRoutes]

/-- The squares that links join. -/
theorem linkPeer_cases {t b p : Nat} (h : linkPeer t b = some p) :
    (b = 1 ∧ t < 56 ∧ p = t + 8) ∨ (b = 2 ∧ 8 ≤ t ∧ p = t - 8) ∨ (b = 3 ∧ t % 8 < 7 ∧ p = t + 1) ∨
      (b = 4 ∧ 0 < t % 8 ∧ p = t - 1) := by
  unfold linkPeer at h
  split at h
  case h_5 => cases h
  all_goals
    rw [Option.ite_none_right_eq_some, Option.some.injEq] at h
    omega

/-- The peer of a square has the square for its peer. -/
theorem linkPeer_peerBit {t b p : Nat} (ht : t < 64) (h : linkPeer t b = some p) : linkPeer p (peerBit b) = some t := by
  rcases linkPeer_cases h with ⟨rfl, _, rfl⟩ | ⟨rfl, _, rfl⟩ | ⟨rfl, _, rfl⟩ | ⟨rfl, _, rfl⟩ <;>
    simp only [linkPeer, peerBit] <;> rw [if_pos (by omega)] <;> congr 1 <;> omega

theorem linkPeer_ne {t b p : Nat} (h : linkPeer t b = some p) : t ≠ p := by
  have := linkPeer_cases h; omega

/-! ### Retries -/

theorem satInc_16 {x : Nat} (h : x < 65536) : satInc x 16 = min 65535 (x + 1) := by
  unfold satInc; split <;> omega

section
variable (d : Device) (t b : Nat)

theorem countRetries_succ (n : Nat) :
    countRetries d t b (n + 1) = incRegSat (countRetries d t b n) (MSH_RETRY t) (16 * (b - 1)) 16 := by
  rw [countRetries, List.range_succ, List.foldl_append]; rfl

theorem countRetries_frame (n : Nat) : ∃ regs, countRetries d t b n = { d with regs := regs } := by
  induction n with
  | zero => exact ⟨_, rfl⟩
  | succ n ih =>
    obtain ⟨regs, h⟩ := ih
    rw [countRetries_succ, h]
    exact ⟨_, rfl⟩

theorem regF_countRetries_of_ne (n : Nat) {y : Nat} (lo len : Nat) (h : y ≠ MSH_RETRY t) :
    regF (countRetries d t b n) y lo len = regF d y lo len := by
  induction n with
  | zero => rfl
  | succ n ih => rw [countRetries_succ, regF_incRegSat_of_ne _ _ _ _ _ h, ih]

variable {b}

theorem regF_countRetries_self (n : Nat) (h : b ≤ 4) :
    regF (countRetries d t b n) (MSH_RETRY t) (16 * (b - 1)) 16 =
      min 65535 (regF d (MSH_RETRY t) (16 * (b - 1)) 16 + n) := by
  induction n with
  | zero =>
    have : regF d (MSH_RETRY t) (16 * (b - 1)) 16 < 65536 := regF_lt ..
    show regF d (MSH_RETRY t) (16 * (b - 1)) 16 = _
    omega
  | succ n ih =>
    rw [countRetries_succ, regF_incRegSat_self _ _ (by omega), ih, satInc_16 (by omega)]
    omega

end

/-! ### A failed link -/

/-- The device once both squares of a link have counted its three retries. -/
def linkCounted (d : Device) (t b p : Nat) : Device := countRetries (countRetries d t b 3) p (peerBit b) 3

theorem linkCounted_frame (d : Device) (t b p : Nat) : ∃ regs, linkCounted d t b p = { d with regs := regs } := by
  obtain ⟨_, h⟩ := countRetries_frame d t b 3
  obtain ⟨regs, h'⟩ := countRetries_frame (countRetries d t b 3) p (peerBit b) 3
  exact ⟨regs, by rw [linkCounted, h', h]⟩

theorem stat_ne_retry (t u : Nat) : MSH_STAT t ≠ MSH_RETRY u := by
  simp only [MSH_STAT, MSH_RETRY, regAt, blkInfo]; omega

theorem retry_ne_snap (t : Nat) : MSH_RETRY t ≠ SNAP_STAT ∧ MSH_RETRY t ≠ SNAP_WHEN := by
  simp only [MSH_RETRY, SNAP_STAT, SNAP_WHEN, regAt, blkInfo]; omega

theorem linkCounted_stat (d : Device) (t b p lo len : Nat) :
    regF (linkCounted d t b p) (MSH_STAT t) lo len = regF d (MSH_STAT t) lo len := by
  rw [linkCounted, regF_countRetries_of_ne _ _ _ _ _ _ (stat_ne_retry _ _),
    regF_countRetries_of_ne _ _ _ _ _ _ (stat_ne_retry _ _)]

theorem linkCounted_retry (d : Device) {t b p : Nat} (h : linkPeer t b = some p) :
    regF (linkCounted d t b p) (MSH_RETRY t) (16 * (b - 1)) 16 =
      min 65535 (regF d (MSH_RETRY t) (16 * (b - 1)) 16 + 3) := by
  have hne := linkPeer_ne h
  have hb : b ≤ 4 := by have := linkPeer_cases h; omega
  rw [linkCounted, regF_countRetries_of_ne, regF_countRetries_self _ _ _ hb]
  simp only [MSH_RETRY, regAt, blkInfo]; omega

section
variable {d : Device} {t b : Nat}

theorem linkFails_none (h : linkPeer t b = none) : linkFails d t b = d := by
  rw [linkFails, h]

variable {p : Nat} (h : linkPeer t b = some p)
include h

theorem linkFails_down (down : regF d (MSH_STAT t) b 1 = 0 ∨ (t, b) ∈ d.mesh.pend) :
    linkFails d t b = linkCounted d t b p := by
  obtain ⟨regs, hframe⟩ := linkCounted_frame d t b p
  have hmesh : (linkCounted d t b p).mesh = d.mesh := by rw [hframe]
  rw [← linkCounted_stat d t b p, ← hmesh] at down
  rw [linkFails, h]
  refine if_pos ?_
  show (decide (regF (linkCounted d t b p) (MSH_STAT t) b 1 = 0) ||
    (linkCounted d t b p).mesh.pend.contains (t, b)) = true
  rcases down with down | down <;> simp [down]

theorem linkFails_up (up : regF d (MSH_STAT t) b 1 = 1) (fresh : (t, b) ∉ d.mesh.pend) :
    linkFails d t b =
      meshRetired (pendRoutes (linkCounted d t b p) [(t, b), (p, peerBit b)]) t (256 * b + 0x14) := by
  obtain ⟨regs, hframe⟩ := linkCounted_frame d t b p
  have hmesh : (linkCounted d t b p).mesh = d.mesh := by rw [hframe]
  rw [← linkCounted_stat d t b p] at up
  rw [← hmesh] at fresh
  rw [linkFails, h]
  refine if_neg ?_
  show ¬ (decide (regF (linkCounted d t b p) (MSH_STAT t) b 1 = 0) ||
    (linkCounted d t b p).mesh.pend.contains (t, b)) = true
  simp [up, fresh]

end

/-! ### Routers -/

theorem isolate_cut {d : Device} {t : Nat} (h : t ∈ d.mesh.cut) : isolate d t = d := if_pos (by simpa using h)

theorem isolate_fresh {d : Device} {t : Nat} (h : t ∉ d.mesh.cut) :
    isolate d t = fatalNow { d with mesh := { d.mesh with cut := d.mesh.cut ++ [t] } } t 0 := if_neg (by simpa using h)

/-- Whatever local ports fail with a router, the changes that wait stay and the written log is the newest. -/
theorem foldl_isolate_keeps (l : List Nat) (d : Device) (h : d.life.saved = d.life.work) :
    (l.foldl isolate d).mesh.pend = d.mesh.pend ∧
      (l.foldl isolate d).life.saved = (l.foldl isolate d).life.work := by
  induction l generalizing d with
  | nil => exact ⟨rfl, h⟩
  | cons t l ih =>
    rw [List.foldl_cons]
    by_cases hcut : t ∈ d.mesh.cut
    · rw [isolate_cut hcut]; exact ih d h
    · rw [isolate_fresh hcut]
      obtain ⟨hpend, hsaved⟩ := ih (fatalNow { d with mesh := { d.mesh with cut := d.mesh.cut ++ [t] } } t 0)
        (by rw [fatalNow_life])
      exact ⟨hpend.trans (by rw [fatalNow_mesh]), hsaved⟩

theorem routerUp_eq (d : Device) (t : Nat) : routerUp d t = (regF d (MSH_STAT t) 0 1 == 1) := rfl

theorem routerFails_down {d : Device} {t : Nat} (h : regF d (MSH_STAT t) 0 1 = 0) : routerFails d t = isolate d t := by
  refine if_pos ?_
  rw [routerUp_eq, h]; rfl

theorem routerFails_up {d : Device} {t : Nat} (up : regF d (MSH_STAT t) 0 1 = 1) (fresh : (t, 0) ∉ d.mesh.pend) :
    ∃ l : List Nat, routerFails d t = l.foldl isolate (meshRetired (pendRoutes d [(t, 0)]) t 0x14) := by
  refine ⟨_, if_neg ?_⟩
  simp [routerUp_eq, up, fresh]

/-! ### The commands -/

section
variable {s : State}

theorem exec_fatalEvent (ready : s.dev.phase = .run ∨ s.dev.phase = .recovery) (t : Tile) (v : BitVec 32) :
    exec (.fatalEvent t v) s = .next (s.withDev (fatalNow s.dev t.val v.toNat)) := act_whenReady _ ready

/-- A fatal event is recorded, the log is written, and every hart in service is told (R523). -/
theorem fatalEvent_tells (ready : s.dev.phase = .run ∨ s.dev.phase = .recovery) (t : Tile) (v : BitVec 32) :
    ∃ u, exec (.fatalEvent t v) s = .next u ∧ u.dev.ras.fatal = true ∧ u.dev.life.saved = u.dev.life.work ∧
      (s.dev.ras.marks = [] →
        (⟨0x1f, t.val, 0, v.toNat, none, false, beatNow s.dev, 1⟩ : RasEvent) ∈ u.dev.ras.raised) ∧
      ∀ h : Hart, s.dev.harts[h].held = false → 1 ∈ (sget u.dev.harts[h].files 0 ⟨[], [], false⟩).pending := by
  have hfatal := fatalNow_fatal s.dev t.val v.toNat
  have hlife := fatalNow_life s.dev t.val v.toNat
  have hraised := fatalNow_raised s.dev t.val v.toNat
  have hharts := fatalNow_harts s.dev t.val v.toNat
  rw [exec_fatalEvent ready]
  generalize fatalNow s.dev t.val v.toNat = f at *
  refine ⟨_, rfl, hfatal, ?_, hraised, fun h hheld => ?_⟩ <;> rw [dev_withDev]
  · rw [hlife]
  · rw [hharts]
    exact toldHart_pending hheld

variable (run : s.dev.phase = .run) (t : Tile)
include run

theorem exec_meshLinkFailure_foyer : exec (.meshLinkFailure t .foyer) s = .next (s.withDev (portFails s.dev t.val)) :=
  act_whenRun _ run

theorem exec_meshLinkFailure {l : LinkDir} (notPort : l ≠ .foyer) :
    exec (.meshLinkFailure t l) s = .next (s.withDev (linkFails s.dev t.val (linkBit l))) := by
  refine (act_whenRun _ run).trans ?_
  rw [if_neg notPort]

theorem exec_routerFailure : exec (.routerFailure t) s = .next (s.withDev (routerFails s.dev t.val)) :=
  act_whenRun _ run

/-- A Foyer port that has failed leaves service at the next tick (R22). -/
theorem meshLinkFailure_foyer (up : foyerUp s.dev t.val = true) (fresh : (t.val, 5) ∉ s.dev.mesh.pend) :
    ∃ u, exec (.meshLinkFailure t .foyer) s = .next u ∧ u.dev.mesh.pend = s.dev.mesh.pend ++ [(t.val, 5)] ∧
      u.dev.life.saved = u.dev.life.work := by
  refine ⟨_, exec_meshLinkFailure_foyer run t, ?_, ?_⟩ <;> rw [dev_withDev, portFails_up up fresh]
  · rw [meshRetired_mesh]; rfl
  · rw [meshRetired_life]

/-- A link that has failed leaves service for both of its squares at the next tick (R516, R518). -/
theorem meshLinkFailure_up {l : LinkDir} (notPort : l ≠ .foyer) {p : Nat} (h : linkPeer t.val (linkBit l) = some p)
    (up : regF s.dev (MSH_STAT t.val) (linkBit l) 1 = 1) (fresh : (t.val, linkBit l) ∉ s.dev.mesh.pend) :
    ∃ u, exec (.meshLinkFailure t l) s = .next u ∧
      u.dev.mesh.pend = s.dev.mesh.pend ++ [(t.val, linkBit l), (p, peerBit (linkBit l))] ∧
      regF u.dev (MSH_RETRY t.val) (16 * (linkBit l - 1)) 16 =
        min 65535 (regF s.dev (MSH_RETRY t.val) (16 * (linkBit l - 1)) 16 + 3) ∧
      linkPeer p (peerBit (linkBit l)) = some t.val := by
  refine ⟨_, exec_meshLinkFailure run t notPort, ?_, ?_, linkPeer_peerBit t.isLt h⟩ <;>
    rw [dev_withDev, linkFails_up h up fresh]
  · obtain ⟨regs, hframe⟩ := linkCounted_frame s.dev t.val (linkBit l) p
    rw [meshRetired_mesh, pendRoutes, hframe]
  · obtain ⟨hs, hw⟩ := retry_ne_snap t.val
    have hregs : ∀ d l, (pendRoutes d l).regs = d.regs := fun _ _ => rfl
    rw [regF_meshRetired _ _ _ _ _ hs hw, regF_congr (hregs ..), linkCounted_retry _ h]

/-- A failure on a link that is out of service, or about to leave it, only counts its retries. -/
theorem meshLinkFailure_down {l : LinkDir} (notPort : l ≠ .foyer) {p : Nat} (h : linkPeer t.val (linkBit l) = some p)
    (down : regF s.dev (MSH_STAT t.val) (linkBit l) 1 = 0 ∨ (t.val, linkBit l) ∈ s.dev.mesh.pend) :
    ∃ u, exec (.meshLinkFailure t l) s = .next u ∧ u = s.withDev { s.dev with regs := u.dev.regs } := by
  obtain ⟨regs, hframe⟩ := linkCounted_frame s.dev t.val (linkBit l) p
  refine ⟨_, exec_meshLinkFailure run t notPort, ?_⟩
  rw [linkFails_down h down, hframe]
  rfl

/-- A router that has failed leaves service at the next tick (R516, R518). -/
theorem routerFailure_up (up : regF s.dev (MSH_STAT t.val) 0 1 = 1) (fresh : (t.val, 0) ∉ s.dev.mesh.pend) :
    ∃ u, exec (.routerFailure t) s = .next u ∧ (t.val, 0) ∈ u.dev.mesh.pend ∧
      u.dev.life.saved = u.dev.life.work := by
  obtain ⟨l, hl⟩ := routerFails_up up fresh
  obtain ⟨hpend, hsaved⟩ := foldl_isolate_keeps l _ (meshRetired_life (pendRoutes s.dev [(t.val, 0)]) t.val 0x14)
  rw [← hl, meshRetired_mesh] at hpend
  rw [← hl] at hsaved
  refine ⟨_, exec_routerFailure run t, ?_, ?_⟩ <;> rw [dev_withDev]
  · rw [hpend]
    exact List.mem_append_right _ (List.mem_singleton.mpr rfl)
  · rw [hsaved]

/-- A second failure of a square cuts its local port, and is fatal (R523). -/
theorem routerFailure_again (down : regF s.dev (MSH_STAT t.val) 0 1 = 0) (fresh : t.val ∉ s.dev.mesh.cut) :
    ∃ u, exec (.routerFailure t) s = .next u ∧ t.val ∈ u.dev.mesh.cut ∧ u.dev.ras.fatal = true := by
  refine ⟨_, exec_routerFailure run t, ?_, ?_⟩ <;> rw [dev_withDev, routerFails_down down, isolate_fresh fresh]
  · rw [fatalNow_mesh]
    exact List.mem_append_right _ (List.mem_singleton.mpr rfl)
  · rw [fatalNow_fatal]

end

theorem fatalAndMeshFailures : Claims.FatalAndMeshFailures := by
  intro s d
  refine ⟨fatalEvent_tells, fun run t => ⟨meshLinkFailure_foyer run t, fun down => ?_⟩,
    fun run t l notPort => ⟨fun h => ?_, fun p => meshLinkFailure_up run t notPort,
      fun p => meshLinkFailure_down run t notPort⟩,
    fun run t => ⟨routerFailure_up run t, fun down cut => ?_, routerFailure_again run t⟩⟩
  · rw [exec_meshLinkFailure_foyer run, portFails_none down]; rfl
  · rw [exec_meshLinkFailure run t notPort, linkFails_none h]; rfl
  · rw [exec_routerFailure run, routerFails_down down, isolate_cut cut]; rfl

end Sys2Proof.Machine
end

section
/-! PROOF. Snapshots and the lifetime log (R525, R528 to R530). -/

namespace Sys2Proof.Machine

open Sys2Proof

/-! ### Triggers of a snapshot -/

section
variable {d : Device} (src : Nat)

theorem tickTrigger_held (h : regF d SNAP_STAT 0 2 ≠ 0) : tickTrigger d src = incRegSat d SNAP_STAT 16 16 :=
  if_pos (bne_iff_ne.mpr h)

theorem tickTrigger_empty (h : regF d SNAP_STAT 0 2 = 0) : tickTrigger d src =
    if d.ras.snapWait.isSome then d else updRas d fun r => { r with snapWait := some src } :=
  if_neg (by simp [h])

/-- A trigger that finds no snapshot and none waiting waits for the tick. -/
theorem tickTrigger_waits (h : regF d SNAP_STAT 0 2 = 0) (none : d.ras.snapWait = none) :
    tickTrigger d src = updRas d fun r => { r with snapWait := some src } := by
  rw [tickTrigger_empty src h, none]; rfl

theorem tickTrigger_joins (h : regF d SNAP_STAT 0 2 = 0) (some : d.ras.snapWait.isSome = true) :
    tickTrigger d src = d := by
  rw [tickTrigger_empty src h, if_pos some]

end

section
variable {s : State} (ready : s.dev.phase = .run ∨ s.dev.phase = .recovery)
include ready

theorem exec_snapNEdge_off (h : regF s.dev SNAP_CTL 0 1 = 0) : exec .snapNEdge s = .next s := by
  refine (act_whenReady _ ready).trans ?_
  rw [if_neg (by omega)]; rfl

theorem exec_snapNEdge (h : regF s.dev SNAP_CTL 0 1 = 1) :
    exec .snapNEdge s = .next (s.withDev (tickTrigger s.dev 1)) := by
  refine (act_whenReady _ ready).trans ?_
  rw [if_pos h]

end

/-- A mailbox command that executes acts. -/
theorem boxRun_of_executes {s : State} {op : Nat} (h : BoxExecutes s op) (f : Device → Device) :
    boxRun op f s = .next (s.withDev (f s.dev)) := by
  obtain ⟨hphase, hbusy, hop⟩ := h
  have hready : ready s.dev = true := by rcases hphase with hr | hr <;> simp [ready, hr]
  have hlive : boxLive s.dev op = true := by simp [boxLive, hready, hbusy, hop]
  rw [boxRun, act_eq, if_pos hlive]

theorem exec_snapTrigger {s : State} (h : BoxExecutes s 0x600) :
    exec .snapTrigger s = .next (s.withDev (respond (tickTrigger s.dev 2) 0 0 0)) :=
  boxRun_of_executes h fun d => reply (tickTrigger d 2) 0

/-! ### Release -/

theorem exec_snapRelease_other {s : State} {w : RegAccess} (h : strobe w 3 = false) :
    exec (.snapRelease w) s = .next s := act_of_eq (if_neg (by simp [h]))

theorem exec_snapRelease {s : State} {w : RegAccess} (takes : s.dev.TakesWrite SNAP_CTL w.agent)
    (h : strobe w 3 = true) : exec (.snapRelease w) s = .next (s.withDev (setReg
      (updRas (plainWrite s.dev SNAP_CTL w) fun r => { r with snapRegs := none }) SNAP_STAT 0 2 0)) := by
  refine act_of_effect ((if_pos h).trans ?_)
  rw [writeSnapCtl, gateWrite_takes _ takes, if_pos h]

/-! ### The lifetime log -/

/-- A count of the lifetime log. -/
def lifeCount (d : Device) (k : Nat) : Nat := sget d.life.work.counts k 0

theorem lifeCount_lifeAdd (d : Device) (sec item n k : Nat) : lifeCount (lifeAdd d sec item n) k =
    if k = lifeKey sec item then lifeCount d (lifeKey sec item) + n else lifeCount d k := by
  simp [lifeCount, lifeAdd]

theorem lifeCount_lifeAdd_self (d : Device) (sec item n : Nat) :
    lifeCount (lifeAdd d sec item n) (lifeKey sec item) = lifeCount d (lifeKey sec item) + n := by
  rw [lifeCount_lifeAdd, if_pos rfl]

theorem lifeCount_lifeAdd_apart (d : Device) {sec item k : Nat} (n : Nat) (h : k < lifeKey sec item) :
    lifeCount (lifeAdd d sec item n) k = lifeCount d k := by
  rw [lifeCount_lifeAdd, if_neg (Nat.ne_of_lt h)]

/-- A minute counts itself: the other counts that it raises stand under later keys. -/
theorem lifeCount_lifeMinute (d : Device) :
    lifeCount (lifeMinute d) (lifeKey 0 0) = lifeCount d (lifeKey 0 0) + 1 := by
  have hkey : ∀ sec item, 0 < sec → lifeKey 0 0 < lifeKey sec item := fun sec item h => by
    simp only [lifeKey]; omega
  rw [lifeMinute]
  simp only [lifeCount_lifeAdd_apart _ _ (hkey _ _ (by decide : 0 < 2)),
    lifeCount_lifeAdd_apart _ _ (hkey _ _ (by decide : 0 < 1))]
  rw [lifeCount_lifeAdd_apart _ _ (by decide), lifeCount_lifeAdd_self]

/-- `e` differs from `d` in the counts of the lifetime log only. -/
structure CountsOnly (d e : Device) : Prop where
  rest : e = { d with life := { d.life with work := { d.life.work with counts := e.life.work.counts } } }

theorem CountsOnly.trans {d e f : Device} (h : CountsOnly d e) (k : CountsOnly e f) : CountsOnly d f :=
  ⟨k.rest.trans (by rw [h.rest])⟩

theorem countsOnly_lifeAdd (d : Device) (sec item n : Nat) : CountsOnly d (lifeAdd d sec item n) := ⟨rfl⟩

theorem countsOnly_lifeMinute (d : Device) : CountsOnly d (lifeMinute d) := by
  unfold lifeMinute
  extract_lets e e'
  have he : CountsOnly d e := (countsOnly_lifeAdd ..).trans (countsOnly_lifeAdd ..)
  have he' : CountsOnly e e' := (countsOnly_lifeAdd ..).trans (countsOnly_lifeAdd ..)
  exact (he.trans he').trans ((countsOnly_lifeAdd ..).trans (countsOnly_lifeAdd ..))

theorem showHours_frame (d : Device) : ∃ regs, showHours d = { d with regs := regs } := ⟨_, rfl⟩

/-- Notes change the list of notes alone. -/
theorem foldl_lifeNote_frame (k : LifeKind) (val : Device → Nat → Nat) (l : List Nat) (d : Device) :
    ∃ n, l.foldl (fun d i => lifeNote d k i (val d i)) d =
      { d with life := { d.life with work := { d.life.work with notes := n } } } := by
  induction l generalizing d with
  | nil => exact ⟨_, rfl⟩
  | cons i t ih =>
    obtain ⟨n, h⟩ := ih (lifeNote d k i (val d i))
    exact ⟨n, h.trans rfl⟩

theorem noteWear_frame (d : Device) : ∃ n, noteWear d =
    { d with life := { d.life with work := { d.life.work with notes := n } } } :=
  foldl_lifeNote_frame .wear (fun d i => (regView d (LDG_HEALTH i)).toNat) _ d

theorem showHours_stat (d : Device) : regF (showHours d) LIFE_STAT 0 1 = regF d LIFE_STAT 0 1 := by
  rw [showHours, regF_setReg_apart _ _ _ (by decide), regF_setReg_of_ne _ _ _ _ _ _ (by decide),
    regF_setReg_of_ne _ _ _ _ _ _ (by decide)]

/-- The halves of the mirror once the log has been copied. -/
def mirrored (l : Life) (ok : Bool) : Life :=
  let new := if ok then some (max (halfSeq l.half0) (halfSeq l.half1) + 1, l.work) else none
  if halfSeq l.half0 ≤ halfSeq l.half1 then { l with half0 := new } else { l with half1 := new }

theorem mirrorLog_stat (d : Device) (ok : Bool) : regF (mirrorLog d ok) LIFE_STAT 0 1 = if ok then 1 else 0 := by
  cases ok with
  | false => exact regF_setReg_of_lt _ _ (by decide) (by decide)
  | true => exact (showHours_stat _).trans (regF_setReg_of_lt _ _ (by decide) (by decide))

theorem mirrorLog_halves (d : Device) (ok : Bool) :
    (mirrorLog d ok).life.half0 = (mirrored d.life ok).half0 ∧
      (mirrorLog d ok).life.half1 = (mirrored d.life ok).half1 := by
  cases ok with
  | false => exact ⟨rfl, rfl⟩
  | true => exact ⟨rfl, rfl⟩

/-- The half that is not the newest takes the copy, or is lost with a failed flash. -/
theorem mirrored_old0 {l : Life} (ok : Bool) (h : halfSeq l.half0 ≤ halfSeq l.half1) :
    (mirrored l ok).half1 = l.half1 ∧ halfSeq (mirrored l ok).half0 =
      if ok then max (halfSeq l.half0) (halfSeq l.half1) + 1 else 0 := by
  rw [mirrored, if_pos h]
  cases ok <;> exact ⟨rfl, rfl⟩

theorem mirrored_old1 {l : Life} (ok : Bool) (h : halfSeq l.half1 < halfSeq l.half0) :
    (mirrored l ok).half0 = l.half0 ∧ halfSeq (mirrored l ok).half1 =
      if ok then max (halfSeq l.half0) (halfSeq l.half1) + 1 else 0 := by
  rw [mirrored, if_neg (by omega)]
  cases ok <;> exact ⟨rfl, rfl⟩

section
variable {s : State} (ready : s.dev.phase = .run ∨ s.dev.phase = .recovery)
include ready

theorem exec_lifetimeLogWrite :
    exec .lifetimeLogWrite s = .next (s.withDev (lifeSave (showHours (lifeMinute s.dev)))) := act_whenReady _ ready

theorem exec_lifetimeLogMirror (ok : Bool) :
    exec (.lifetimeLogMirror ok) s = .next (s.withDev (mirrorLog (noteWear s.dev) ok)) := act_whenReady _ ready

/-- Every minute the log counts, and is written (R528, R529). -/
theorem lifetimeLogWrite_counts : ∃ t, exec .lifetimeLogWrite s = .next t ∧ t.dev.life.saved = t.dev.life.work ∧
    sget t.dev.life.work.counts (lifeKey 0 0) 0 = sget s.dev.life.work.counts (lifeKey 0 0) 0 + 1 ∧
    t.dev.life.half0 = s.dev.life.half0 ∧ t.dev.life.half1 = s.dev.life.half1 ∧ t.dev.mem = s.dev.mem := by
  have hcount := lifeCount_lifeMinute s.dev
  obtain ⟨hminute⟩ := countsOnly_lifeMinute s.dev
  obtain ⟨regs, hshow⟩ := showHours_frame (lifeMinute s.dev)
  rw [exec_lifetimeLogWrite ready, hshow]
  generalize lifeMinute s.dev = e at *
  rw [hminute]
  exact ⟨_, rfl, rfl, hcount, rfl, rfl, rfl⟩

/-- Every day the log is copied to the half of the mirror that is not the newest (R530). -/
theorem lifetimeLogMirror_copies (ok : Bool) : ∃ t, exec (.lifetimeLogMirror ok) s = .next t ∧
    regF t.dev LIFE_STAT 0 1 = (if ok then 1 else 0) ∧
    let n := max (halfSeq s.dev.life.half0) (halfSeq s.dev.life.half1) + 1
    (halfSeq s.dev.life.half0 ≤ halfSeq s.dev.life.half1 → t.dev.life.half1 = s.dev.life.half1 ∧
      halfSeq t.dev.life.half0 = if ok then n else 0) ∧
    (halfSeq s.dev.life.half1 < halfSeq s.dev.life.half0 → t.dev.life.half0 = s.dev.life.half0 ∧
      halfSeq t.dev.life.half1 = if ok then n else 0) := by
  have hstat := mirrorLog_stat (noteWear s.dev) ok
  obtain ⟨h0, h1⟩ := mirrorLog_halves (noteWear s.dev) ok
  obtain ⟨notes, hwear⟩ := noteWear_frame s.dev
  rw [exec_lifetimeLogMirror ready]
  generalize mirrorLog (noteWear s.dev) ok = e at *
  refine ⟨_, rfl, hstat, fun h => ?_, fun h => ?_⟩ <;> rw [dev_withDev, h0, h1, hwear]
  · exact mirrored_old0 ok h
  · exact mirrored_old1 ok h

end

/-! ### The statement -/

theorem snapshotsAndLog : Claims.SnapshotsAndLog := by
  intro s d missed waits
  refine ⟨fun ready => ⟨exec_snapNEdge_off ready, fun on held => ?_, fun on empty none => ?_, fun on empty some => ?_,
      lifetimeLogWrite_counts ready, lifetimeLogMirror_copies ready⟩,
    fun box => ⟨fun held => ?_, fun empty none => ?_, fun empty some => ?_⟩, fun w takes release => ?_,
    fun w other => exec_snapRelease_other other⟩
  · rw [exec_snapNEdge ready on, tickTrigger_held _ held, incRegSat_eq]
  · rw [exec_snapNEdge ready on, tickTrigger_waits _ empty none]; rfl
  · rw [exec_snapNEdge ready on, tickTrigger_joins _ empty some]; rfl
  · rw [exec_snapTrigger box, tickTrigger_held _ held, incRegSat_eq]
  · rw [exec_snapTrigger box, tickTrigger_waits _ empty none]; rfl
  · rw [exec_snapTrigger box, tickTrigger_joins _ empty some]
  · exact ⟨_, exec_snapRelease takes release, regF_setReg_of_lt _ _ (by decide) (by decide), rfl⟩

/-- Settles O59: the oldest event becomes a record, joins a window, or waits; what fails is noted for the tick, and a
fatal event is told to every hart; snapshots wait for the tick, and the log goes to its older half. -/
theorem recordsFailuresAndLogs : Obligations.RecordsFailuresAndLogs :=
  ⟨eventRecords, fatalAndMeshFailures, snapshotsAndLog⟩

end Sys2Proof.Machine
end
